-- ==== Sys2Proof/Word.lean ====
section
/-! DEFINITION. The words of the Narrov N8: bytes, 64-bit words, queue elements and 512-bit records. -/

namespace Sys2Proof

/-- One byte of memory. -/
abbrev Byte := BitVec 8

/-- A 64-bit word: an s-register, a control word, an instruction word (R14, R89). -/
abbrev W64 := BitVec 64

/-- Bytes read by number. -/
abbrev Bytes := Array Byte

/-- One 2,048-bit element of a queue register (R172). -/
abbrev Elem := BitVec 2048

/-- A 64-byte record: a tensor map, a sequence descriptor, a launch or job record (R224, R245, R375, R377). -/
abbrev Rec := BitVec 512

/-- A mask register (R177). -/
abbrev Mask := BitVec 512

/-- The number of an s-register, s0 to s63 (R89). -/
abbrev SReg := BitVec 6

end Sys2Proof
end

