-- ==== Sys2Proof/Machine/Bits.lean ====
section
/-! DEFINITION. Bit fields and byte order (R6): fields of words and records, little-endian bytes, sign extension. -/

namespace Sys2Proof.Machine

/-- The field of w bits from bit lo, as a number. -/
def fld {n : Nat} (x : BitVec n) (lo w : Nat) : Nat := (x.toNat >>> lo) % 2 ^ w

/-- The same word with the field of w bits from bit lo holding v modulo 2^w. -/
def putFld {n : Nat} (x : BitVec n) (lo w v : Nat) : BitVec n :=
  (x &&& ~~~(BitVec.ofNat n ((2 ^ w - 1) <<< lo))) ||| BitVec.ofNat n ((v % 2 ^ w) <<< lo)

/-- A number of w bits read as two's complement. -/
def signed (w v : Nat) : Int := if v % 2 ^ w < 2 ^ (w - 1) then ((v % 2 ^ w : Nat) : Int) else ((v % 2 ^ w : Nat) : Int) - ((2 ^ w : Nat) : Int)

/-- The w bits of an integer modulo 2^w. -/
def wrap (w : Nat) (i : Int) : Nat := (i % ((2 ^ w : Nat) : Int)).toNat

/-- w ones. -/
def ones (w : Nat) : Nat := 2 ^ w - 1

/-- Little-endian bytes as a number. -/
def leNat : List Byte → Nat
  | [] => 0
  | b :: t => b.toNat + 256 * leNat t

/-- The first n little-endian bytes of a number. -/
def leBytes : Nat → Nat → List Byte
  | 0, _ => []
  | n + 1, v => BitVec.ofNat 8 v :: leBytes n (v / 256)

/-- Each bit of a byte mask repeated eight times: k bytes. -/
def expand (m : Nat) : Nat → Nat
  | 0 => 0
  | k + 1 => expand m k + (if m.testBit k then 255 * 256 ^ k else 0)

/-- New bits where the mask is 1, old bits elsewhere. -/
def mergeBits {n : Nat} (old new mask : BitVec n) : BitVec n := (old &&& ~~~mask) ||| (new &&& mask)

/-- The number of one bits among the first k. -/
def countBits (m : Nat) : Nat → Nat
  | 0 => 0
  | k + 1 => countBits m k + (if m.testBit k then 1 else 0)

/-- ceil(a / b). -/
def ceilDiv (a b : Nat) : Nat := (a + b - 1) / b

/-- Element i of a word of w-bit elements. -/
def elemAt {n : Nat} (x : BitVec n) (w i : Nat) : Nat := fld x (w * i) w

/-- The bits from a list of elements of w bits, element 0 lowest. -/
def packElems (w : Nat) : List Nat → Nat
  | [] => 0
  | v :: t => v % 2 ^ w + 2 ^ w * packElems w t

/-- The first n elements of w bits of a number. -/
def unpackElems (w : Nat) : Nat → Nat → List Nat
  | 0, _ => []
  | n + 1, v => v % 2 ^ w :: unpackElems w n (v / 2 ^ w)

end Sys2Proof.Machine
end

