-- ==== Sys2Proof/Config.lean ====
section
/-! DEFINITION. What an implementation fixes, and the free values of the manual's undefined results.
The opaque constants have no body: no proof can see their values. -/

namespace Sys2Proof.Config

/-- DESIGN CHOICE (log 4): the n-th undefined value (R9) of width w. The step reads and advances the
counter `State.freeCtr`, so every undefined value is a fresh arbitrary bit pattern. -/
opaque free : (w : Nat) → Nat → BitVec w

/-- DESIGN CHOICE (log 4): the n-th undefined poison bit (R9, R92). -/
opaque freeBool : Nat → Bool

/-- CAPS.STEP, a fixed field whose value R424 does not give (log 12). -/
opaque capsStep : BitVec 4

/-- CAPS.HEAD, the offset of the first capability entry in 8-byte units, which R424 leaves to the part (log 12).
R425 lists the blocks; the model links seven entries from here when it is not 0. -/
opaque capsHead : BitVec 15

/-- The 16-bit digest that a READY carries of OP, ROP, TYPE, EXT0 to EXT3 and GRP: R462 does not give the function (log 29). -/
opaque digest : BitVec 80 → BitVec 16

/-- The length of the message-window, scratchpad and memory units the spec fixes (R164, R297, R349). -/
def scratchpadBytes : Nat := 524288
def sharedBytes : Nat := 4194304
def hbmBytes : Nat := 68719476736

end Sys2Proof.Config
end

