-- ==== Sys2Proof/Machine/SMap.lean ====
section
/-! DEFINITION. Sparse maps: association lists from Nat keys in rising key order. A key not listed reads as a
default that each reader names, so a domain of 16,384 dies at reset is an empty list. -/

namespace Sys2Proof

/-- A sparse map from Nat keys. -/
abbrev SMap (α : Type) := List (Nat × α)

/-- The value at a key, if listed. -/
def SMap.find? {α : Type} : SMap α → Nat → Option α
  | [], _ => none
  | (k', v) :: t, k => if k' = k then some v else SMap.find? t k

/-- The value at a key, or the default. -/
def SMap.get {α : Type} (m : SMap α) (dflt : α) (k : Nat) : α :=
  match SMap.find? m k with
  | some v => v
  | none => dflt

/-- The map with one key rewritten; keys stay in rising order. -/
def SMap.set {α : Type} : SMap α → Nat → α → SMap α
  | [], k, v => [(k, v)]
  | (k', v') :: t, k, v =>
    if k < k' then (k, v) :: (k', v') :: t
    else if k' = k then (k, v) :: t
    else (k', v') :: SMap.set t k v

/-- The map without a key. -/
def SMap.erase {α : Type} (m : SMap α) (k : Nat) : SMap α := m.filter (fun p => p.1 != k)

end Sys2Proof
end

