-- ==== Sys2Proof/Syntax.lean ====
section
/-! DEFINITION. The syntax of the machine: one constructor of Instr per row of spec/opcode_table.json.
The first 227 rows are instruction words (03_encoding.md); the other 80 are the indivisible events of the part's
other agents (95_what_each_step_holds.md), which have no encoding and carry the agent they concern. -/

namespace Sys2Proof

/-- The element formats of the 4-bit type code, codes 0x0 to 0xC in this order (R35). -/
inductive EType where
  | fp32 | fp16 | bf16 | e4m3 | e5m2 | e2m1 | i32 | n32 | i16 | i8 | n8 | i4 | i3
  deriving DecidableEq, Repr

/-- The rounding modes, codes 0 to 6 in this order (R41). -/
inductive RMode where
  | rne | rtz | rdn | rup | rna | sr | rns
  deriving DecidableEq, Repr

/-- The engine codes of PUSH and START: 1 V, 2 C, 3 M (R110). -/
inductive Engine where
  | v | c | m
  deriving DecidableEq, Repr

/-- The five issue points of a bank, in the fixed order of R20. -/
inductive Point where
  | s | va | ve | c | m
  deriving DecidableEq, Repr

/-- The four opcode spaces (R70). -/
inductive Space where
  | s | v | c | m
  deriving DecidableEq, Repr

/-- The WAIT and SIGNAL bytes of a word (R14, R15, R16). -/
structure Marks where
  wait : BitVec 8
  signal : BitVec 8
  deriving DecidableEq, Repr

/-- A word that waits on nothing and signals nothing. -/
def Marks.none : Marks := ⟨0, 0⟩

/-- The V operand field (R78). -/
structure VOp where
  vd : BitVec 5
  va : BitVec 5
  vb : BitVec 5
  vc : BitVec 5
  ty : EType
  ka : Bool
  kb : Bool
  kc : Bool
  rm : RMode
  msel : BitVec 2
  sub : BitVec 8
  deriving DecidableEq, Repr

/-- The operand field of VLD and VST (R206). -/
structure VMemOp where
  vq : BitVec 5
  va : BitVec 5
  hasBase : Bool
  ka : Bool
  kq : Bool
  wide : Bool
  stride : BitVec 8
  offset : BitVec 18
  deriving DecidableEq, Repr

/-- The operand field of VGATH and VSCAT (R206). -/
structure VGatOp where
  vq : BitVec 5
  va : BitVec 5
  hasBase : Bool
  ka : Bool
  kq : Bool
  wide : Bool
  vi : BitVec 5
  ki : Bool
  ty : EType
  offset : BitVec 16
  deriving DecidableEq, Repr

/-- The MO operand field of a load (R73, R74). -/
structure MoOp where
  d : SReg
  base : SReg
  lat : BitVec 4
  sx : Bool
  size : BitVec 2
  off : BitVec 21
  deriving DecidableEq, Repr

/-- One constructor per row of the opcode table. -/
inductive Instr where
  /-- NOP, S 0x00 (R24): S pure synchronisation word: waits, issues and completes in one cycle, making only its flag effects. -/
  | nop (m : Marks)
  /-- ADD, S 0x01 (R100): Writes s[a] + s[b] modulo 2^64 to d. -/
  | add (m : Marks) (d a b : SReg)
  /-- SUB, S 0x02 (R100): Writes s[a] - s[b] modulo 2^64 to d. -/
  | sub (m : Marks) (d a b : SReg)
  /-- MUL, S 0x03 (R100): Writes the low 64 bits of the product to d. -/
  | mul (m : Marks) (d a b : SReg)
  /-- MULH, S 0x04 (R100): Writes bits 127:64 of the signed product to d. -/
  | mulh (m : Marks) (d a b : SReg)
  /-- MULHN, S 0x05 (R100): Writes bits 127:64 of the unsigned product to d. -/
  | mulhn (m : Marks) (d a b : SReg)
  /-- DIV, S 0x06 (R100): Writes the signed quotient rounded toward zero to d, with fixed results for zero and overflow. -/
  | div (m : Marks) (d a b : SReg)
  /-- DIVN, S 0x07 (R100): Writes the unsigned quotient to d. -/
  | divn (m : Marks) (d a b : SReg)
  /-- REM, S 0x08 (R100): Writes the signed remainder to d. -/
  | rem (m : Marks) (d a b : SReg)
  /-- REMN, S 0x09 (R100): Writes the unsigned remainder to d. -/
  | remn (m : Marks) (d a b : SReg)
  /-- AND, S 0x0A (R100): Writes the bitwise AND of s[a] and s[b] to d. -/
  | and (m : Marks) (d a b : SReg)
  /-- OR, S 0x0B (R100): Writes the bitwise OR of s[a] and s[b] to d. -/
  | or (m : Marks) (d a b : SReg)
  /-- XOR, S 0x0C (R100): Writes the bitwise XOR of s[a] and s[b] to d. -/
  | xor (m : Marks) (d a b : SReg)
  /-- ANDN, S 0x0D (R100): Writes s[a] AND NOT s[b] to d. -/
  | andn (m : Marks) (d a b : SReg)
  /-- SHL, S 0x0E (R100): Shifts s[a] left by s[b][5:0]. -/
  | shl (m : Marks) (d a b : SReg)
  /-- SHR, S 0x0F (R100): Shifts s[a] right logically by s[b][5:0]. -/
  | shr (m : Marks) (d a b : SReg)
  /-- SHA, S 0x10 (R100): Shifts s[a] right arithmetically by s[b][5:0]. -/
  | sha (m : Marks) (d a b : SReg)
  /-- ROTL, S 0x11 (R100): Rotates s[a] left by s[b][5:0]. -/
  | rotl (m : Marks) (d a b : SReg)
  /-- MIN, S 0x12 (R100): Writes the signed minimum to d. -/
  | min (m : Marks) (d a b : SReg)
  /-- MAX, S 0x13 (R100): Writes the signed maximum to d. -/
  | max (m : Marks) (d a b : SReg)
  /-- MINN, S 0x14 (R100): Writes the unsigned minimum to d. -/
  | minn (m : Marks) (d a b : SReg)
  /-- MAXN, S 0x15 (R100): Writes the unsigned maximum to d. -/
  | maxn (m : Marks) (d a b : SReg)
  /-- CLZ, S 0x16 (R100): Counts the leading zero bits of s[a]. -/
  | clz (m : Marks) (d a : SReg)
  /-- CTZ, S 0x17 (R100): Counts the trailing zero bits of s[a]. -/
  | ctz (m : Marks) (d a : SReg)
  /-- POPC, S 0x18 (R100): Counts the one bits of s[a]. -/
  | popc (m : Marks) (d a : SReg)
  /-- SEQ, S 0x19 (R100): Writes 1 if s[a] equals s[b], else 0. -/
  | seq (m : Marks) (d a b : SReg)
  /-- SNE, S 0x1A (R100): Writes 1 if s[a] differs from s[b], else 0. -/
  | sne (m : Marks) (d a b : SReg)
  /-- SLT, S 0x1B (R100): Writes 1 if s[a] < s[b] signed. -/
  | slt (m : Marks) (d a b : SReg)
  /-- SLTN, S 0x1C (R100): Writes 1 if s[a] < s[b] unsigned. -/
  | sltn (m : Marks) (d a b : SReg)
  /-- SLE, S 0x1D (R100): Writes 1 if s[a] <= s[b] signed. -/
  | sle (m : Marks) (d a b : SReg)
  /-- SLEN, S 0x1E (R100): Writes 1 if s[a] <= s[b] unsigned. -/
  | slen (m : Marks) (d a b : SReg)
  /-- SEL, S 0x1F (R100): Writes s[a] if s[c] is nonzero, else s[b]. -/
  | sel (m : Marks) (d a b c : SReg)
  /-- ADDI, S 0x20 (R101): Adds the sign-extended immediate to s[a]. -/
  | addi (m : Marks) (d a : SReg) (imm : BitVec 28)
  /-- ANDI, S 0x21 (R101): ANDs s[a] with the sign-extended immediate. -/
  | andi (m : Marks) (d a : SReg) (imm : BitVec 28)
  /-- ORI, S 0x22 (R101): ORs s[a] with the zero-extended immediate. -/
  | ori (m : Marks) (d a : SReg) (imm : BitVec 28)
  /-- XORI, S 0x23 (R101): XORs s[a] with the zero-extended immediate. -/
  | xori (m : Marks) (d a : SReg) (imm : BitVec 28)
  /-- SHLI, S 0x24 (R101): Shifts s[a] left by an immediate count. -/
  | shli (m : Marks) (d a : SReg) (sh : BitVec 6)
  /-- SHRI, S 0x25 (R101): Shifts s[a] right logically by an immediate count. -/
  | shri (m : Marks) (d a : SReg) (sh : BitVec 6)
  /-- SHAI, S 0x26 (R101): Shifts s[a] right arithmetically by an immediate count. -/
  | shai (m : Marks) (d a : SReg) (sh : BitVec 6)
  /-- SLTI, S 0x27 (R101): Writes 1 if s[a] is below the immediate, signed. -/
  | slti (m : Marks) (d a : SReg) (imm : BitVec 28)
  /-- SLTNI, S 0x28 (R101): Writes 1 if s[a] is below the immediate, unsigned. -/
  | sltni (m : Marks) (d a : SReg) (imm : BitVec 28)
  /-- LI, S 0x29 (R101): Loads the sign-extended 28-bit immediate into d. -/
  | li (m : Marks) (d : SReg) (imm : BitVec 28)
  /-- LIH, S 0x2A (R101): Places the immediate in bits 55:28 above s[a][27:0]. -/
  | lih (m : Marks) (d a : SReg) (imm : BitVec 28)
  /-- MULI, S 0x2B (R101): Multiplies s[a] by the sign-extended immediate. -/
  | muli (m : Marks) (d a : SReg) (imm : BitVec 28)
  /-- EXTR, S 0x2C (R101): Extracts a bit field of s[a], zero- or sign-extended. -/
  | extr (m : Marks) (d a : SReg) (pos wm1 : BitVec 6) (sx : Bool)
  /-- INSR, S 0x2D (R101): Inserts the low bits of s[a] into a field of s[d]. -/
  | insr (m : Marks) (d a : SReg) (pos wm1 : BitVec 6)
  /-- LD, S 0x30 (R103): Loads 1 to 8 bytes from the effective address into d within the latency bound, with issue-time faults and paged faults. -/
  | ld (m : Marks) (o : MoOp)
  /-- LDS, S 0x31 (R143): Speculative load that lands a poisoned effective address instead of trapping or requesting a page. -/
  | lds (m : Marks) (o : MoOp)
  /-- ST, S 0x32 (R103): Stores 1 to 8 bytes of s[d] to the effective address, carrying poison markers. -/
  | st (m : Marks) (d base : SReg) (size : BitVec 2) (off : BitVec 21)
  /-- CHK, S 0x33 (R144): Traps with poison consumed if s[a] is poisoned, otherwise does nothing. -/
  | chk (m : Marks) (a : SReg)
  /-- PREF, S 0x34 (R103): Prefetches a line into the L1 or MSC without faulting. -/
  | pref (m : Marks) (hint : BitVec 6) (base : SReg) (off : BitVec 21)
  /-- AMO, S 0x35 (R106): Performs an atomic read-modify-write at the resolved placement and lands the old value. -/
  | amo (m : Marks) (d base src : SReg) (lat op : BitVec 4) (scope : BitVec 3) (place size : BitVec 2)
  /-- CAS, S 0x36 (R106): Compares and swaps at the resolved placement and lands the old value. -/
  | cas (m : Marks) (d base src src2 : SReg) (lat : BitVec 4) (scope : BitVec 3) (place size : BitVec 2)
  /-- FENCE, S 0x37 (R108): Blocks until every earlier S access has landed or been performed. -/
  | fence (m : Marks)
  /-- FENCE_JOB, S 0x37 (R108): FENCE that also waits for every issued V, C and M operation. -/
  | fenceJob (m : Marks)
  /-- PHASE, S 0x38 (R108): Publishes at the level's scope, arrives at the domain barrier, and acquires when all members arrive. -/
  | phase (m : Marks) (scope : BitVec 3)
  /-- PUB, S 0x39 (R108): Writes back every dirty L1 byte to home and waits for acknowledgement. -/
  | pub (m : Marks) (scope : BitVec 3)
  /-- ACQ, S 0x3A (R108): Invalidates clean L1 bytes homed outside the core and sets the acquire stamp for wide scopes. -/
  | acq (m : Marks) (scope : BitVec 3)
  /-- IFENCE, S 0x3B (R108): Discards S words fetched beyond it after earlier IINVs complete. -/
  | ifence (m : Marks)
  /-- CWB, S 0x3C (R108): Starts write-back of the dirty bytes of a range. -/
  | cwb (m : Marks) (base src : SReg)
  /-- CINV, S 0x3D (R108): Invalidates the clean L1 bytes of a range and sets the acquire stamp. -/
  | cinv (m : Marks) (base src : SReg)
  /-- CINV_DISCARD, S 0x3D (R169): Invalidates every byte of a range, dropping dirty bytes without write-back. -/
  | cinvDiscard (m : Marks) (base src : SReg)
  /-- IINV, S 0x3E (R108): Invalidates every instruction-cache line overlapping a range. -/
  | iinv (m : Marks) (base src : SReg)
  /-- BEQ, S 0x40 (R130): Branch if equal, scheduling the target behind two delay slots. -/
  | beq (m : Marks) (a b : SReg) (nul zero : Bool) (disp : BitVec 26)
  /-- BNE, S 0x41 (R130): Branch if not equal. -/
  | bne (m : Marks) (a b : SReg) (nul zero : Bool) (disp : BitVec 26)
  /-- BLT, S 0x42 (R130): Branch if less, signed. -/
  | blt (m : Marks) (a b : SReg) (nul zero : Bool) (disp : BitVec 26)
  /-- BGE, S 0x43 (R130): Branch if greater or equal, signed. -/
  | bge (m : Marks) (a b : SReg) (nul zero : Bool) (disp : BitVec 26)
  /-- BLTN, S 0x44 (R130): Branch if less, unsigned. -/
  | bltn (m : Marks) (a b : SReg) (nul zero : Bool) (disp : BitVec 26)
  /-- BGEN, S 0x45 (R130): Branch if greater or equal, unsigned. -/
  | bgen (m : Marks) (a b : SReg) (nul zero : Bool) (disp : BitVec 26)
  /-- BPS, S 0x46 (R130): Branch if predicate set. -/
  | bps (m : Marks) (p : BitVec 3) (nul : Bool) (disp : BitVec 26)
  /-- BPC, S 0x47 (R130): Branch if predicate clear. -/
  | bpc (m : Marks) (p : BitVec 3) (nul : Bool) (disp : BitVec 26)
  /-- J, S 0x48 (R130): Unconditional PC-relative jump. -/
  | j (m : Marks) (disp : BitVec 34)
  /-- JL, S 0x49 (R131): PC-relative jump writing a link. -/
  | jl (m : Marks) (link : SReg) (disp : BitVec 34)
  /-- JR, S 0x4A (R131): Jump to the address in s[a]. -/
  | jr (m : Marks) (a : SReg)
  /-- JLR, S 0x4B (R131): Jump to s[a] writing a link to d. -/
  | jlr (m : Marks) (d a : SReg)
  /-- LOOP, S 0x4C (R138): Runs a software-pipelined S hardware loop over the following body. -/
  | loop (m : Marks) (a : SReg) (stages : BitVec 3) (seglen : BitVec 14)
  /-- LBRK, S 0x4D (R140): Stops stage 0 of the active S loop from the next pass and sets its exit target. -/
  | lbrk (m : Marks) (a b : SReg) (zero : Bool) (disp : BitVec 26)
  /-- SETP, S 0x4E (R136): Writes a predicate from a comparison. -/
  | setp (m : Marks) (p : BitVec 3) (a b : SReg) (cond : BitVec 3)
  /-- PUSH, S 0x50 (R111): Writes s[a] into the named engine's ring, stalling while it is full. -/
  | push (m : Marks) (e : Engine) (a : SReg)
  /-- WAITF, S 0x51 (R112): Waits until a run-time flag reaches a count, consumes it unless peek, and lands the old value. -/
  | waitf (m : Marks) (d a b : SReg) (peek : Bool)
  /-- SIGF, S 0x52 (R114): Sends one remote flag increment to a target bank. -/
  | sigf (m : Marks) (a : SReg)
  /-- RDF, S 0x53 (R113): Reads a flag's visible value without changing it. -/
  | rdf (m : Marks) (d a : SReg)
  /-- RDQ, S 0x54 (R115): Reads one 64-bit word of a queue head, optionally popping it. -/
  | rdq (m : Marks) (d : SReg) (q : BitVec 5) (b : SReg) (pop : Bool)
  /-- START, S 0x55 (R116): Re-points an idle ring engine's pointers so it runs words already in its ring. -/
  | start (m : Marks) (e : Engine) (a : SReg)
  /-- RENDEZ, S 0x56 (R29): Closes the rings and waits at the rendezvous for job retirement. -/
  | rendez (m : Marks)
  /-- END, S 0x57 (R117): Stops the job early, discarding unissued engine words, and retires it with an exit code. -/
  | endJob (m : Marks) (a : SReg)
  /-- LAUNCH, S 0x58 (R118): Submits a launch record to Zenith and lands its status word. -/
  | launch (m : Marks) (d a : SReg)
  /-- YIELD, S 0x59 (R119): Yields to a waiting launch of equal or higher priority, or returns 0. -/
  | yield (m : Marks) (d : SReg)
  /-- MBOX, S 0x5A (R316): Places a message in the cluster mailbox, stalling while it is full. -/
  | mbox (m : Marks) (a : SReg)
  /-- MBRD, S 0x5B (R317): Reads a mailbox entry of the reader's launch on the master core. -/
  | mbrd (m : Marks) (d : SReg) (mode : BitVec 2)
  /-- TRAP, S 0x60 (R156): Takes the software trap with the immediate as TVAL. -/
  | trap (m : Marks) (imm : BitVec 28)
  /-- TRET, S 0x61 (R157): Restores the trap state and pending targets and resumes at EPC, or ends a fatal job. -/
  | tret (m : Marks)
  /-- GETC, S 0x62 (R122): Reads a control word by selector. -/
  | getc (m : Marks) (d : SReg) (cw : BitVec 12)
  /-- SETC, S 0x63 (R122): Writes a control word under its field access codes and checks. -/
  | setc (m : Marks) (a : SReg) (cw : BitVec 12)
  /-- SETB, S 0x64 (R122): ORs bits into a control word. -/
  | setb (m : Marks) (a : SReg) (cw : BitVec 12)
  /-- CLRB, S 0x65 (R122): Clears bits of a control word. -/
  | clrb (m : Marks) (a : SReg) (cw : BitVec 12)
  /-- EVT, S 0x66 (R128): Sends an event word to the distributor agent. -/
  | evt (m : Marks) (a : SReg) (cls : BitVec 4)
  /-- PARK, S 0x67 (R129): Yields the core to the partner bank until a flag reaches 1. -/
  | park (m : Marks) (f : BitVec 6)
  /-- FPOST, S 0x70 (R459): Checks and queues a collective command in the cluster's collective engine. -/
  | fpost (m : Marks) (d a : SReg)
  /-- FTIME, S 0x71 (R438): Reads fabric time. -/
  | ftime (m : Marks) (d : SReg)
  /-- FTIME_UNTIL, S 0x71 (R438): Blocks until fabric time reaches a target and lands that time. -/
  | ftimeUntil (m : Marks) (d a : SReg)
  /-- FTHR, S 0x72 (R447): Reads the router throttle level and deflection rate. -/
  | fthr (m : Marks) (d : SReg)
  /-- RGRP, S 0x73 (R456): Installs or removes a reduce group for the launch on the die. -/
  | rgrp (m : Marks) (a b : SReg)
  /-- RSHRD, S 0x74 (R413): Joins a launch-wide re-shard between block and head placement. -/
  | rshrd (m : Marks) (a b c : SReg)
  /-- LAYSEL, S 0x75 (R405): Activates or deactivates a layout on every die of the launch. -/
  | laysel (m : Marks) (a : SReg)
  /-- RASAVE, S 0x76 (R449): Saves the bank's reassembly entries to an image. -/
  | rasave (m : Marks) (a : SReg)
  /-- RALOAD, S 0x77 (R449): Reinstates reassembly entries from an image. -/
  | raload (m : Marks) (a : SReg)
  /-- VNOP, V 0x00 (R24): V pure synchronisation word. -/
  | vnop (m : Marks)
  /-- VADD, V 0x01 (R189): Element-wise floating-point add. -/
  | vadd (m : Marks) (f : VOp)
  /-- VSUB, V 0x02 (R189): Element-wise floating-point subtract. -/
  | vsub (m : Marks) (f : VOp)
  /-- VMUL, V 0x03 (R189): Element-wise floating-point multiply. -/
  | vmul (m : Marks) (f : VOp)
  /-- VFMA, V 0x04 (R189): Fused a*b+c. -/
  | vfma (m : Marks) (f : VOp)
  /-- VFMS, V 0x05 (R189): Fused a*b-c. -/
  | vfms (m : Marks) (f : VOp)
  /-- VFNMA, V 0x06 (R189): Fused -(a*b)+c. -/
  | vfnma (m : Marks) (f : VOp)
  /-- VMIN, V 0x07 (R190): Element-wise floating-point minimum. -/
  | vmin (m : Marks) (f : VOp)
  /-- VMAX, V 0x08 (R190): Element-wise floating-point maximum. -/
  | vmax (m : Marks) (f : VOp)
  /-- VABS, V 0x09 (R190): Clears the sign bit of each element. -/
  | vabs (m : Marks) (f : VOp)
  /-- VNEG, V 0x0A (R190): Inverts the sign bit of each element. -/
  | vneg (m : Marks) (f : VOp)
  /-- VCMP, V 0x0B (R192): Floating-point compare writing a mask register. -/
  | vcmp (m : Marks) (f : VOp)
  /-- VSEL, V 0x0C (R193): Selects elements from two sources by a mask. -/
  | vsel (m : Marks) (f : VOp)
  /-- VEXP2, V 0x10 (R194): Element-wise base-2 exponential. -/
  | vexp2 (m : Marks) (f : VOp)
  /-- VLOG2, V 0x11 (R194): Element-wise base-2 logarithm. -/
  | vlog2 (m : Marks) (f : VOp)
  /-- VRCP, V 0x12 (R194): Element-wise reciprocal. -/
  | vrcp (m : Marks) (f : VOp)
  /-- VRSQ, V 0x13 (R194): Element-wise reciprocal square root. -/
  | vrsq (m : Marks) (f : VOp)
  /-- VSQRT, V 0x14 (R194): Element-wise square root. -/
  | vsqrt (m : Marks) (f : VOp)
  /-- VSIN, V 0x15 (R194): Element-wise sine. -/
  | vsin (m : Marks) (f : VOp)
  /-- VCOS, V 0x16 (R194): Element-wise cosine. -/
  | vcos (m : Marks) (f : VOp)
  /-- VTANH, V 0x17 (R194): Element-wise hyperbolic tangent. -/
  | vtanh (m : Marks) (f : VOp)
  /-- VSIGM, V 0x18 (R194): Element-wise logistic sigmoid. -/
  | vsigm (m : Marks) (f : VOp)
  /-- VCVT, V 0x20 (R195): Converts elements between formats, one part at a time. -/
  | vcvt (m : Marks) (f : VOp)
  /-- VQMX, V 0x21 (R197): Quantises to MX blocks, pushing elements and scales. -/
  | vqmx (m : Marks) (f : VOp)
  /-- VDQMX, V 0x22 (R198): Expands MX blocks to a floating-point format. -/
  | vdqmx (m : Marks) (f : VOp)
  /-- VQGI, V 0x23 (R199): Quantises groups of 32 to integers with BF16 scales. -/
  | vqgi (m : Marks) (f : VOp)
  /-- VSCL, V 0x24 (R196): Scales elements by a power of two. -/
  | vscl (m : Marks) (f : VOp)
  /-- VPACK, V 0x25 (R200): Packs INT8 elements into INT4 or INT3. -/
  | vpack (m : Marks) (f : VOp)
  /-- VUNPK, V 0x26 (R200): Unpacks INT4 or INT3 elements to INT8. -/
  | vunpk (m : Marks) (f : VOp)
  /-- VIADD, V 0x30 (R201): Element-wise integer add, wrapping or saturating. -/
  | viadd (m : Marks) (f : VOp)
  /-- VISUB, V 0x31 (R201): Element-wise integer subtract. -/
  | visub (m : Marks) (f : VOp)
  /-- VIMUL, V 0x32 (R201): Element-wise integer multiply, low or high half. -/
  | vimul (m : Marks) (f : VOp)
  /-- VIMAD, V 0x33 (R201): Element-wise integer multiply-add. -/
  | vimad (m : Marks) (f : VOp)
  /-- VAND, V 0x34 (R201): Bitwise AND of registers. -/
  | vand (m : Marks) (f : VOp)
  /-- VOR, V 0x35 (R201): Bitwise OR of registers. -/
  | vor (m : Marks) (f : VOp)
  /-- VXOR, V 0x36 (R201): Bitwise XOR of registers. -/
  | vxor (m : Marks) (f : VOp)
  /-- VSHL, V 0x37 (R202): Element-wise shift left by register or immediate. -/
  | vshl (m : Marks) (f : VOp)
  /-- VSHR, V 0x38 (R202): Element-wise logical shift right. -/
  | vshr (m : Marks) (f : VOp)
  /-- VSHA, V 0x39 (R202): Element-wise arithmetic shift right. -/
  | vsha (m : Marks) (f : VOp)
  /-- VIMIN, V 0x3A (R201): Element-wise integer minimum. -/
  | vimin (m : Marks) (f : VOp)
  /-- VIMAX, V 0x3B (R201): Element-wise integer maximum. -/
  | vimax (m : Marks) (f : VOp)
  /-- VICMP, V 0x3C (R192): Integer compare writing a mask register. -/
  | vicmp (m : Marks) (f : VOp)
  /-- VIOTA, V 0x3D (R202): Writes base plus lane index to each element. -/
  | viota (m : Marks) (f : VOp)
  /-- VPOPC, V 0x3E (R202): Writes the population count of each element. -/
  | vpopc (m : Marks) (f : VOp)
  /-- VRED, V 0x40 (R205): Reduces the lanes through the fixed pairwise tree. -/
  | vred (m : Marks) (f : VOp)
  /-- VSCAN, V 0x41 (R205): Computes inclusive prefixes through the fixed doubling network. -/
  | vscan (m : Marks) (f : VOp)
  /-- VPERM, V 0x42 (R203): Permutes elements of two sources by an index register. -/
  | vperm (m : Marks) (f : VOp)
  /-- VSLIDE, V 0x43 (R203): Slides the concatenation of two sources by n elements. -/
  | vslide (m : Marks) (f : VOp)
  /-- VBCST, V 0x44 (R203): Broadcasts one element to all lanes. -/
  | vbcst (m : Marks) (f : VOp)
  /-- VMOVI, V 0x45 (R204): Fills a register with a 32-bit immediate. -/
  | vmovi (m : Marks) (vd : BitVec 5) (imm : BitVec 32)
  /-- VMOV, V 0x46 (R203): Copies a register under the mask. -/
  | vmov (m : Marks) (f : VOp)
  /-- VZIP, V 0x47 (R203): Interleaves halves of two sources. -/
  | vzip (m : Marks) (f : VOp)
  /-- VUZP, V 0x48 (R203): De-interleaves two sources. -/
  | vuzp (m : Marks) (f : VOp)
  /-- VTRN, V 0x49 (R203): Transposes element pairs of two sources. -/
  | vtrn (m : Marks) (f : VOp)
  /-- VLD, V 0x50 (R207): Loads 256 bytes from memory into a queue register. -/
  | vld (m : Marks) (f : VMemOp)
  /-- VST, V 0x51 (R207): Stores 256 bytes from a queue register to memory. -/
  | vst (m : Marks) (f : VMemOp)
  /-- VGATH, V 0x52 (R208): Gathers 64 four-byte elements by index. -/
  | vgath (m : Marks) (f : VGatOp)
  /-- VSCAT, V 0x53 (R208): Scatters 64 four-byte elements by index. -/
  | vscat (m : Marks) (f : VGatOp)
  /-- VQCFG, V 0x54 (R210): Sets the depth of an empty, unbound queue. -/
  | vqcfg (m : Marks) (vd : BitVec 5) (depth : BitVec 3)
  /-- VDROP, V 0x55 (R211): Empties a queue once no slot is reserved. -/
  | vdrop (m : Marks) (vd : BitVec 5)
  /-- VROPE, V 0x60 (R212): Applies rotary position encoding to token rows. -/
  | vrope (m : Marks) (f : VOp)
  /-- VSMX_STEP, V 0x61 (R213): Online softmax step updating state and pushing probabilities. -/
  | vsmxStep (m : Marks) (f : VOp)
  /-- VSMX_NORM, V 0x61 (R213): Divides an accumulator by the state's l. -/
  | vsmxNorm (m : Marks) (f : VOp)
  /-- VSMX_SCALE, V 0x61 (R213): Multiplies an accumulator by the state's alpha. -/
  | vsmxScale (m : Marks) (f : VOp)
  /-- VDWC, V 0x62 (R214): One-dimensional dilated convolution across lanes. -/
  | vdwc (m : Marks) (f : VOp)
  /-- VKST, V 0x63 (R307): Stores key and value rows at home and appends their tokens to the Cirrus buckets. -/
  | vkst (m : Marks) (f : VOp)
  /-- VZCMP, V 0x64 (R215): Packs non-zero active elements and writes a mask. -/
  | vzcmp (m : Marks) (f : VOp)
  /-- VZEXP, V 0x65 (R215): Expands packed elements to the active lanes of a mask. -/
  | vzexp (m : Marks) (f : VOp)
  /-- VMASKP, V 0x66 (R216): Writes a position-window mask. -/
  | vmaskp (m : Marks) (f : VOp)
  /-- VWELF, V 0x67 (R217): One lane-wise Welford step for mean or second moment. -/
  | vwelf (m : Marks) (f : VOp)
  /-- VLOOP, V 0x70 (R219): Runs a V hardware loop over the body up to VEND. -/
  | vloop (m : Marks) (stages : BitVec 3) (count : BitVec 24)
  /-- VLBRK, V 0x71 (R221): Ends stage 0 of the V loop when a flag is at least 1. -/
  | vlbrk (m : Marks) (f : BitVec 6)
  /-- VEND, V 0x72 (R218): Marks the end of a V loop body. -/
  | vend (m : Marks)
  /-- CNOP, C 0x00 (R24): C pure synchronisation word. -/
  | cnop (m : Marks)
  /-- CMAP, C 0x01 (R234): Loads a tensor map register from the scratchpad after validation. -/
  | cmap (m : Marks) (gA : BitVec 4) (addr : BitVec 13)
  /-- CMAP_ST, C 0x01 (R234): Stores a tensor map register, with its cursor, to the scratchpad. -/
  | cmapSt (m : Marks) (gA : BitVec 4) (addr : BitVec 13)
  /-- CSTEP, C 0x02 (R235): Adds a delta to one cursor dimension of a map. -/
  | cstep (m : Marks) (gA : BitVec 4) (dim : BitVec 2) (delta : BitVec 24)
  /-- CSTEP_ODO, C 0x02 (R235): Advances a map's cursor like an odometer. -/
  | cstepOdo (m : Marks) (gA : BitVec 4)
  /-- CCOPY, C 0x03 (R236): Copies the box of one map into the box of another, optionally releasing a frame. -/
  | ccopy (m : Marks) (gS gD : BitVec 4) (a1 a2 lr : Bool)
  /-- CFILL, C 0x04 (R237): Fills the box of a map with a pattern. -/
  | cfill (m : Marks) (gD : BitVec 4) (imm : BitVec 16) (a : Bool)
  /-- CBIND, C 0x05 (R241): Binds a map as the producer stream of a queue. -/
  | cbind (m : Marks) (gS : BitVec 4) (q : BitVec 5) (count : BitVec 24)
  /-- CSINK, C 0x06 (R241): Binds a map as the consumer sink of a queue. -/
  | csink (m : Marks) (gD : BitVec 4) (q : BitVec 5) (count : BitVec 24)
  /-- CUNB, C 0x07 (R242): Ends the producer and/or consumer binding of a queue. -/
  | cunb (m : Marks) (q : BitVec 5) (p c : Bool)
  /-- CPEER_TX, C 0x08 (R243): Links a queue as sender to a peer core's queue. -/
  | cpeerTx (m : Marks) (q : BitVec 5) (core : BitVec 6) (bank : Bool) (vP : BitVec 5)
  /-- CPEER_RX, C 0x08 (R243): Links a queue as receiver from a peer core's queue. -/
  | cpeerRx (m : Marks) (q : BitVec 5) (core : BitVec 6) (bank : Bool) (vP : BitVec 5)
  /-- CZC, C 0x09 (R238): Recomputes the zero bitmap bits of a zero-compressed box. -/
  | czc (m : Marks) (gA : BitVec 4) (a : Bool)
  /-- CGATH, C 0x0A (R239): Gathers rows selected by queue indices. -/
  | cgath (m : Marks) (gS gD : BitVec 4) (q : BitVec 5) (nm1 : BitVec 6)
  /-- CSCAT, C 0x0B (R239): Scatters rows to positions selected by queue indices. -/
  | cscat (m : Marks) (gS gD : BitVec 4) (q : BitVec 5) (nm1 : BitVec 6)
  /-- CUSE, C 0x0C (R240): Sets the use count and dead mark of present MSC lines of a box. -/
  | cuse (m : Marks) (gA count : BitVec 4) (dead : Bool)
  /-- CPREF, C 0x0D (R240): Prefetches a box into the home MSC and optionally the L1. -/
  | cpref (m : Marks) (gA : BitVec 4) (l1 a : Bool)
  /-- CSEQ_LD, C 0x10 (R246): Loads a sequence descriptor into a slot after checks. -/
  | cseqLd (m : Marks) (k : BitVec 2) (addr : BitVec 13)
  /-- CSEQ_ST, C 0x10 (R246): Stores a sequence slot to the scratchpad. -/
  | cseqSt (m : Marks) (k : BitVec 2) (addr : BitVec 13)
  /-- CSEQ_ROPE, C 0x10 (R246): Pushes the rope table in effect for a position into a queue. -/
  | cseqRope (m : Marks) (gA : BitVec 4) (q : BitVec 5) (k : BitVec 2)
  /-- CKV, C 0x11 (R247): Resolves a position through block, overlay and parent tables into a page map. -/
  | ckv (m : Marks) (gA gB : BitVec 4) (k : BitVec 2)
  /-- CKREL_PAGE, C 0x12 (R250): Releases the frame of a page map. -/
  | ckrelPage (m : Marks) (gA : BitVec 4)
  /-- CKREL_WIN, C 0x12 (R250): Releases pages that have fallen below the sliding window. -/
  | ckrelWin (m : Marks) (k : BitVec 2)
  /-- CKREL_TRUNC, C 0x12 (R250): Truncates a sequence and releases its pages beyond the new length. -/
  | ckrelTrunc (m : Marks) (q : BitVec 5) (k : BitVec 2)
  /-- CKCFG_LD, C 0x13 (R310): Installs a Cirrus head slot from a head record and projection matrix. -/
  | ckcfgLd (m : Marks) (k : BitVec 5) (addr : BitVec 13)
  /-- CKCFG_CLR, C 0x13 (R310): Invalidates a Cirrus head slot. -/
  | ckcfgClr (m : Marks) (k : BitVec 5)
  /-- CKGATH, C 0x14 (R311): Gathers candidate key and value rows for a query from four buckets, or falls back. -/
  | ckgath (m : Marks) (gP : BitVec 4) (q vV vK k : BitVec 5) (a : Bool)
  /-- CNBR, C 0x18 (R300): Reduces a queue stream into shared memory at the bank ALUs. -/
  | cnbr (m : Marks) (gD : BitVec 4) (q : BitVec 5) (op : BitVec 2) (a : Bool) (rm : RMode) (sat : Bool)
  /-- CNBU, C 0x19 (R301): Applies a*x+b in place in shared memory at the bank ALUs. -/
  | cnbu (m : Marks) (gD : BitVec 4) (q : BitVec 5) (a vec : Bool) (rm : RMode)
  /-- CHALO, C 0x20 (R409): Sends the masked faces of a block to the layout neighbours' halo buffers. -/
  | chalo (m : Marks) (gA gB : BitVec 4) (mask f : BitVec 6) (dil : BitVec 8)
  /-- CMSG, C 0x21 (R453): Sends the box of a map as one message packet. -/
  | cmsg (m : Marks) (gA : BitVec 4) (die : BitVec 14) (core : BitVec 6) (bank : Bool) (port : BitVec 3)
  /-- CLOOP, C 0x30 (R253): Runs a C hardware loop. -/
  | cloop (m : Marks) (stages : BitVec 3) (count : BitVec 24)
  /-- CLBRK, C 0x31 (R253): Ends stage 0 of the C loop when a flag is at least 1. -/
  | clbrk (m : Marks) (f : BitVec 6)
  /-- CEND, C 0x32 (R252): Marks the end of a C loop body. -/
  | cend (m : Marks)
  /-- MNOP, M 0x00 (R24): M pure synchronisation word. -/
  | mnop (m : Marks)
  /-- MLEASE, M 0x01 (R284): Requests a lease on the cluster's matrix array. -/
  | mlease (m : Marks)
  /-- MREL, M 0x02 (R284): Ends the bank's lease after its array commands complete. -/
  | mrel (m : Marks)
  /-- MFMT, M 0x03 (R285): Loads the 16 format-table entries after checks. -/
  | mfmt (m : Marks) (g : BitVec 4)
  /-- MBLD, M 0x04 (R287): Copies a box into a B-store slot and bumps its generation. -/
  | mbld (m : Marks) (g : BitVec 4) (slot : BitVec 7) (off : BitVec 8)
  /-- MBSEL, M 0x05 (R288): Loads a slot into the idle stationary plane. -/
  | mbsel (m : Marks) (slot : BitVec 7)
  /-- MMA, M 0x06 (R289): Streams A rows through the stationary B tile and accumulates into a tile under a profile. -/
  | mma (m : Marks) (tile : BitVec 2) (asrc : BitVec 4) (aq : Bool) (slot : BitVec 7) (prof : BitVec 3) (fidx : BitVec 4) (rows row0 : BitVec 8) (z a : Bool)
  /-- MZERO, M 0x07 (R291): Writes +0 into tile rows. -/
  | mzero (m : Marks) (tile : BitVec 2) (rows row0 : BitVec 8)
  /-- MDRAIN, M 0x08 (R292): Converts tile rows to FP32, BF16 or MX and writes them to a map or queue. -/
  | mdrain (m : Marks) (tile : BitVec 2) (asrc : BitVec 4) (aq : Bool) (gs : BitVec 4) (rm : RMode) (ot : EType) (rows row0 : BitVec 8) (clr a : Bool)
  /-- MSCALE, M 0x09 (R286): Writes rows of the A-scale buffer. -/
  | mscale (m : Marks) (g : BitVec 4) (rows : BitVec 8)
  /-- MLOOP, M 0x10 (R294): Runs an M hardware loop. -/
  | mloop (m : Marks) (stages : BitVec 3) (count : BitVec 24)
  /-- MLBRK, M 0x11 (R294): Ends stage 0 of the M loop when a flag is at least 1. -/
  | mlbrk (m : Marks) (f : BitVec 6)
  /-- MEND, M 0x12 (R293): Marks the end of an M loop body. -/
  | mend (m : Marks)
  /-- FLAG_UNIT_CYCLE: R20: the flag unit of bank b applies the increments due. -/
  | flagUnitCycle (b : Nat)
  /-- REMOTE_INCREMENT: R22: the k-th remote increment in transit arrives. -/
  | remoteIncrement (k : Nat)
  /-- S_RESULT_LAND: R92: pending result id of bank b lands. -/
  | sResultLand (b : Nat) (id : Nat)
  /-- WORD_COMPLETION: R18: operation id of bank b completes. -/
  | wordCompletion (b : Nat) (id : Nat)
  /-- RING_FETCH: R26: an issue point of a ring engine fetches a word ahead. -/
  | ringFetch (b : Nat) (p : Point)
  /-- S_FETCH: R148: S fetches the word at its program counter ahead. -/
  | sFetch (b : Nat)
  /-- JOB_START: R378: the sequencer starts the job placed on bank b. -/
  | jobStart (b : Nat)
  /-- JOB_RETIRE: R30: the job of bank b retires. -/
  | jobRetire (b : Nat)
  /-- PHASE_BARRIER_COMPLETE: R33: the PHASE at which bank b waits has all its members. -/
  | phaseBarrierComplete (b : Nat)
  /-- WAITF_COMPLETE: R112: the waiting WAITF of bank b is evaluated. -/
  | waitfComplete (b : Nat)
  /-- PARK_WAKE: R129: the waiting PARK of bank b is evaluated. -/
  | parkWake (b : Nat)
  /-- WATCHDOG_EXPIRY: R127: the watchdog of bank b is judged. -/
  | watchdogExpiry (b : Nat)
  /-- TRAP_ENTRY: R147: a request or held trap of bank b is taken at its word boundary. -/
  | trapEntry (b : Nat)
  /-- COMPOSITE_RECORD_WRITE: R390: the freeze of bank b ends in its record and trap. -/
  | compositeRecordWrite (b : Nat)
  /-- PREEMPTION_LANDING: R142: a pre-emption request lands on bank b. -/
  | preemptionLanding (b : Nat)
  /-- PREEMPT_SAVE: R387: bank b is published, saved and freed. -/
  | preemptSave (b : Nat)
  /-- LAUNCH_RESUME: R389: a pre-empted launch resumes. -/
  | launchResume (pkg : Nat) (seq : Nat)
  /-- TRANSLATION_REQUEST: R335: a paged access of bank b is translated. -/
  | translationRequest (b : Nat) (va : W64) (wr : Bool)
  /-- PAGE_ANSWER_GRANT: R394: the host grants a page request. -/
  | pageAnswerGrant (die : Nat) (rqn : Nat) (tag : BitVec 16)
  /-- PAGE_ANSWER_DENY: R98: the host denies a page request. -/
  | pageAnswerDeny (die : Nat) (rqn : Nat) (tag : BitVec 16)
  /-- PAGE_REQUEST_TIMEOUT: R394: a page request has waited past its limit. -/
  | pageRequestTimeout (die : Nat) (rqn : Nat)
  /-- HOST_LAUNCH_WRITE: R374: the host submits a launch record. -/
  | hostLaunchWrite (pkg : Nat) (rec : BitVec 512)
  /-- LAUNCH_ISSUE: R380: Zenith issues a launch that is ready. -/
  | launchIssue (pkg : Nat)
  /-- LAUNCH_AGING: R381: the head of a level has waited its aging period. -/
  | launchAging (pkg : Nat) (level : Nat)
  /-- AGENT_FREE_REPORT: R382: the agent of a die reports its free counts. -/
  | agentFreeReport (die : Nat)
  /-- LAUNCH_END: R379: Zenith writes the status record of a launch. -/
  | launchEnd (pkg : Nat) (seq : Nat)
  /-- ZKILL: R396: a write to ZKILL. -/
  | zkill (pkg : Nat) (seq : BitVec 32)
  /-- ZPRE: R386: a write to ZPRE. -/
  | zpre (pkg : Nat) (seq : BitVec 32)
  /-- SHOOTDOWN_GO: R395: a write to SDCTL with GO. -/
  | shootdownGo (die : Nat) (v : W64)
  /-- SHOOTDOWN_DONE: R395: the acknowledgements of a shoot-down have arrived. -/
  | shootdownDone (die : Nat)
  /-- JSCTL_SWAP: R348: a write of 1 to JSCTL.SWAP. -/
  | jsctlSwap (die : Nat)
  /-- JSTAB_INSTALL: R348: a pending swap meets its boundary. -/
  | jstabInstall (die : Nat)
  /-- REPLICA_DROP_DONE: R345: every replica has been dropped. -/
  | replicaDropDone (die : Nat)
  /-- PATROL_SCRUB: R350: the scrubber reads the HBM word at off. -/
  | patrolScrub (die : Nat) (off : Nat)
  /-- RSDATA_ACCESS: R412: a read or write of RSDATA. -/
  | rsdataAccess (die : Nat) (wr : Bool) (v : W64)
  /-- CONTROL_REGISTER_WRITE: R7: a write to a control-space register. -/
  | controlRegisterWrite (die : Nat) (off : Nat) (v : W64)
  /-- MSC_READ: R337: a slice reads n bytes. -/
  | mscRead (die : Nat) (off : Nat) (n : Nat) (use : BitVec 4) (dead : Bool)
  /-- MSC_MASKED_WRITE: R337: a slice performs a byte-masked write. -/
  | mscMaskedWrite (die : Nat) (off : Nat) (data : BitVec 512) (mask : BitVec 64)
  /-- MSC_BANK_ALU_OP: R337: a bank ALU performs one operation. -/
  | mscBankAluOp (die : Nat) (off : Nat) (op : BitVec 4) (size : BitVec 2) (x : W64)
  /-- CIRRUS_APPEND: R306: the k-th waiting append of a cluster is performed. -/
  | cirrusAppend (cl : Nat) (k : Nat)
  /-- GATEWAY_READ: R344: a remote read of bank b through its gateway. -/
  | gatewayRead (b : Nat) (addr : Nat) (n : Nat)
  /-- HOST_MEM_READ: R419: a host read at an HDM offset (range 1 from 2^39). -/
  | hostMemRead (pkg : Nat) (off : Nat) (n : Nat)
  /-- HOST_MEM_WRITE: R367: a host write at an HDM offset (range 1 from 2^39). -/
  | hostMemWrite (pkg : Nat) (off : Nat) (data : List Byte)
  /-- ARRAY_GRANT_PASS: R269: the array grant passes. -/
  | arrayGrantPass (cl : Nat)
  /-- PLANE_LOAD_COMPLETE: R266: a plane load ends. -/
  | planeLoadComplete (cl : Nat) (plane : Bool)
  /-- BOUND_STREAM_ELEMENT: R241: a bound stream moves one element. -/
  | boundStreamElement (b : Nat) (id : Nat)
  /-- PEER_LINK_FORM: R243: a peer link forms. -/
  | peerLinkForm (b : Nat) (id : Nat)
  /-- PEER_ELEMENT_FORWARD: R243: a sender's head element is forwarded. -/
  | peerElementForward (b : Nat) (id : Nat)
  /-- MAILBOX_ENTRY_VISIBLE: R318: a mailbox entry becomes visible. -/
  | mailboxEntryVisible (cl : Nat) (k : Nat)
  /-- LAYOUT_INSTALL: R405: Zenith installs the oldest LAYSEL. -/
  | layoutInstall (pkg : Nat)
  /-- HALO_DELIVERY: R409: the k-th halo face in transit arrives. -/
  | haloDelivery (k : Nat)
  /-- RESHARD_CHECK: R414: Zenith compares the re-shard reports. -/
  | reshardCheck (seq : Nat)
  /-- RESHARD_STEP: R414: a die runs its next re-shard step. -/
  | reshardStep (seq : Nat) (die : Nat)
  /-- RESHARD_SKEW: R414: a router reports skew. -/
  | reshardSkew (seq : Nat)
  /-- RESHARD_COMPLETE: R414: every row has been performed. -/
  | reshardComplete (seq : Nat)
  /-- FLIT_ARRIVAL: R443: the router of a die assigns its arriving flits. -/
  | flitArrival (die : Nat)
  /-- FLIT_HEADER_ERROR: R439: an uncorrectable header error. -/
  | flitHeaderError (src : Nat) (dst : Nat)
  /-- THROTTLE_WINDOW: R446: a router closes its throttle window. -/
  | throttleWindow (die : Nat)
  /-- FT_SYNC_LOST: R437: a die loses synchronisation. -/
  | ftSyncLost (die : Nat)
  /-- READ_REQUEST: R440: packet k, a read request, arrives. -/
  | readRequest (k : Nat)
  /-- READ_RESPONSE: R440: packet k, a read response, arrives. -/
  | readResponse (k : Nat)
  /-- MASKED_WRITE: R441: packet k, a masked write, is performed. -/
  | maskedWrite (k : Nat)
  /-- BANK_ALU_REQUEST: R440: packet k, a bank-ALU request, arrives. -/
  | bankAluRequest (k : Nat)
  /-- ACKNOWLEDGEMENT: R440: packet k, an acknowledgement, arrives. -/
  | acknowledgement (k : Nat)
  /-- ENTRY_REQUEST: R448: packet k, an entry request, arrives. -/
  | entryRequest (k : Nat)
  /-- ENTRY_GRANT: R448: packet k, an entry grant or refusal, arrives. -/
  | entryGrant (k : Nat)
  /-- ENTRY_REQUEST_RETRY: R448: the k-th refused entry request is sent again. -/
  | entryRequestRetry (k : Nat)
  /-- FLIT_EJECT: R448: the k-th ejected flit of a die fills its entry. -/
  | flitEject (die : Nat) (k : Nat)
  /-- MESSAGE: R454: packet k, a message, is delivered. -/
  | message (k : Nat)
  /-- BULK_WRITE: R440: packet k, a bulk write, is performed. -/
  | bulkWrite (k : Nat)
  /-- REDUCE_READ: R458: a die combines a line over a group. -/
  | reduceRead (die : Nat) (seq : Nat) (off : Nat)
  /-- COLLECTIVE_CONTROL: R462: packet k, a READY or NONE, arrives. -/
  | collectiveControl (k : Nat)
  /-- COLLECTIVE_START: R462: queued instance k of a master starts. -/
  | collectiveStart (cl : Nat) (k : Nat)
  /-- COLLECTIVE_RESULT: R462: instance k has its contributions. -/
  | collectiveResult (cl : Nat) (k : Nat)
  /-- COLLECTIVE_DEADLINE: R463: the deadline of instance k. -/
  | collectiveDeadline (cl : Nat) (k : Nat)
  /-- POWER_MANAGEMENT_TICK: R429: the controller's millisecond, with the power and temperature it reads. -/
  | powerManagementTick (pkg : Nat) (watts : Nat) (celsius : Nat)
  /-- THERMAL_SHUTDOWN: R428: the junction reaches 115 degrees. -/
  | thermalShutdown (pkg : Nat)
  /-- BRING_UP: R426: bring-up of a die. -/
  | bringUp (die : Nat)
  /-- FTIME_UNTIL_TARGET_REACHED: R438: a blocked FTIME.until is evaluated. -/
  | ftimeUntilTargetReached (b : Nat)
  /-- FT_SYNC_ACHIEVED: R437: a die is synchronised. -/
  | ftSyncAchieved (die : Nat)
  deriving DecidableEq, Repr

end Sys2Proof
end

