-- ==== Sys2Proof/Machine/Types.lean ====
section
/-! DEFINITION. Codes, widths and element counts of the type and rounding fields (R35, R41, R110), the S
control-word selectors that are assigned (R121 and the later control-word tables), and the operand fields
each V instruction uses (08_vector_isa.md, R185). -/

namespace Sys2Proof

/-- The 4-bit type code (R35). -/
def EType.code : EType → BitVec 4
  | .fp32 => 0x0 | .fp16 => 0x1 | .bf16 => 0x2 | .e4m3 => 0x3 | .e5m2 => 0x4 | .e2m1 => 0x5 | .i32 => 0x6
  | .n32 => 0x7 | .i16 => 0x8 | .i8 => 0x9 | .n8 => 0xA | .i4 => 0xB | .i3 => 0xC

/-- The type a code names; 0xD to 0xF are reserved (R35). -/
def EType.fromNat : Nat → Option EType
  | 0 => some .fp32 | 1 => some .fp16 | 2 => some .bf16 | 3 => some .e4m3 | 4 => some .e5m2 | 5 => some .e2m1
  | 6 => some .i32 | 7 => some .n32 | 8 => some .i16 | 9 => some .i8 | 10 => some .n8 | 11 => some .i4
  | 12 => some .i3 | _ => none

def EType.ofCode (c : BitVec 4) : Option EType := EType.fromNat c.toNat

/-- Element width in bits (R35). -/
def EType.width : EType → Nat
  | .fp32 | .i32 | .n32 => 32
  | .fp16 | .bf16 | .i16 => 16
  | .e4m3 | .e5m2 | .i8 | .n8 => 8
  | .e2m1 | .i4 => 4
  | .i3 => 3

/-- Elements of a 2,048-bit register (R35). -/
def EType.lanes : EType → Nat
  | .fp32 | .i32 | .n32 => 64
  | .fp16 | .bf16 | .i16 => 128
  | .e4m3 | .e5m2 | .i8 | .n8 => 256
  | .e2m1 | .i4 => 512
  | .i3 => 672

/-- FP of R185. -/
def EType.isFP : EType → Bool
  | .fp32 | .fp16 | .bf16 => true
  | _ => false

/-- INT of R185. -/
def EType.isINT : EType → Bool
  | .i32 | .n32 | .i16 | .i8 | .n8 => true
  | _ => false

/-- The two unsigned formats (R39). -/
def EType.isUnsigned : EType → Bool
  | .n32 | .n8 => true
  | _ => false

/-- Formats with a sign, exponent and fraction (R36). -/
def EType.isFloat : EType → Bool
  | .fp32 | .fp16 | .bf16 | .e4m3 | .e5m2 | .e2m1 => true
  | _ => false

/-- The element size in bytes that constrains BASE and strides (R225): 1 for the 4-bit types, 12 for .i3. -/
def EType.esize : EType → Nat
  | .fp32 | .i32 | .n32 => 4
  | .fp16 | .bf16 | .i16 => 2
  | .e4m3 | .e5m2 | .i8 | .n8 | .e2m1 | .i4 => 1
  | .i3 => 12

/-- The 3-bit rounding code (R41). -/
def RMode.code : RMode → BitVec 3
  | .rne => 0 | .rtz => 1 | .rdn => 2 | .rup => 3 | .rna => 4 | .sr => 5 | .rns => 6

/-- The mode a code names; 7 is reserved (R41). -/
def RMode.fromNat : Nat → Option RMode
  | 0 => some .rne | 1 => some .rtz | 2 => some .rdn | 3 => some .rup | 4 => some .rna | 5 => some .sr
  | 6 => some .rns | _ => none

def RMode.ofCode (c : BitVec 3) : Option RMode := RMode.fromNat c.toNat

/-- The engine code of PUSH and START (R110). -/
def Engine.code : Engine → BitVec 6
  | .v => 1 | .c => 2 | .m => 3

def Engine.fromNat : Nat → Option Engine
  | 1 => some .v | 2 => some .c | 3 => some .m | _ => none

def Engine.ofCode (c : BitVec 6) : Option Engine := Engine.fromNat c.toNat

/-- The position of an issue point in the fixed order of R20 and in the code of R21. -/
def Point.index : Point → Nat
  | .s => 0 | .va => 1 | .ve => 2 | .c => 3 | .m => 4

/-- The composite record's engine code (R26, R146): 0 S, 1 V, 2 C, 3 M. -/
def Point.engineCode : Point → Nat
  | .s => 0 | .va => 1 | .ve => 1 | .c => 2 | .m => 3

def Point.space : Point → Space
  | .s => .s | .va => .v | .ve => .v | .c => .c | .m => .m

/-- The selectors the control-word tables assign (R121, R150, R176, R222, R254, R248, R296, R318, R410, R404, R416, R450, R454). -/
def selAssignedNat (x : Nat) : Bool :=
  decide (x ≤ 0x00C) || (decide (0x010 ≤ x) && decide (x ≤ 0x015)) || x == 0x020 || x == 0x021 ||
  (decide (0x030 ≤ x) && decide (x ≤ 0x032)) || (decide (0x040 ≤ x) && decide (x ≤ 0x043)) ||
  (decide (0x050 ≤ x) && decide (x ≤ 0x064)) || (decide (0x068 ≤ x) && decide (x ≤ 0x06F))

def selAssigned (x : BitVec 12) : Bool := selAssignedNat x.toNat

/-- The result formats of MDRAIN (R292). -/
def drainType : EType → Bool
  | .fp32 | .bf16 | .e4m3 | .e5m2 | .e2m1 => true
  | _ => false

/-- The MX result formats of MDRAIN (R292). -/
def drainMx : EType → Bool
  | .e4m3 | .e5m2 | .e2m1 => true
  | _ => false

/-- The fields of R78 that one V instruction uses; every other field must be zero (R72, R185). -/
structure VSpec where
  vd : Bool := true
  va : Bool := true
  vb : Bool := false
  vc : Bool := false
  ka : Bool := va
  kb : Bool := vb
  kc : Bool := vc
  mask : Bool := true
  type : EType → Bool
  rm : RMode → Bool := fun r => r == .rne
  sub : BitVec 8 → Bool := fun x => x == 0
  extra : VOp → Bool := fun _ => true

/-- Every field not used is zero, and every field used holds an accepted value (R71, R72). -/
def VSpec.fits (p : VSpec) (f : VOp) : Bool :=
  (p.vd || f.vd == 0) && (p.va || f.va == 0) && (p.vb || f.vb == 0) && (p.vc || f.vc == 0) &&
  (p.ka || !f.ka) && (p.kb || !f.kb) && (p.kc || !f.kc) && (p.mask || f.msel == 0) &&
  p.type f.ty && p.rm f.rm && p.sub f.sub && p.extra f

namespace VSpec

/-- Rounding modes 0 to 4 and 6. -/
def rmNoSr (r : RMode) : Bool := r != .sr

/-- The SR width [7:6] is 0 to 2 under SR and the other bits of sub are zero (R47). -/
def srSub (r : RMode) (x : BitVec 8) : Bool :=
  if r == .sr then x.extractLsb' 6 2 != 3 && x.extractLsb' 0 6 == 0 else x == 0

def isSr (f : VOp) : Bool := f.rm == .sr

/-- VADD, VSUB, VMUL (R189): SR takes vc and sub[7:6] (R47). -/
def arith (f : VOp) : VSpec :=
  { vb := true, vc := isSr f, type := EType.isFP, rm := fun _ => true, sub := srSub f.rm }

/-- VFMA, VFMS, VFNMA (R189). -/
def fused : VSpec := { vb := true, vc := true, type := EType.isFP, rm := rmNoSr }

/-- VMIN, VMAX (R190). -/
def minmax : VSpec := { vb := true, type := EType.isFP }

/-- VABS, VNEG (R190). -/
def unary : VSpec := { type := EType.isFP }

/-- VCMP (R192): vd[1:0] names the mask. -/
def cmp (_ : VOp) : VSpec :=
  { vb := true, type := EType.isFP, sub := fun x => decide (x.toNat < 8), extra := fun f => decide (f.vd.toNat < 4) }

/-- VICMP (R192): codes 6 and 7 reserved. -/
def icmp (_ : VOp) : VSpec :=
  { vb := true, type := EType.isINT, sub := fun x => decide (x.toNat < 6), extra := fun f => decide (f.vd.toNat < 4) }

/-- VSEL (R193). -/
def sel : VSpec := { vb := true, type := fun t => t != .i3 }

/-- The transcendental functions (R60, R194). -/
def trans (f : VOp) : VSpec :=
  { type := EType.isFP, rm := fun r => if f.ty == .fp32 then r == .rne else r != .sr, sub := fun x => decide (x.toNat < 3) }

/-- The formats VCVT converts between (R195). -/
def cvtType : EType → Bool
  | .e2m1 | .i4 | .i3 => false
  | _ => true

/-- VCVT (R195). -/
def cvt (f : VOp) : VSpec :=
  { vc := isSr f, type := cvtType, rm := fun _ => true,
    sub := fun x =>
      (if f.rm == .sr then x.extractLsb' 6 2 != 3 else x.extractLsb' 6 2 == 0) &&
      (match EType.ofCode (x.extractLsb' 0 4) with
       | none => false
       | some st =>
         cvtType st &&
         (let p := (x.extractLsb' 4 2).toNat
          if f.ty.lanes ≤ st.lanes then decide (p < st.lanes / f.ty.lanes) else decide (p < f.ty.lanes / st.lanes))) }

/-- The source element count of VQMX and VQGI: sub[0] is 0 for FP32, 1 for BF16 (R197). -/
def quantLanes (x : BitVec 8) : Nat := if x.getLsbD 0 then 128 else 64

def quantSub (f : VOp) (x : BitVec 8) : Bool :=
  x.extractLsb' 4 2 == 0 && decide ((x.extractLsb' 1 3).toNat < f.ty.lanes / quantLanes x) &&
  (if f.rm == .sr then x.extractLsb' 6 2 != 3 else x.extractLsb' 6 2 == 0)

/-- VQMX (R197): vb is a second destination and must differ from vd. -/
def qmx (f : VOp) : VSpec :=
  { vb := true, kb := false, vc := isSr f, mask := false, type := fun t => t == .e4m3 || t == .e5m2 || t == .e2m1,
    rm := fun _ => true, sub := quantSub f, extra := fun g => g.vb != g.vd }

/-- VQGI (R199). -/
def qgi (f : VOp) : VSpec :=
  { vb := true, kb := false, vc := isSr f, mask := false, type := fun t => t == .i8 || t == .i4,
    rm := fun _ => true, sub := quantSub f, extra := fun g => g.vb != g.vd }

/-- VDQMX (R198). -/
def dqmx (f : VOp) : VSpec :=
  { vb := true, mask := false, type := EType.isFP, rm := rmNoSr,
    sub := fun x => !x.getLsbD 7 &&
      (match EType.ofCode (x.extractLsb' 0 4) with
       | some .e4m3 | some .e5m2 => decide ((x.extractLsb' 4 3).toNat < 256 / f.ty.lanes)
       | some .e2m1 => decide ((x.extractLsb' 4 3).toNat < 512 / f.ty.lanes)
       | _ => false) }

/-- VSCL (R196). -/
def scl : VSpec := { type := EType.isFP, rm := rmNoSr, sub := fun _ => true }

/-- VPACK, VUNPK (R200). -/
def packing (f : VOp) : VSpec :=
  { mask := false, type := fun t => t == .i4 || t == .i3,
    sub := fun x => decide (x.toNat < (if f.ty == .i4 then 2 else 3)) }

/-- VIADD, VISUB (R201). -/
def isat : VSpec := { vb := true, type := EType.isINT, sub := fun x => decide (x.toNat ≤ 1) }

/-- VIMUL (R201): .sat and .hi together are reserved. -/
def imul : VSpec := { vb := true, type := EType.isINT, sub := fun x => decide (x.toNat ≤ 2) }

/-- VIMAD (R201). -/
def imad : VSpec := { vb := true, vc := true, type := EType.isINT, sub := fun x => decide (x.toNat ≤ 1) }

/-- VAND, VOR, VXOR (R201): all 13 types. -/
def bitwise : VSpec := { vb := true, type := fun _ => true }

/-- VSHL, VSHR, VSHA (R202). -/
def shift (f : VOp) : VSpec :=
  { vb := !f.sub.getLsbD 7, type := EType.isINT,
    sub := fun x => if x.getLsbD 7 then x.extractLsb' 5 2 == 0 else x == 0 }

/-- VIMIN, VIMAX (R201). -/
def iminmax : VSpec := { vb := true, type := EType.isINT }

/-- VIOTA (R202). -/
def iota : VSpec := { va := false, type := EType.isINT, sub := fun _ => true }

/-- VPOPC (R202). -/
def popc : VSpec := { type := EType.isINT }

/-- VRED, VSCAN (R205). -/
def reduce (f : VOp) : VSpec :=
  { type := fun t => if f.sub.toNat < 3 then t.isFP || t.isINT else t.isINT,
    rm := fun r => if f.sub == 0 && f.ty.isFP then r != .sr else r == .rne,
    sub := fun x => decide (x.toNat < 6) }

/-- VPERM (R203). -/
def perm : VSpec := { vb := true, vc := true, type := fun t => decide (8 ≤ t.width) }

/-- VSLIDE (R203). -/
def slide : VSpec := { vb := true, type := fun t => t != .i3, sub := fun _ => true }

/-- VBCST (R203): k at or above L is reserved. -/
def bcst (f : VOp) : VSpec := { type := fun t => t != .i3, sub := fun x => decide (x.toNat < f.ty.lanes) }

/-- VMOV (R203). -/
def mov : VSpec := { type := fun _ => true }

/-- VZIP, VUZP, VTRN (R203). -/
def zip : VSpec := { vb := true, type := fun t => t != .i3, sub := fun x => decide (x.toNat ≤ 1) }

/-- The head size D of VROPE (R212). -/
def ropeDim (x : BitVec 8) : Nat := 32 * 2 ^ (x.extractLsb' 0 2).toNat

/-- VROPE (R212). -/
def rope (f : VOp) : VSpec :=
  { vb := true, vc := true, type := EType.isFP, rm := rmNoSr,
    sub := fun x => decide (x.toNat < 8) && x.extractLsb' 0 2 != 3 && decide (ropeDim x ≤ f.ty.lanes) }

/-- VSMX.step (R213): vc is a second destination and must differ from vd. -/
def smxStep (_ : VOp) : VSpec :=
  { vb := true, vc := true, kc := false, type := fun t => t == .fp32, extra := fun g => g.vc != g.vd }

/-- VSMX.norm and VSMX.scale (R213). -/
def smxApply (op : Nat) : VSpec := { vb := true, type := fun t => t == .fp32, sub := fun x => x.toNat == op }

/-- VDWC (R214). -/
def dwc : VSpec :=
  { vb := true, vc := true, type := EType.isFP, rm := rmNoSr, sub := fun x => !x.getLsbD 7 }

/-- The key, value and query formats of Cirrus (R303, R307). -/
def keyType : EType → Bool
  | .fp32 | .fp16 | .bf16 | .e4m3 | .e5m2 => true
  | _ => false

/-- VKST (R307). -/
def kst : VSpec :=
  { vd := false, vb := true, vc := true, type := keyType, sub := fun x => decide (x.toNat < 32) }

/-- VZCMP (R215): vc[1:0] names the mask written. -/
def zcmp (_ : VOp) : VSpec :=
  { vc := true, kc := false, type := fun t => decide (8 ≤ t.width), extra := fun g => decide (g.vc.toNat < 4) }

/-- VZEXP (R215). -/
def zexp : VSpec := { type := fun t => decide (8 ≤ t.width) }

/-- VMASKP (R216): vd[1:0] names the mask; vb only in mode 1, whose type is 32 bits wide. -/
def maskp (f : VOp) : VSpec :=
  { vb := f.sub == 1, type := fun t => t != .i3 && (f.sub != 1 || t.width == 32),
    sub := fun x => decide (x.toNat ≤ 1), extra := fun g => decide (g.vd.toNat < 4) }

/-- VWELF (R217). -/
def welf (f : VOp) : VSpec :=
  { vb := true, vc := f.sub == 1, type := fun t => t == .fp32, sub := fun x => decide (x.toNat ≤ 1) }

end VSpec

/-- With A = 0 the fields va, ka and W are reserved (R206). -/
def VMemOp.fits (f : VMemOp) : Bool := f.hasBase || (f.va == 0 && !f.ka && !f.wide)

/-- The same for a gather, whose type is .fp32, .i32 or .n32 (R206). -/
def VGatOp.fits (f : VGatOp) : Bool :=
  (f.hasBase || (f.va == 0 && !f.ka && !f.wide)) && (f.ty == .fp32 || f.ty == .i32 || f.ty == .n32)

/-- R17: a byte whose mode is 0b00 names no flag. -/
def Marks.ok (m : Marks) : Bool :=
  (m.wait.extractLsb' 6 2 != 0 || m.wait == 0) && (m.signal.extractLsb' 6 2 != 0 || m.signal == 0)

end Sys2Proof
end

