-- ==== Sys2Proof/Machine/State.lean ====
section
/-! DEFINITION. The whole state of a domain of N8 packages, as plain data: banks, cores, clusters, dies, packages,
the fabric and the outside world's pending inputs. Everything is a sparse map whose unlisted key reads as the
unit's state at bring-up, so `State.reset` is small. Keys: a bank is die*128 + core*2 + bank, a core is
die*64 + core, a cluster is die*16 + cluster, where core is 4*cluster + core as R114 numbers it. -/

namespace Sys2Proof.Machine

/-! Memory. -/

/-- Byte-addressed memory. An unlisted address reads as `Mem.blank`; `marks` lists the 8-byte-aligned words that
carry a poison marker (R91), in rising order. -/
structure Mem where
  cells : List Host.Cell
  marks : List Nat
  deriving DecidableEq, Repr

/-- DESIGN CHOICE (log 3): what a byte that nothing has written reads as. -/
def Mem.blank : Byte := 0

/-- Memory with nothing listed. -/
def Mem.empty : Mem := ⟨[], []⟩

/-- Rising addresses and no entry equal to `Mem.blank`. -/
def Mem.cellsWf : List Host.Cell → Bool
  | [] => true
  | [(_, v)] => v != Mem.blank
  | (a, v) :: (b, w) :: t => v != Mem.blank && decide (a < b) && Mem.cellsWf ((b, w) :: t)

/-- The canonical form of a memory. -/
def Mem.wf (m : Mem) : Bool := Mem.cellsWf m.cells && decide (m.marks.Pairwise (· < ·))

/-- What the unlisted elements of an undefined array read as (R9, R28): zero, or the free values from a seed. -/
inductive Fill where
  | zero
  | free (seed : Nat)
  deriving DecidableEq, Repr

/-! One bank. -/

/-- An s-register: value and poison bit (R89). -/
structure SCell where
  val : W64
  poison : Bool
  deriving DecidableEq, Repr

/-- Where an S result lands. -/
inductive Dest where
  | none
  | reg (n : Nat)
  | pred (n : Nat) (v : Bool)
  deriving DecidableEq, Repr

/-- An S access that waits for a page answer (R98). -/
inductive SAccess where
  | load (ea : W64) (n : Nat) (sx : Bool)
  | store (ea : W64) (n : Nat) (data : W64) (mark : Bool)
  | amo (ea : W64) (n : Nat) (op : Nat) (x : W64) (place scope : Nat)
  | cas (ea : W64) (n : Nat) (x y : W64) (place scope : Nat)
  deriving DecidableEq, Repr

/-- A pending S result (R92): it lands in some cycle from issued + 1 to bound. `page` holds the access of a word that
waits for a page answer, and `denied` its denial; `mem` marks a memory access, which FENCE waits for (R108). -/
structure Pend where
  id : Nat
  dest : Dest
  val : W64
  poison : Bool
  issued : Nat
  bound : Nat
  signal : BitVec 8
  landed : Bool
  page : Option SAccess
  denied : Option W64
  mem : Bool
  deriving DecidableEq, Repr

/-- An increment of a flag of this bank that is due (R18, R20). `event` is a signal of mode 0b11 (R155). -/
structure Incr where
  flag : Nat
  due : Nat
  point : Point
  remote : Bool
  event : Bool
  deriving DecidableEq, Repr

/-- A word that waits on a flag (R20): its condition (mode of R15, and the count a WAITF or PARK needs), the first cycle
in which it could have issued but for its WAIT, the last cycle in which it could not issue for another reason, and the last in which
the condition was evaluated and did not hold: it is evaluated once a cycle. -/
structure Waiter where
  point : Point
  flag : Nat
  mode : Nat
  need : Nat
  rank : Nat
  tried : Option Nat
  judged : Option Nat
  deriving DecidableEq, Repr

/-- A pending branch target and its countdown (R132). -/
structure Target where
  addr : W64
  k : Nat
  deriving DecidableEq, Repr

/-- What a blocking S word that has issued still waits for (R94). -/
inductive SBlock where
  | waitf (d : Nat) (flag count : Nat) (peek : Bool)
  | rdq (d : Nat) (q word : Nat) (pop : Bool)
  | park (flag : Nat)
  | phase (level : Nat)
  | publishing (scope : Nat) (phase : Bool)
  | ftime (d : Nat) (target : W64)
  | mbrd (d : Nat) (mode : Nat)
  | laysel (ticket : Nat)
  | fence (job : Bool) (before : Nat)
  | evt (record : Bool) (entry : Nat)
  | rendez (exit : Nat)
  | tret
  | yielded (d : Nat)
  deriving DecidableEq, Repr

/-- A blocking S word in progress. -/
structure Blocked where
  kind : SBlock
  signal : BitVec 8
  issued : Nat
  deriving DecidableEq, Repr

/-- The internal state of an S loop (R138, R139). -/
structure SLoop where
  start : W64
  stages : Nat
  seglen : Nat
  exit : W64
  target : Option W64
  stop : Bool
  loopWord : W64
  deriving DecidableEq, Repr

/-- The internal state of a V, C or M loop (R219): ring positions of the loop word and of its body, the pass each side
is in, the active mask of each pass begun, and the first iteration index. -/
structure RLoop where
  loopPos : Nat
  body : Nat
  stages : Nat
  k0 : Nat
  passA : Nat
  passE : Nat
  masks : List (Nat × BitVec 8)
  ended : Option Nat
  stop : Bool
  preempt : Bool
  deriving DecidableEq, Repr

/-- One slot of a queue: reserved until its data arrives (R172). -/
structure Slot where
  id : Nat
  data : Option Elem
  deriving DecidableEq, Repr

/-- Producer binding of a queue (R172). -/
inductive Prod where
  | none | stream | peer
  deriving DecidableEq, Repr

/-- Consumer binding of a queue (R172). -/
inductive Cons where
  | none | sink | peer | m
  deriving DecidableEq, Repr

/-- A queue register (R172), with the cycle after the one of its last pops and their number: a slot freed by another
word's pop counts as free from the next cycle (R175). -/
structure Queue where
  depth : Nat
  slots : List Slot
  prod : Prod
  cons : Cons
  popCyc : Nat
  popCnt : Nat
  deriving DecidableEq, Repr

/-- A queue at job start (R172). -/
def Queue.fresh : Queue := ⟨1, [], .none, .none, 0, 0⟩

/-- What an operation writes at its completion. -/
inductive Eff where
  | fill (q slot : Nat) (e : Elem)
  | mask (k : Nat) (v : Mask)
  | map (g : Nat) (v : Rec)
  | seq (k : Nat) (v : Rec)
  | unbindCons (q : Nat)
  | unbindProd (q : Nat)
  | fallback (tval : W64)
  deriving DecidableEq, Repr

/-- Where a translated block lies: in memory at a domain address, in a core's scratchpad, in a cluster's shared memory, or nowhere that
holds bytes. -/
inductive BlockAt where
  | mem (pa : Nat)
  | sp (core off : Nat)
  | shm (cl off : Nat)
  | nowhere
  deriving DecidableEq, Repr

/-- An element that an operation pushes after issue (R175): ready, or the bytes at an address read at home when its turn comes, in parts
that were translated before: each its place in the element, where it lies and its length (R311). -/
structure PushItem where
  q : Nat
  elem : Elem
  addr : Option Nat
  parts : List (Nat × BlockAt × Nat)
  deriving DecidableEq, Repr

/-- A valid Cirrus head slot (R302): head record, projection matrix, launch. -/
structure HeadSlot where
  record : Rec
  proj : BitVec 6144
  seq : Nat
  deriving DecidableEq, Repr

/-- The accesses of an operation thread, with all it read at issue (R231, R232, R352). VKST holds the head slot it took at issue, and
CKGATH the one it takes when its turn first comes (R310). A bound stream holds the map of the box it moves (R179). At row 0 of an MMA,
`half` is set once the MMA has begun a load of its own (R267). -/
inductive Work where
  | none
  | vld (ea : Nat) (q slot : Nat)
  | vst (ea : Nat) (d : Elem)
  | vgath (eas : List Nat) (q slot : Nat)
  | vscat (eas : List Nat) (d : Elem)
  | vkst (slot : Nat) (head : Option HeadSlot) (ty : EType) (k v i : Elem) (rows : List Nat)
  | vkstWait
  | cmap (g addr : Nat)
  | cmapSt (addr : Nat) (r : Rec)
  | copy (s d : Rec) (lr : Bool)
  | fill (d : Rec) (pat : Nat)
  | zc (a : Rec)
  | gather (s d : Rec) (idx : List Nat)
  | scatter (s d : Rec) (idx : List Nat)
  | use (a : Rec) (count : Nat) (dead : Bool)
  | pref (a : Rec) (l1 : Bool)
  | seqLd (k addr : Nat)
  | seqSt (addr : Nat) (r : Rec)
  | seqRope (pos : Int) (desc : Rec) (q : Nat)
  | kv (gB : Nat) (a desc : Rec)
  | relPage (hdr : W64)
  | relWin (k : Nat) (desc : Rec)
  | relTrunc (k : Nat) (desc : Rec) (nl : Nat)
  | ckcfgLd (k addr : Nat)
  | ckcfgClr (k : Nat)
  | kgath (k : Nat) (head : Option HeadSlot) (query : Elem) (q : W64) (vK vV : Nat)
  | pushes (items : List PushItem)
  | pushesThen (items : List PushItem) (fallback : W64)
  | nbr (d : Rec) (q : Nat) (op : Nat) (rm : RMode) (sat : Bool) (n : Nat)
  | nbu (d : Rec) (e1 e2 : Elem) (vec : Bool) (rm : RMode)
  | halo (a b : Rec) (mask flag dil par num : Nat)
  | haloWait (left : Nat) (bad : Option W64)
  | msg (a : Rec) (key num : Nat)
  | msgWait (pkt : Nat)
  | bind (gmap q : Nat) (left : Option Nat) (n : Nat) (r : Rec)
  | sink (gmap q : Nat) (left : Option Nat) (n : Nat) (r : Rec)
  | peer (tx : Bool) (q peerBank vP : Nat) (linked : Bool)
  | mlease
  | mrel
  | failed (cause : Nat) (v : W64)
  | mfmt (g data : Nat)
  | mbld (data n slot off : Nat)
  | mbsel (slot : Nat)
  | mma (tile : Nat) (a : Rec) (aq : Option Nat) (slot : Nat) (e : W64) (pf : Nat) (nr r0 : Nat) (z : Bool) (row : Nat) (half : Option Elem)
  | mzero (tile nr r0 : Nat)
  | mdrain (tile : Nat) (d sc : Rec) (dq : Option Nat) (ot : EType) (rm : RMode) (nr r0 : Nat) (clr : Bool) (row : Nat)
  | mscale (data nr : Nat)
  deriving DecidableEq, Repr

/-- An operation in flight (R18, R231, R280). `todo` is what it has still to perform, and `lay` the layout it read at issue
(R403). -/
structure Op where
  id : Nat
  point : Point
  pos : Nat
  signal : BitVec 8
  issued : Nat
  ready : Nat
  todo : Work
  effs : List Eff
  lay : Option (BitVec 1024)
  parked : Bool
  deriving DecidableEq, Repr

/-- A translation-buffer entry (R335): page VA[47:16], root, leaf and whether write intent was granted. -/
structure TlbEntry where
  page : Nat
  root : Nat
  leaf : W64
  wr : Bool
  deriving DecidableEq, Repr

/-- A page that a bank waits for (R394): for an operation or an S result, by its id, or for the next S word (0). -/
structure PageWait where
  id : Nat
  va : Nat
  wr : Bool
  root : Nat
  deriving DecidableEq, Repr

/-- The freezing fault of a job (R390): its engine entry, the faults met beside it and later, the cycle in which it was detected,
MSTAT and CYCLE.COUNT as they stood then (R391), and the denied S access that the value names, by its id (R98). -/
structure Freeze where
  point : Option Point
  cause : Nat
  value : W64
  pos : Nat
  more : List (Point × Nat × W64 × Nat)
  at_ : Nat
  lease : W64
  count : Nat
  deny : Nat
  deriving DecidableEq, Repr

/-- An open message packet (R452), with the poison markers of its 8-byte words (R439). -/
structure OpenPkt where
  key : Nat
  data : List Byte
  marks : Nat
  deriving DecidableEq, Repr

/-- The life of the job on a bank. -/
inductive JobPhase where
  | placed | running | closing | saving
  deriving DecidableEq, Repr

/-- The job of a bank: its launch (SEQ), index and tag, its records and ranges (R123, R165, R375, R377). -/
structure Job where
  seq : Nat
  jidx : Nat
  tag : Nat
  pkg : Nat
  phase : JobPhase
  record : Rec
  launchRec : Rec
  submitter : Option Nat
  paired : Bool
  det : Bool
  deriving DecidableEq, Repr

/-- A halo face that a job has received (R408): the number of the sender's CHALO, the side and the parity of the buffer, its bytes, and
the sender's maps. -/
structure HaloGot where
  num : Nat
  side : Nat
  par : Nat
  addr : Nat
  len : Nat
  box : Rec
  buf : Rec
  deriving DecidableEq, Repr

/-- The CHALOs of a job (R408): their number, the maps from each number on, and the faces received for those still to come. -/
structure HaloLog where
  count : Nat
  maps : List (Nat × Rec × Rec)
  got : List HaloGot
  deriving DecidableEq, Repr

/-- A job that has issued no CHALO. -/
def HaloLog.fresh : HaloLog := ⟨0, [], []⟩

/-- Everything one context bank holds. `heldFrom` gives, by engine, the ring position of the first word that S pushed, or made fetchable
by START, while an access of its own had still to be performed (R355). `fmtErr` and `scaleErr` name the format-table entries and the
A-scale rows that hold an uncorrectable error, and `slotErr` the queue slots whose element does (R273). -/
structure Bank where
  job : Option Job
  sregs : SMap SCell
  preds : BitVec 8
  pend : List Pend
  flags : SMap (BitVec 16)
  incs : List Incr
  waiters : List Waiter
  took : List (Nat × Nat × Nat)
  ctl : SMap W64
  pc : W64
  targets : List Target
  fetched : List (Nat × W64 × Bool)
  nullS : Nat
  skipWait : Bool
  heldWait : Bool
  nextIssue : SMap Nat
  blocked : Option Blocked
  sloop : Option SLoop
  vaPos : Nat
  vaDyn : Nat
  veDyn : Nat
  vaSeen : Nat
  veSeen : Nat
  veDue : Bool
  pushed : SMap Nat
  heldFrom : SMap Nat
  ringBuf : SMap (Nat × W64 × Bool)
  vloop : Option RLoop
  cloop : Option RLoop
  mloop : Option RLoop
  queues : SMap Queue
  masks : SMap Mask
  maps : SMap Rec
  seqSlots : SMap Rec
  fmt : SMap W64
  fmtErr : List Nat
  slotErr : List Nat
  ascaleFill : Fill
  ascale : SMap W64
  scaleErr : List Nat
  ops : List Op
  apertures : List (BitVec 128)
  tlb : List TlbEntry
  stamp : Nat
  parked : List PageWait
  freeze : Option Freeze
  stopped : Bool
  held : List (W64 × Nat)
  reshardTrap : Option W64
  preempt : Bool
  stopS : Bool
  yielded : Option (Nat × BitVec 8)
  openPkts : List OpenPkt
  phases : SMap Nat
  idleSince : Nat
  leaseHeld : Bool
  leaseOwed : Bool
  lastPoint : SMap Nat
  halo : HaloLog
  deriving DecidableEq, Repr

/-! One core. -/

/-- An L1 line (R168): line address, bytes, valid, dirty and poison-marker masks, and the fill stamp of its oldest clean
byte, which a replica of it carries (R345) and which a bank's acquire stamp rules out (R360). `raced` marks dirty bytes that an atomic of
another core raced in their phase, and `plain` those that a plain store wrote (R106). -/
structure L1Line where
  line : Nat
  data : BitVec 512
  valid : BitVec 64
  dirty : BitVec 64
  marks : BitVec 8
  stamp : Nat
  raced : BitVec 64
  plain : BitVec 64
  deriving DecidableEq, Repr

/-- An instruction-cache line: address key, bytes, markers, and the cycle in which its bytes were read at home (R170, R369). -/
structure ICLine where
  line : Nat
  data : BitVec 512
  marks : BitVec 8
  stamp : Nat
  deriving DecidableEq, Repr

/-- An accumulator tile: rows of 256 FP32 elements (R171). -/
structure Tile where
  fill : Fill
  rows : SMap (List (BitVec 32))
  deriving DecidableEq, Repr

/-- A core. `phaseAt` is the cycle of its last publish, acquire or job start: a phase of its accesses begins there (R106). `tileErr` names
the rows of tiles, by tile and row, in which a word holds an uncorrectable error (R273). `ringed` lists, in rising order, the scratchpad
words (address / 8) that PUSH or a preload was the last to write: what is fetched from any other is undefined (R26, R181). -/
structure Core where
  sp : Mem
  ringed : List Nat
  l1 : List L1Line
  ic : List ICLine
  tiles : SMap Tile
  tileErr : List (Nat × Nat)
  phaseAt : Nat
  deriving DecidableEq, Repr

/-! One cluster. -/

/-- A B-store slot: bytes, what unlisted bytes read as, its generation (R263, R266), the soft errors of its 8-byte words that no read
has met, each single-bit or uncorrectable, and the words marked poisoned (R349, R350). -/
structure BSlot where
  fill : Fill
  data : List Host.Cell
  gen : Nat
  soft : List (Nat × Bool)
  marks : List Nat
  deriving DecidableEq, Repr

/-- A stationary plane (R266): its tag and pair bit, the slots it holds as they stood when its load began, with their
generations, and the cycle in which a load ends. -/
structure Plane where
  tag : Nat
  pair : Bool
  valid : Bool
  slot0 : BSlot
  slot1 : BSlot
  loading : Option Nat
  deriving DecidableEq, Repr

def BSlot.empty : BSlot := ⟨.zero, [], 0, [], []⟩

def Plane.empty : Plane := ⟨0, false, false, BSlot.empty, BSlot.empty, none⟩

/-- The matrix array (R266 to R270): the bank that has, or last had, the grant, the array commands of its run, the last cycle
in which one stood at its issue point, the first cycle in which one may issue, and the planes. -/
structure Array where
  grant : Option Nat
  run : Nat
  lastCmd : Nat
  firstCmd : Nat
  plane0 : Plane
  plane1 : Plane
  active : Bool
  deriving DecidableEq, Repr

/-- An append waiting at Cirrus (R306): bank and operation, head record, table, bucket, token. -/
structure Append where
  bank : Nat
  op : Nat
  record : Rec
  table : Nat
  bucket : Nat
  token : Nat
  deriving DecidableEq, Repr

/-- A mailbox entry (R316): message, sending core and bank, launch, and the cycle it becomes visible. -/
structure MailEntry where
  msg : BitVec 56
  core : Nat
  bank : Nat
  seq : Nat
  at_ : Nat
  visible : Bool
  deriving DecidableEq, Repr

/-- Where a collective instance stands (R462). -/
inductive CollPhase where
  | queued | exchanging | cancelled
  deriving DecidableEq, Repr

/-- A collective instance of a master (R460, R462, R463). -/
structure Coll where
  cmd : Rec
  inst : Nat
  bank : Nat
  seq : Nat
  pkg : Nat
  wc : Bool
  resumed : Bool
  phase : CollPhase
  began : Nat
  /-- It was ready before START, so that START is not late for it (R462 step 2). -/
  waited : Bool
  late : Bool
  err : Bool
  got : List (Nat × List Byte)
  /-- The members whose READY it has answered. -/
  served : List Nat
  none_ : List Nat
  /-- What SRC held when it began: bytes written since leave its contribution undefined (R464). -/
  image : List Byte
  deriving DecidableEq, Repr

structure Cluster where
  shm : Mem
  bstore : SMap BSlot
  array : Array
  heads : SMap HeadSlot
  appends : List Append
  mail : List MailEntry
  mailWait : List Nat
  coll : List Coll
  collDone : List (Nat × Nat × Nat)
  inst : SMap Nat
  deriving DecidableEq, Repr

/-! One die. -/

/-- An MSC line (R336): 256 bytes with valid and dirty masks, use count and dead mark. `victim` marks the line as the next to be
displaced from its set (R338). -/
structure MscLine where
  line : Nat
  data : BitVec 2048
  valid : BitVec 256
  dirty : BitVec 256
  marks : BitVec 32
  uc : Nat
  dead : Bool
  victim : Bool
  deriving DecidableEq, Repr

/-- A gateway line or replica (R342, R344, R345): domain line address, valid bytes, fill stamp, and the cycle of the last write-back that
updated it in passing (R343). -/
structure GwLine where
  line : Nat
  data : BitVec 2048
  valid : BitVec 256
  marks : BitVec 32
  stamp : Nat
  written : Nat
  deriving DecidableEq, Repr

/-- A page request outstanding at a translation unit (R394, R422). -/
structure PageReq where
  rqn : Nat
  va : Nat
  wr : Bool
  root : Nat
  seq : Nat
  tag : Nat
  made : Nat
  banks : List Nat
  deriving DecidableEq, Repr

/-- One launch's layout store entry (R403). -/
structure LayoutEntry where
  seq : Nat
  desc : Option (BitVec 1024)
  deriving DecidableEq, Repr

/-- A launch's re-shard record on a die (R414, R416): the operands its jobs issued, the report, the step. `wrote` holds, by 256-byte line,
the bytes written at home since the report (R415). -/
structure Reshard where
  seq : Nat
  ops : List (Nat × W64 × W64 × W64)
  reported : Bool
  bad : Nat
  newDesc : Option (BitVec 1024)
  running : Bool
  step : Nat
  sentAll : Bool
  done : Bool
  late : Bool
  skew : Bool
  inflight : Bool
  wrote : SMap Nat
  deriving DecidableEq, Repr

/-- A flit (R439); `marks` are the poison markers of its eight payload words. -/
structure Flit where
  dst : Nat
  src : Nat
  age : Nat
  anc : Bool
  kind : Nat
  idx : Nat
  nfm1 : Nat
  pkt : Nat
  offset : Nat
  aux : Nat
  payload : BitVec 512
  marks : BitVec 8
  deriving DecidableEq, Repr

/-- A reassembly entry (R448): key, flit count, the bank charged, the flits received with the markers of their words (R439). -/
structure RasmEntry where
  src : Nat
  pkt : Nat
  nf : Nat
  bank : Nat
  kind : Nat
  len : Nat
  offset : Nat
  aux : Nat
  srcBank : Nat
  seq : Nat
  got : SMap (BitVec 512)
  marks : Nat
  deriving DecidableEq, Repr

/-- A remote flag increment in transit (R22): target bank, flag, launch of the sender (none: supervisor view), the cycle it was
sent in, and the bank that sent it. -/
structure RIncr where
  bank : Nat
  flag : Nat
  seq : Option Nat
  sent : Nat
  src : Nat
  deriving DecidableEq, Repr

/-- Where a soft error of a die stands: in HBM, in the MSC, in a replica, or in a gateway (R350). -/
inductive SoftAt where
  | hbm | msc | replica | gateway
  deriving DecidableEq, Repr

/-- A soft error that no read has met yet: the 8-byte word, by its local offset / 8 for HBM and the MSC and by its domain
address / 8 for a replica or a gateway line, and whether it is uncorrectable (R350). -/
structure SoftErr where
  at_ : SoftAt
  word : Nat
  unc : Bool
  deriving DecidableEq, Repr

structure Die where
  up : Bool
  born : Nat
  ready : BitVec 8
  rising : BitVec 8
  hbm : Mem
  soft : List SoftErr
  msc : List MscLine
  gw : SMap (List GwLine)
  replicas : List GwLine
  regs : SMap W64
  jsActive : SMap W64
  rsTable : SMap W64
  layouts : List LayoutEntry
  reshards : List Reshard
  requests : List PageReq
  shootPend : List Nat
  swapAt : Nat
  flitsIn : List (Nat × Flit)
  flitsOut : List Flit
  ejected : List Flit
  level : Nat
  winDefl : Nat
  winPos : Nat
  lastWin : Nat
  rasm : List RasmEntry
  rasmKept : List RasmEntry
  waitList : List Nat
  pktNext : SMap Nat
  groups : SMap W64
  heldIncs : List RIncr
  report : List Nat
  deriving DecidableEq, Repr

/-! One package. -/

/-- Where a launch stands at Zenith. -/
inductive LaunchPhase where
  | queued | live | preempting | preempted | ended
  deriving DecidableEq, Repr

/-- Where a job of a launch stands. -/
inductive PlacePhase where
  | unplaced | placed | running | retired | killed | saved
  deriving DecidableEq, Repr

/-- What Zenith keeps of a pre-empted job beside its save area (R388 gives no place for it): the job, its bound streams and links, how far
the access side was behind the execute side, its PHASE counts, an S loop of its handler, its MBCFG (R318), its CHALOs (R408), whether it
held a lease, the SIGNAL of the TRET that resumption completes, the YIELD that resumption completes, traps not yet taken, and the words
that PUSH or a preload was the last to write (R26). -/
structure Kept where
  job : Job
  ops : List Op
  behind : Nat
  phases : SMap Nat
  sloop : Option SLoop
  mbcfg : W64
  halo : HaloLog
  lease : Bool
  tret : BitVec 8
  yielded : Option (Nat × BitVec 8)
  held : List (W64 × Nat)
  reshardTrap : Option W64
  ringed : List Nat
  deriving DecidableEq, Repr

/-- A job of a launch: its bank, and what is kept of it while it is pre-empted. -/
structure Place where
  jidx : Nat
  bank : Nat
  phase : PlacePhase
  kept : Option Kept
  deriving DecidableEq, Repr

/-- A launch accepted by Zenith (R374 to R381), with the aperture of the job that submitted it. -/
structure Launch where
  seq : Nat
  record : Rec
  submitter : Option Nat
  apt : List (BitVec 128)
  accepted : Nat
  since : Nat
  level : Nat
  phase : LaunchPhase
  jobs : List Place
  code : Nat
  nd : Bool
  retired : Nat
  exit : Nat
  ejidx : Nat
  issuedAt : Nat
  deriving DecidableEq, Repr

/-- A LAYSEL on its way through Zenith (R405). -/
structure LayInstall where
  seq : Nat
  bank : Nat
  ticket : Nat
  desc : Option (BitVec 1024)
  deriving DecidableEq, Repr

/-- A package. `tags` lists the tags Zenith has given, each with the SEQ and the bank of its job, that may still be in use (R123). -/
structure Hub where
  regs : SMap W64
  launches : List Launch
  accepts : Nat
  installs : List LayInstall
  tagNext : Nat
  tags : List (Nat × Nat × Nat)
  stopped : Bool
  thermal : Nat
  power : Nat
  deriving DecidableEq, Repr

/-! The fabric and the machine. -/

/-- Where a packet stands: at its source, its flits on their way, whole at its destination, or waiting there or at its source
(R448). -/
inductive PktStage where
  /-- its place in the order is taken, and its bytes have still to be read (CMSG, R454) -/
  | forming
  | source | travelling | arrived | waiting
  deriving DecidableEq, Repr

/-- What a packet of a collective says (R462): group, instance and sending member, with the digest's fields, with whether the
digests differed, or with a part's number. -/
inductive CollMsg where
  | ready (grp inst member : Nat) (digest : BitVec 80)
  | none_ (grp inst member : Nat) (differs : Bool)
  | data (grp inst member part : Nat)
  deriving DecidableEq, Repr

/-- A packet in transit (R440). `bank` is the destination bank it concerns, `srcBank` its sender, and `body` the kind that an
entry request or its answer stands for; `marks` are the poison markers of the 8-byte words of its data. -/
structure Pkt where
  kind : Nat
  src : Nat
  dst : Nat
  num : Nat
  offset : Nat
  aux : Nat
  len : Nat
  data : List Byte
  mask : BitVec 256
  bank : Nat
  srcBank : Nat
  seq : Nat
  retryAt : Option Nat
  granted : Bool
  body : Nat
  stage : PktStage
  coll : Option CollMsg
  marks : Nat
  deriving DecidableEq, Repr

/-- What its parts that have come so far make of a halo face (R409): all were written, some found no receiver, or its buffer was refused. -/
inductive FaceFate where
  | good | lost | refused
  deriving DecidableEq, Repr

/-- A halo face in transit (R409): receiving launch, die and member index, buffer address and size, bytes, flag, sending operation, the
sender's maps with the number of its CHALO and the face's parity (R408), and the bulk writes that carry it and have still to come, each by
its packet number and its place in the face (R440). -/
structure HaloFace where
  srcBank : Nat
  op : Nat
  seq : Nat
  die : Nat
  member : Nat
  face : Nat
  addr : Nat
  len : Nat
  parts : List (Nat × Nat)
  fate : FaceFate
  flag : Nat
  room : Nat
  num : Nat
  par : Nat
  box : Rec
  buf : Rec
  deriving DecidableEq, Repr

/-- The events of the agents other than the issue points: the last 80 rows of the opcode table, each with the same
arguments as its constructor of Instr. Step takes an event by the same meaning that exec gives its row. -/
inductive Event where
  /-- FLAG_UNIT_CYCLE: R20: the flag unit of bank b applies the increments due. -/
  | flagUnitCycle (b : Nat)
  /-- REMOTE_INCREMENT: R22: the k-th remote increment in transit arrives. -/
  | remoteIncrement (k : Nat)
  /-- S_RESULT_LAND: R92: pending result id of bank b lands. -/
  | sResultLand (b : Nat) (id : Nat)
  /-- WORD_COMPLETION: R18: operation id of bank b completes. -/
  | wordCompletion (b : Nat) (id : Nat)
  /-- RING_FETCH: R26: an issue point of a ring engine fetches a word ahead. -/
  | ringFetch (b : Nat) (p : Point)
  /-- S_FETCH: R148: S fetches the word at its program counter ahead. -/
  | sFetch (b : Nat)
  /-- JOB_START: R378: the sequencer starts the job placed on bank b. -/
  | jobStart (b : Nat)
  /-- JOB_RETIRE: R30: the job of bank b retires. -/
  | jobRetire (b : Nat)
  /-- PHASE_BARRIER_COMPLETE: R33: the PHASE at which bank b waits has all its members. -/
  | phaseBarrierComplete (b : Nat)
  /-- WAITF_COMPLETE: R112: the waiting WAITF of bank b is evaluated. -/
  | waitfComplete (b : Nat)
  /-- PARK_WAKE: R129: the waiting PARK of bank b is evaluated. -/
  | parkWake (b : Nat)
  /-- WATCHDOG_EXPIRY: R127: the watchdog of bank b is judged. -/
  | watchdogExpiry (b : Nat)
  /-- TRAP_ENTRY: R147: a request or held trap of bank b is taken at its word boundary. -/
  | trapEntry (b : Nat)
  /-- COMPOSITE_RECORD_WRITE: R390: the freeze of bank b ends in its record and trap. -/
  | compositeRecordWrite (b : Nat)
  /-- PREEMPTION_LANDING: R142: a pre-emption request lands on bank b. -/
  | preemptionLanding (b : Nat)
  /-- PREEMPT_SAVE: R387: bank b is published, saved and freed. -/
  | preemptSave (b : Nat)
  /-- LAUNCH_RESUME: R389: a pre-empted launch resumes. -/
  | launchResume (pkg : Nat) (seq : Nat)
  /-- TRANSLATION_REQUEST: R335: a paged access of bank b is translated. -/
  | translationRequest (b : Nat) (va : W64) (wr : Bool)
  /-- PAGE_ANSWER_GRANT: R394: the host grants a page request. -/
  | pageAnswerGrant (die : Nat) (rqn : Nat) (tag : BitVec 16)
  /-- PAGE_ANSWER_DENY: R98: the host denies a page request. -/
  | pageAnswerDeny (die : Nat) (rqn : Nat) (tag : BitVec 16)
  /-- PAGE_REQUEST_TIMEOUT: R394: a page request has waited past its limit. -/
  | pageRequestTimeout (die : Nat) (rqn : Nat)
  /-- HOST_LAUNCH_WRITE: R374: the host submits a launch record. -/
  | hostLaunchWrite (pkg : Nat) (rec : BitVec 512)
  /-- LAUNCH_ISSUE: R380: Zenith issues a launch that is ready. -/
  | launchIssue (pkg : Nat)
  /-- LAUNCH_AGING: R381: the head of a level has waited its aging period. -/
  | launchAging (pkg : Nat) (level : Nat)
  /-- AGENT_FREE_REPORT: R382: the agent of a die reports its free counts. -/
  | agentFreeReport (die : Nat)
  /-- LAUNCH_END: R379: Zenith writes the status record of a launch. -/
  | launchEnd (pkg : Nat) (seq : Nat)
  /-- ZKILL: R396: a write to ZKILL. -/
  | zkill (pkg : Nat) (seq : BitVec 32)
  /-- ZPRE: R386: a write to ZPRE. -/
  | zpre (pkg : Nat) (seq : BitVec 32)
  /-- SHOOTDOWN_GO: R395: a write to SDCTL with GO. -/
  | shootdownGo (die : Nat) (v : W64)
  /-- SHOOTDOWN_DONE: R395: the acknowledgements of a shoot-down have arrived. -/
  | shootdownDone (die : Nat)
  /-- JSCTL_SWAP: R348: a write of 1 to JSCTL.SWAP. -/
  | jsctlSwap (die : Nat)
  /-- JSTAB_INSTALL: R348: a pending swap meets its boundary. -/
  | jstabInstall (die : Nat)
  /-- REPLICA_DROP_DONE: R345: every replica has been dropped. -/
  | replicaDropDone (die : Nat)
  /-- PATROL_SCRUB: R350: the scrubber reads the HBM word at off. -/
  | patrolScrub (die : Nat) (off : Nat)
  /-- RSDATA_ACCESS: R412: a read or write of RSDATA. -/
  | rsdataAccess (die : Nat) (wr : Bool) (v : W64)
  /-- CONTROL_REGISTER_WRITE: R7: a write to a control-space register. -/
  | controlRegisterWrite (die : Nat) (off : Nat) (v : W64)
  /-- MSC_READ: R337: a slice reads n bytes. -/
  | mscRead (die : Nat) (off : Nat) (n : Nat) (use : BitVec 4) (dead : Bool)
  /-- MSC_MASKED_WRITE: R337: a slice performs a byte-masked write. -/
  | mscMaskedWrite (die : Nat) (off : Nat) (data : BitVec 512) (mask : BitVec 64)
  /-- MSC_BANK_ALU_OP: R337: a bank ALU performs one operation. -/
  | mscBankAluOp (die : Nat) (off : Nat) (op : BitVec 4) (size : BitVec 2) (x : W64)
  /-- CIRRUS_APPEND: R306: the k-th waiting append of a cluster is performed. -/
  | cirrusAppend (cl : Nat) (k : Nat)
  /-- GATEWAY_READ: R344: a remote read of bank b through its gateway. -/
  | gatewayRead (b : Nat) (addr : Nat) (n : Nat)
  /-- HOST_MEM_READ: R419: a host read at an HDM offset (range 1 from 2^39). -/
  | hostMemRead (pkg : Nat) (off : Nat) (n : Nat)
  /-- HOST_MEM_WRITE: R367: a host write at an HDM offset (range 1 from 2^39). -/
  | hostMemWrite (pkg : Nat) (off : Nat) (data : List Byte)
  /-- ARRAY_GRANT_PASS: R269: the array grant passes. -/
  | arrayGrantPass (cl : Nat)
  /-- PLANE_LOAD_COMPLETE: R266: a plane load ends. -/
  | planeLoadComplete (cl : Nat) (plane : Bool)
  /-- BOUND_STREAM_ELEMENT: R241: a bound stream moves one element. -/
  | boundStreamElement (b : Nat) (id : Nat)
  /-- PEER_LINK_FORM: R243: a peer link forms. -/
  | peerLinkForm (b : Nat) (id : Nat)
  /-- PEER_ELEMENT_FORWARD: R243: a sender's head element is forwarded. -/
  | peerElementForward (b : Nat) (id : Nat)
  /-- MAILBOX_ENTRY_VISIBLE: R318: a mailbox entry becomes visible. -/
  | mailboxEntryVisible (cl : Nat) (k : Nat)
  /-- LAYOUT_INSTALL: R405: Zenith installs the oldest LAYSEL. -/
  | layoutInstall (pkg : Nat)
  /-- HALO_DELIVERY: R409: the k-th halo face in transit arrives. -/
  | haloDelivery (k : Nat)
  /-- RESHARD_CHECK: R414: Zenith compares the re-shard reports. -/
  | reshardCheck (seq : Nat)
  /-- RESHARD_STEP: R414: a die runs its next re-shard step. -/
  | reshardStep (seq : Nat) (die : Nat)
  /-- RESHARD_SKEW: R414: a router reports skew. -/
  | reshardSkew (seq : Nat)
  /-- RESHARD_COMPLETE: R414: every row has been performed. -/
  | reshardComplete (seq : Nat)
  /-- FLIT_ARRIVAL: R443: the router of a die assigns its arriving flits. -/
  | flitArrival (die : Nat)
  /-- FLIT_HEADER_ERROR: R439: an uncorrectable header error. -/
  | flitHeaderError (src : Nat) (dst : Nat)
  /-- THROTTLE_WINDOW: R446: a router closes its throttle window. -/
  | throttleWindow (die : Nat)
  /-- FT_SYNC_LOST: R437: a die loses synchronisation. -/
  | ftSyncLost (die : Nat)
  /-- READ_REQUEST: R440: packet k, a read request, arrives. -/
  | readRequest (k : Nat)
  /-- READ_RESPONSE: R440: packet k, a read response, arrives. -/
  | readResponse (k : Nat)
  /-- MASKED_WRITE: R441: packet k, a masked write, is performed. -/
  | maskedWrite (k : Nat)
  /-- BANK_ALU_REQUEST: R440: packet k, a bank-ALU request, arrives. -/
  | bankAluRequest (k : Nat)
  /-- ACKNOWLEDGEMENT: R440: packet k, an acknowledgement, arrives. -/
  | acknowledgement (k : Nat)
  /-- ENTRY_REQUEST: R448: packet k, an entry request, arrives. -/
  | entryRequest (k : Nat)
  /-- ENTRY_GRANT: R448: packet k, an entry grant or refusal, arrives. -/
  | entryGrant (k : Nat)
  /-- ENTRY_REQUEST_RETRY: R448: the k-th refused entry request is sent again. -/
  | entryRequestRetry (k : Nat)
  /-- FLIT_EJECT: R448: the k-th ejected flit of a die fills its entry. -/
  | flitEject (die : Nat) (k : Nat)
  /-- MESSAGE: R454: packet k, a message, is delivered. -/
  | message (k : Nat)
  /-- BULK_WRITE: R440: packet k, a bulk write, is performed. -/
  | bulkWrite (k : Nat)
  /-- REDUCE_READ: R458: a die combines a line over a group. -/
  | reduceRead (die : Nat) (seq : Nat) (off : Nat)
  /-- COLLECTIVE_CONTROL: R462: packet k, a READY or NONE, arrives. -/
  | collectiveControl (k : Nat)
  /-- COLLECTIVE_START: R462: queued instance k of a master starts. -/
  | collectiveStart (cl : Nat) (k : Nat)
  /-- COLLECTIVE_RESULT: R462: instance k has its contributions. -/
  | collectiveResult (cl : Nat) (k : Nat)
  /-- COLLECTIVE_DEADLINE: R463: the deadline of instance k. -/
  | collectiveDeadline (cl : Nat) (k : Nat)
  /-- POWER_MANAGEMENT_TICK: R429: the controller's millisecond, with the power and temperature it reads. -/
  | powerManagementTick (pkg : Nat) (watts : Nat) (celsius : Nat)
  /-- THERMAL_SHUTDOWN: R428: the junction reaches 115 degrees. -/
  | thermalShutdown (pkg : Nat)
  /-- BRING_UP: R426: bring-up of a die. -/
  | bringUp (die : Nat)
  /-- FTIME_UNTIL_TARGET_REACHED: R438: a blocked FTIME.until is evaluated. -/
  | ftimeUntilTargetReached (b : Nat)
  /-- FT_SYNC_ACHIEVED: R437: a die is synchronised. -/
  | ftSyncAchieved (die : Nat)
  deriving DecidableEq, Repr

/-- What the next step does: an issue point of a bank tries to issue, an event happens, or the second half of a cycle is
planned. -/
inductive Turn where
  | issue (b : Nat) (p : Point)
  | event (e : Event)
  | plan
  deriving DecidableEq, Repr

/-- The issue point a step is run for, and the ring position and iteration index of its word. -/
structure Focus where
  bank : Nat
  point : Point
  pos : Nat
  k : Nat
  deriving DecidableEq, Repr

/-- The whole machine. `hdm` is the host's own mapping, which only the host changes: the host-physical base at which it put HDM
range 0 of a package, with the package (R418, R419; log 30). `atomics` holds, by 8-byte word of physical memory, the
accesses that may race in a phase (R106): the core, the cycle, the byte mask, and whether they are plain stores that have left the L1 or
atomics. -/
structure State where
  cycle : Nat
  ft : Nat
  banks : SMap Bank
  cores : SMap Core
  clusters : SMap Cluster
  dies : SMap Die
  hubs : SMap Hub
  hostMem : Mem
  hdm : List (Nat × Nat)
  incs : List RIncr
  pkts : List Pkt
  faces : List HaloFace
  focus : Focus
  agenda : List Turn
  inputs : List (Nat × Event)
  freeCtr : Nat
  nextId : Nat
  atomics : SMap (List (Nat × Nat × Nat × Bool))
  lastRead : List Byte
  lastMarks : Nat
  pageMsgs : List (BitVec 128)
  deriving DecidableEq, Repr

/-- Reasons the machine stops. Every fault the manual names is a trap that the model takes, so none of these is a
fault of the N8. -/
inductive Fault where
  /-- raised by FLIT_EJECT for a flit of KIND 0xC to 0xF, which R440 says is never sent; safe -/
  | neverSent
  deriving DecidableEq, Repr

/-- Reasons the model gives no meaning. -/
inductive Refusal where
  /-- raised by an arm of exec whose instruction has no meaning yet; safe -/
  | notModelled (mnemonic : String)
  deriving DecidableEq, Repr

/-- A bank at bring-up: no job, control words at their reset values (0 unless listed in `ctlResetNat`). DESIGN CHOICE (log 2): registers the
manual leaves undefined hold 0. -/
def Bank.reset : Bank :=
  { job := none, sregs := [], preds := 0, pend := [], flags := [], incs := [], waiters := [], took := [], ctl := [], pc := 0,
    targets := [], fetched := [], nullS := 0, skipWait := false, heldWait := false, nextIssue := [], blocked := none, sloop := none, vaPos := 0,
    vaDyn := 0, veDyn := 0, vaSeen := 0, veSeen := 0, veDue := false, pushed := [], heldFrom := [], ringBuf := [], vloop := none, cloop := none, mloop := none,
    queues := [], masks := [], maps := [], seqSlots := [], fmt := [], fmtErr := [], slotErr := [], ascaleFill := .zero, ascale := [], scaleErr := [], ops := [],
    apertures := [], tlb := [], stamp := 0, parked := [], freeze := none, stopped := false, held := [],
    reshardTrap := none, preempt := false, stopS := false, yielded := none, openPkts := [], phases := [], idleSince := 0,
    leaseHeld := false, leaseOwed := false, lastPoint := [], halo := HaloLog.fresh }

def Core.reset : Core := { sp := Mem.empty, ringed := [], l1 := [], ic := [], tiles := [], tileErr := [], phaseAt := 0 }

def Array.reset : Array :=
  { grant := none, run := 0, lastCmd := 0, firstCmd := 0, plane0 := Plane.empty, plane1 := Plane.empty, active := false }

def Cluster.reset : Cluster :=
  { shm := Mem.empty, bstore := [], array := Array.reset, heads := [], appends := [], mail := [], mailWait := [], coll := [],
    collDone := [], inst := [] }

def Die.reset : Die :=
  { up := false, born := 0, ready := 0, rising := 0, hbm := Mem.empty, soft := [], msc := [], gw := [], replicas := [], regs := [], jsActive := [],
    rsTable := [], layouts := [], reshards := [], requests := [], shootPend := [], swapAt := 0, flitsIn := [], flitsOut := [],
    ejected := [], level := 0, winDefl := 0, winPos := 0, lastWin := 0, rasm := [], rasmKept := [], waitList := [], pktNext := [],
    groups := [], heldIncs := [], report := [] }

def Hub.reset : Hub :=
  { regs := [], launches := [], accepts := 0, installs := [], tagNext := 0, tags := [], stopped := false, thermal := 0, power := 0 }

/-- The machine right after reset: no job on any bank, every register at its reset value, nothing in memory or in
flight, nothing on the agenda. -/
def State.reset : State :=
  { cycle := 0, ft := 0, banks := [], cores := [], clusters := [], dies := [], hubs := [], hostMem := Mem.empty, hdm := [], incs := [],
    pkts := [], faces := [], focus := ⟨0, .s, 0, 0⟩, agenda := [], inputs := [], freeCtr := 0, nextId := 1,
    atomics := [], lastRead := [], lastMarks := 0, pageMsgs := [] }

end Sys2Proof.Machine
end

