-- ==== Sys2Proof/Machine/Mem.lean ====
section
/-! DEFINITION. Memory and the path to it: bytes with poison markers (R91), HBM with its soft errors (R349, R350), the
memory-side cache (R336 to R339), gateways and replicas (R342 to R345), the L1 (R168, R169), and the domain's geometry
(R330, R398). Data travels as a number, little-endian, with a byte count. -/

namespace Sys2Proof.Machine

/-! Bytes. -/

/-- What an address reads as. -/
def Mem.byteOf : List Host.Cell → Nat → Byte
  | [], _ => Mem.blank
  | (a, v) :: t, x => if a = x then v else Mem.byteOf t x

/-- One byte. -/
def Mem.byte (m : Mem) (a : Nat) : Byte := Mem.byteOf m.cells a

/-- One byte rewritten, keeping the canonical form. -/
def Mem.putCell : List Host.Cell → Nat → Byte → List Host.Cell
  | [], x, w => if w = Mem.blank then [] else [(x, w)]
  | (a, v) :: t, x, w =>
    if x < a then (if w = Mem.blank then (a, v) :: t else (x, w) :: (a, v) :: t)
    else if x = a then (if w = Mem.blank then t else (x, w) :: t)
    else (a, v) :: Mem.putCell t x w

def Mem.put (m : Mem) (a : Nat) (v : Byte) : Mem := { m with cells := Mem.putCell m.cells a v }

/-- n bytes from a, little-endian. -/
def Mem.load (m : Mem) (a : Nat) : Nat → Nat
  | 0 => 0
  | n + 1 => Mem.load m a n + 256 ^ n * (m.byte (a + n)).toNat

/-- Insert into a rising list without repeats. -/
def insertNat : List Nat → Nat → List Nat
  | [], x => [x]
  | a :: t, x => if x < a then x :: a :: t else if x = a then a :: t else a :: insertNat t x

/-- The marker of the 8-byte word w (an address divided by 8) set. -/
def Mem.mark (m : Mem) (w : Nat) : Mem := { m with marks := insertNat m.marks w }

/-- The same marker cleared. -/
def Mem.unmark (m : Mem) (w : Nat) : Mem := { m with marks := m.marks.filter (fun x => x != w) }

/-- Markers of k 8-byte words from word w, as bits. -/
def Mem.marksAt (m : Mem) (w : Nat) : Nat → Nat
  | 0 => 0
  | k + 1 => Mem.marksAt m w k + (if m.marks.contains (w + k) then 2 ^ k else 0)

/-- A marker on any word that the n bytes from a touch (R91). -/
def Mem.marked (m : Mem) (a n : Nat) : Bool := m.marks.any (fun w => decide (w * 8 < a + n) && decide (a < w * 8 + 8))

/-- Bytes j < k of one word written where the mask has a one. -/
def Mem.putBytes (m : Mem) (a data mask : Nat) : Nat → Mem
  | 0 => m
  | k + 1 =>
    let m' := Mem.putBytes m a data mask k
    if mask.testBit k then m'.put (a + k) (BitVec.ofNat 8 (data >>> (8 * k))) else m'

/-- A byte-masked write of one 8-byte word: a marked write sets the marker, a whole unmarked one clears it (R91, R341). -/
def Mem.putWord (m : Mem) (w data mask : Nat) (bad : Bool) : Mem :=
  let m' := Mem.putBytes m (w * 8) data mask 8
  if mask % 256 = 0 then m' else if bad then m'.mark w else if mask % 256 = 255 then m'.unmark w else m'

/-- A byte-masked write of k words from word w. -/
def Mem.merge (m : Mem) (w data mask marks : Nat) : Nat → Mem
  | 0 => m
  | k + 1 => (Mem.merge m w data mask marks k).putWord (w + k) (data >>> (64 * k)) ((mask >>> (8 * k)) % 256) (marks.testBit k)

/-- n bytes written from a. A poisoned write marks every word it touches (R91). -/
def Mem.write (m : Mem) (a n data : Nat) (bad : Bool) : Mem :=
  let r := a % 8
  let k := (r + n + 7) / 8
  Mem.merge m (a / 8) (data <<< (8 * r)) (ones n <<< r) (if bad then ones k else 0) k

/-- The bytes that are listed among n from lo replaced, by their place. -/
def Mem.blur (m : Mem) (lo n : Nat) (f : Nat → Byte) : Mem :=
  (m.cells.filter (fun c => decide (lo ≤ c.1) && decide (c.1 < lo + n))).foldl (fun m c => m.put c.1 (f (c.1 - lo))) m

/-! Geometry. -/

def dieX (d : Nat) : Nat := d % 16
def dieY (d : Nat) : Nat := d / 16 % 32
def dieZ (d : Nat) : Nat := d / 512
def dieAt (x y z : Nat) : Nat := x + 16 * y + 512 * z

/-- The package of a die (R398). -/
def pkgOf (d : Nat) : Nat := dieX d / 2 + 8 * (dieY d / 2) + 128 * (dieZ d / 2)

/-- The number of a die within its package (R398). -/
def localDie (d : Nat) : Nat := dieX d % 2 + 2 * (dieY d % 2) + 4 * (dieZ d % 2)

/-- Local die k of a package (R398). -/
def pkgDie (p k : Nat) : Nat := dieAt (2 * (p % 8) + k % 2) (2 * (p / 8 % 16) + k / 2 % 2) (2 * (p / 128) + k / 4 % 2)

/-- Keys of the units a bank belongs to. -/
def bankCore (b : Nat) : Nat := b / 2
def bankCluster (b : Nat) : Nat := b / 8
def bankDie (b : Nat) : Nat := b / 128
def coreOnDie (b : Nat) : Nat := b / 2 % 64
def partner (b : Nat) : Nat := if b % 2 = 0 then b + 1 else b - 1
def bankOf (die core bank : Nat) : Nat := die * 128 + core * 2 + bank

/-! Units of the state. -/

def State.bank (s : State) (b : Nat) : Bank := s.banks.get Bank.reset b
def State.setBank (s : State) (b : Nat) (v : Bank) : State := { s with banks := s.banks.set b v }
def State.modBank (s : State) (b : Nat) (f : Bank → Bank) : State := s.setBank b (f (s.bank b))
def State.core (s : State) (k : Nat) : Core := s.cores.get Core.reset k
def State.setCore (s : State) (k : Nat) (v : Core) : State := { s with cores := s.cores.set k v }
def State.modCore (s : State) (k : Nat) (f : Core → Core) : State := s.setCore k (f (s.core k))
def State.cluster (s : State) (k : Nat) : Cluster := s.clusters.get Cluster.reset k
def State.setCluster (s : State) (k : Nat) (v : Cluster) : State := { s with clusters := s.clusters.set k v }
def State.modCluster (s : State) (k : Nat) (f : Cluster → Cluster) : State := s.setCluster k (f (s.cluster k))
def State.die (s : State) (d : Nat) : Die := s.dies.get Die.reset d
def State.setDie (s : State) (d : Nat) (v : Die) : State := { s with dies := s.dies.set d v }
def State.modDie (s : State) (d : Nat) (f : Die → Die) : State := s.setDie d (f (s.die d))
def State.hub (s : State) (p : Nat) : Hub := s.hubs.get Hub.reset p
def State.setHub (s : State) (p : Nat) (v : Hub) : State := { s with hubs := s.hubs.set p v }
def State.modHub (s : State) (p : Nat) (f : Hub → Hub) : State := s.setHub p (f (s.hub p))

/-! Free values (R9). -/

/-- The i-th undefined value of this step. -/
def State.freeWord (s : State) (w i : Nat) : BitVec w := Config.free w (s.freeCtr * 4096 + i)
def State.freeBit (s : State) (i : Nat) : Bool := Config.freeBool (s.freeCtr * 4096 + i)
/-- The next step's undefined values are fresh. -/
def State.spend (s : State) : State := { s with freeCtr := s.freeCtr + 1 }

/-- What an agent outside the banks has read last, with the markers of its words. -/
def State.reads (s : State) (data : List Byte) (marks : Nat) : State := { s with lastRead := data, lastMarks := marks }

/-! Control-space registers of a die, by offset from 2^40 (R351, R412, R436), with their reset values. -/

def dieRegReset (k : Nat) : W64 :=
  if k = 0x10030 then 24 else if k = 0x100000 then 0x211 else if k = 0x100010 then 0x14 else 0

def Die.reg (d : Die) (k : Nat) : W64 := d.regs.get (dieRegReset k) k
def Die.setReg (d : Die) (k : Nat) (v : W64) : Die := { d with regs := d.regs.set k v }

/-- Extents of the domain from a die's FDOM (R436). -/
def Die.dims (d : Die) : Nat × Nat × Nat :=
  let f := d.reg 0x100000
  (fld f 0 4 + 1, fld f 4 5 + 1, fld f 9 5 + 1)

/-- Die t is present in the domain, as die d's FDOM gives its shape (R330). -/
def State.diePresent (s : State) (d t : Nat) : Bool :=
  let (dx, dy, dz) := (s.die d).dims
  decide (dieX t < dx) && decide (dieY t < dy) && decide (dieZ t < dz)

/-- Whether the minimal way from a to b on a ring of length l is positive; a tie is positive. -/
def goesUp (a b l : Nat) : Bool := decide ((b + l - a) % l ≤ (a + l - b) % l)

/-- The first hop of the dimension-ordered minimal path (R342, R444). -/
def firstHop (dims : Nat × Nat × Nat) (a b : Nat) : Nat :=
  if dieX a ≠ dieX b then (if goesUp (dieX a) (dieX b) dims.1 then 0 else 1)
  else if dieY a ≠ dieY b then (if goesUp (dieY a) (dieY b) dims.2.1 then 2 else 3)
  else (if goesUp (dieZ a) (dieZ b) dims.2.2 then 4 else 5)

/-! HBM (R349, R350). -/

/-- ECCLOG with one more corrected error. -/
def eccCorrected (v : W64) : W64 := if fld v 0 16 = 0xFFFF then v else putFld v 0 16 (fld v 0 16 + 1)

/-- ECCLOG with one more uncorrectable error at an address of the source src. -/
def eccUncorrectable (v : W64) (src addr : Nat) : W64 :=
  let n := fld v 16 8
  putFld (putFld (putFld (putFld v 16 8 (if n = 255 then 255 else n + 1)) 24 1 1) 25 3 src) 28 36 (addr >>> 3)

/-- ECCLOG's code of a source (R351). -/
def SoftAt.code : SoftAt → Nat
  | .hbm => 0
  | .msc | .replica => 1
  | .gateway => 2

/-- A read meets a word's soft error, if it has one: it is corrected, or recorded as uncorrectable (R350). -/
def Die.meetSoft (d : Die) (p : SoftAt) (w : Nat) : Die × Bool :=
  match d.soft.find? (fun e => e.at_ == p && e.word == w) with
  | none => (d, false)
  | some e =>
    let d := { d with soft := d.soft.filter (fun x => !(x.at_ == p && x.word == w)) }
    if e.unc then (d.setReg 0x10020 (eccUncorrectable (d.reg 0x10020) p.code (8 * w % 2 ^ 42)), true)
    else (d.setReg 0x10020 (eccCorrected (d.reg 0x10020)), false)

/-- The soft errors of k words from word w met by a read: the uncorrectable ones, as a mask. -/
def Die.meetWords (d : Die) (p : SoftAt) (w : Nat) : Nat → Die × Nat
  | 0 => (d, 0)
  | k + 1 =>
    let (d, m) := d.meetWords p w k
    let (d, bad) := d.meetSoft p (w + k)
    (d, m + (if bad then 2 ^ k else 0))

/-- The soft errors of a 256-byte line's words met by a read. -/
def Die.meetLine (d : Die) (p : SoftAt) (line : Nat) : Die × BitVec 32 :=
  if d.soft.isEmpty then (d, 0) else
  let (d, m) := d.meetWords p (line * 32) 32
  (d, BitVec.ofNat 32 m)

/-- The soft errors of those words of a line that a byte mask covers whole are gone: the words are rewritten. -/
def Die.clearSoft (d : Die) (p : SoftAt) (line mask : Nat) : Die :=
  if d.soft.isEmpty then d else
  { d with soft := d.soft.filter (fun e => !(e.at_ == p && e.word / 32 == line && (mask >>> (8 * (e.word % 32))) % 256 == 255)) }

/-- The soft errors of k HBM words from word w met by a read: corrected and written back, or marked (R350). -/
def Die.scan (d : Die) (w : Nat) : Nat → Die
  | 0 => d
  | k + 1 =>
    let (d, bad) := (d.scan w k).meetSoft .hbm (w + k)
    if bad then { d with hbm := d.hbm.mark (w + k) } else d

/-! Memory-side cache. -/

/-- The slice of an HBM offset (R336). -/
def mscSlice (o : Nat) : Nat := (o >>> 8 ^^^ o >>> 12 ^^^ o >>> 16 ^^^ o >>> 20) % 16

/-- The slice and set of a line address. DESIGN CHOICE (log 11): the set is offset bits [23:12]; no result depends on it. -/
def mscSet (line : Nat) : Nat := mscSlice (line * 256) * 4096 + line / 16 % 4096

/-- A line's dirty bytes written into HBM, with its markers (R341). -/
def Die.drain (d : Die) (l : MscLine) : Die :=
  let (d, m) := d.meetLine .msc l.line
  let d := d.clearSoft .hbm l.line l.dirty.toNat
  { d with hbm := d.hbm.merge (l.line * 32) l.data.toNat l.dirty.toNat (l.marks ||| m).toNat 32 }

/-- The slice and set of a replica: the local slice is o[11:8] of its address (R345). -/
def repSet (line : Nat) : Nat := line % 16 * 4096 + line / 16 % 4096

/-- The replicas that stand in the ways of a set, the oldest first (R345). -/
def Die.replicaSet (d : Die) (set : Nat) : List GwLine := d.replicas.filter (fun g => repSet g.line == set)

/-- The lines of a set whose home is the die. -/
def Die.homeSet (d : Die) (set : Nat) : List MscLine := d.msc.filter (fun l => mscSet l.line == set)

def Die.dropReplica (d : Die) (line : Nat) : Die := { d with replicas := d.replicas.filter (fun g => g.line != line) }

/-- A line evicted: its dirty bytes reach HBM, byte by byte (R339). -/
def Die.evict (d : Die) (v : MscLine) : Die := { d.drain v with msc := d.msc.filter (fun l => l.line != v.line) }

/-- Room for one more line in the 12 ways of a line's set: the first victim of the set leaves first, then a replica, then the set's oldest
line (R336, R339, R345). -/
def Die.makeRoom (d : Die) (line : Nat) : Die :=
  let d := d.clearSoft .msc line (ones 256)
  let set := d.homeSet (mscSet line)
  let reps := d.replicaSet (mscSet line)
  if set.length + reps.length < 12 then d else
  match set.find? (fun l => l.victim) with
  | some v => d.evict v
  | none =>
    match reps.head? with
    | some g => d.dropReplica g.line
    | none => match set.head? with
      | some v => d.evict v
      | none => d

def Die.mscFind (d : Die) (line : Nat) : Option MscLine := d.msc.find? (fun l => l.line == line)

def Die.mscPut (d : Die) (l : MscLine) : Die :=
  if d.msc.any (fun x => x.line == l.line) then { d with msc := d.msc.map (fun x => if x.line == l.line then l else x) }
  else { d with msc := d.msc ++ [l] }

def MscLine.empty (line : Nat) : MscLine := ⟨line, 0, 0, 0, 0, 0, false, false⟩

/-- The 8-byte words of a byte mask that are whole, and those with some byte, as bits. -/
def wholeWords (mask : Nat) : Nat → Nat
  | 0 => 0
  | k + 1 => wholeWords mask k + (if (mask >>> (8 * k)) % 256 = 255 then 2 ^ k else 0)
def someWords (mask : Nat) : Nat → Nat
  | 0 => 0
  | k + 1 => someWords mask k + (if (mask >>> (8 * k)) % 256 = 0 then 0 else 2 ^ k)

/-- The bytes of a line that are not valid filled from HBM (R337), with the markers of the words they stand in. -/
def Die.fillLine (d : Die) (l : MscLine) : Die × MscLine :=
  if l.valid = BitVec.ofNat 256 (ones 256) then (d, l) else
  let d := d.scan (l.line * 32) 32
  let mask := BitVec.ofNat 2048 (expand l.valid.toNat 256)
  let raw := BitVec.ofNat 2048 (d.hbm.load (l.line * 256) 256)
  (d, { l with data := mergeBits raw l.data mask, valid := BitVec.ofNat 256 (ones 256),
               marks := l.marks ||| (BitVec.ofNat 32 (d.hbm.marksAt (l.line * 32) 32) &&& ~~~(BitVec.ofNat 32 (wholeWords l.valid.toNat 32))) })

/-- A line of the MSC as a read finds it: the soft errors in it are met first (R350). -/
def Die.meetMsc (d : Die) (l : MscLine) : Die × MscLine :=
  let (d, m) := d.meetLine .msc l.line
  (d, { l with marks := l.marks ||| m })

/-- A read request to one line at home: the line after the fill, and use counting (R337 to R339). -/
def Die.readLine (d : Die) (line use : Nat) (dead : Bool) : Die × MscLine :=
  match d.mscFind line with
  | none =>
    let (d, l) := (d.makeRoom line).fillLine (MscLine.empty line)
    let l' := { l with uc := use - 1, dead := dead && use != 0, victim := false }
    if use = 1 then
      (if dead then (d, l') else (d.mscPut { l' with victim := true }, l'))
    else (d.mscPut l', l')
  | some l =>
    let (d, l) := d.meetMsc l
    let (d, l) := d.fillLine l
    if l.uc = 0 then (d.mscPut l, l)
    else if l.uc = 1 then
      (if l.dead then ({ d with msc := d.msc.filter (fun x => x.line != line) }, l)
       else (d.mscPut { l with uc := 0, victim := true }, l))
    else (d.mscPut { l with uc := l.uc - 1 }, l)

/-- The line a bank ALU works on: filled, and uncounted (R337, R338). -/
def Die.touchLine (d : Die) (line : Nat) : Die × MscLine :=
  match d.mscFind line with
  | some l => let (d, l) := d.meetMsc l; let (d, l) := d.fillLine l; (d.mscPut l, l)
  | none => let (d, l) := (d.makeRoom line).fillLine (MscLine.empty line); (d.mscPut l, l)

/-- The markers of a home line's words as they stand, with no request made. -/
def Die.peekMarks (d : Die) (line : Nat) : Nat :=
  match d.mscFind line with
  | none => d.hbm.marksAt (line * 32) 32
  | some l => l.marks.toNat ||| (d.hbm.marksAt (line * 32) 32 &&& (ones 32 ^^^ wholeWords l.valid.toNat 32))

/-- The markers of the 8-byte words of n bytes at home. -/
def Die.wordMarks (d : Die) (off n : Nat) : Nat :=
  (List.range (ceilDiv n 8)).foldl (fun m i =>
    if (d.peekMarks ((off + 8 * i) / 256)).testBit ((off + 8 * i) % 256 / 8) then m + 2 ^ i else m) 0

/-- n bytes of one line read by a bank ALU. -/
def Die.aluRead (d : Die) (off n : Nat) : Die × Nat × Bool :=
  let (d, l) := d.touchLine (off / 256)
  (d, fld l.data (8 * (off % 256)) (8 * n), (l.marks.toNat >>> (off % 256 / 8)) % 2 ^ ((off % 8 + n + 7) / 8) != 0)

/-- The markers after a byte-masked write of k words: set where the write is marked, cleared where it is whole (R341). -/
def mergeMarks (old mask new : Nat) : Nat → Nat
  | 0 => 0
  | k + 1 =>
    let b := (mask >>> (8 * k)) % 256
    mergeMarks old mask new k +
      (if (b ≠ 0 && new.testBit k) || (old.testBit k && b ≠ 255) then 2 ^ k else 0)

/-- A byte-masked write of one line at home (R337). -/
def Die.writeLine (d : Die) (line data mask marks : Nat) : Die :=
  let (d, l) := match d.mscFind line with
    | some l => (d, l)
    | none => (d.makeRoom line, MscLine.empty line)
  let m := BitVec.ofNat 256 mask
  let d := d.clearSoft .msc line mask
  d.mscPut { l with data := mergeBits l.data (BitVec.ofNat 2048 data) (BitVec.ofNat 2048 (expand mask 256)),
                    valid := l.valid ||| m, dirty := l.dirty ||| m,
                    marks := BitVec.ofNat 32 (mergeMarks l.marks.toNat mask marks 32) }

/-- n bytes at home, line by line, one read request a line; fuel counts lines. -/
def Die.homeRead (d : Die) (off n use : Nat) (dead : Bool) : Nat → Die × Nat × Bool
  | 0 => (d, 0, false)
  | fuel + 1 =>
    if n = 0 then (d, 0, false) else
    let o := off % 256
    let k := min n (256 - o)
    let (d, l) := d.readLine (off / 256) use dead
    let v := fld l.data (8 * o) (8 * k)
    let bad := (expandMarks l.marks.toNat >>> o) % 2 ^ k != 0
    let (d, w, b) := Die.homeRead d (off + k) (n - k) use dead fuel
    (d, v + 256 ^ k * w, bad || b)
where
  /-- The bytes of the marked words of a line. -/
  expandMarks (m : Nat) : Nat := expand m 32

/-- n bytes written at home, line by line. -/
def Die.homeWrite (d : Die) (off n data : Nat) (bad : Bool) : Nat → Die
  | 0 => d
  | fuel + 1 =>
    if n = 0 then d else
    let o := off % 256
    let k := min n (256 - o)
    let d := d.writeLine (off / 256) ((data % 256 ^ k) <<< (8 * o)) (ones k <<< o)
      (if bad then (ones ((o % 8 + k + 7) / 8)) <<< (o / 8) else 0)
    Die.homeWrite d (off + k) (n - k) (data / 256 ^ k) bad fuel

def Die.read (d : Die) (off n : Nat) : Die × Nat × Bool := d.homeRead off n 0 false (n / 256 + 2)
def Die.write (d : Die) (off n data : Nat) (bad : Bool) : Die := d.homeWrite off n data bad (n / 256 + 2)

/-- n bytes written at home as k words of 8 bytes, the last of which may be shorter, each with its marker (R439). -/
def Die.writeWords (d : Die) (off n data marks : Nat) : Nat → Die
  | 0 => d
  | k + 1 => (Die.writeWords d off n data marks k).write (off + 8 * k) (min 8 (n - 8 * k)) (data / 2 ^ (64 * k) % 2 ^ 64) (marks.testBit k)

/-! Physical addresses: a domain address (R330), or host memory at hostBase plus a host physical address (R334). -/

def hostBase : Nat := 2 ^ 56
def paDie (pa : Nat) : Nat := pa / 2 ^ 42
def paOff (pa : Nat) : Nat := pa % 2 ^ 42

/-- The gateway copies and replicas of a line on a die, updated by a passing write-back (R343, R345). -/
def gwUpdate (ls : List GwLine) (cyc line : Nat) (data mask marks : Nat) : List GwLine :=
  ls.map (fun l => if l.line == line then
    let m := BitVec.ofNat 256 mask &&& l.valid
    { l with data := mergeBits l.data (BitVec.ofNat 2048 data) (BitVec.ofNat 2048 (expand m.toNat 256)),
             marks := BitVec.ofNat 32 (mergeMarks l.marks.toNat m.toNat marks 32), written := cyc } else l)

/-- A write at home is noted for the re-shards that a die has reported and that are in flight (R415). -/
def Die.noteWrite (d : Die) (line mask : Nat) : Die :=
  { d with reshards := d.reshards.map (fun r =>
      if r.inflight && r.reported then { r with wrote := r.wrote.set line (r.wrote.get 0 line ||| mask) } else r) }

/-- A byte-masked write of one 256-byte line of physical memory by die d, through its gateway (R340, R343). -/
def State.physWriteLine (s : State) (d line data mask marks : Nat) : State :=
  if hostBase ≤ line * 256 then
    { s with hostMem := s.hostMem.merge ((line * 256 - hostBase) / 8) data mask marks 32 }
  else
    let h := paDie (line * 256)
    let s := if h = d then s else s.modDie d (fun x =>
      let x := (x.clearSoft .gateway line mask).clearSoft .replica line mask
      { x with gw := x.gw.map (fun p => (p.1, gwUpdate p.2 s.cycle line data mask marks)),
               replicas := gwUpdate x.replicas s.cycle line data mask marks })
    s.modDie h (fun x => (x.noteWrite (paOff (line * 256) / 256) mask).writeLine (paOff (line * 256) / 256) data mask marks)

/-- A gateway read hits a line whose fill stamp is later than the bank's acquire stamp (R344). -/
def gwHit (ls : List GwLine) (line stamp : Nat) (need : Nat) : Option GwLine :=
  ls.find? (fun l => l.line == line && decide (stamp < l.stamp) && (l.valid.toNat &&& need) == need)

/-- A gateway line or replica with more words marked poisoned. -/
def markLine (line : Nat) (m : BitVec 32) (l : GwLine) : GwLine := if l.line = line then { l with marks := l.marks ||| m } else l

/-- A gateway takes a line read at home. A replica lives no longer than the gateway's copy of its line, so that no read finds in it a
version older than one that the die has already had (R345, R358). -/
def Die.gwFill (d : Die) (port : Nat) (new : GwLine) : Die :=
  let kept := (d.gw.get [] port).filter (fun g => g.line != new.line)
  let d := d.dropReplica new.line
  let (d, kept) := if kept.length < 16384 then (d, kept) else
    (match kept.head? with | some g => d.dropReplica g.line | none => d, kept.drop 1)
  { d with gw := d.gw.set port (kept ++ [new]) }

/-- The copies of a line that a die's gateways and slices hold are dropped. -/
def Die.dropCopies (d : Die) (line : Nat) : Die :=
  { d.dropReplica line with gw := d.gw.map (fun p => (p.1, p.2.filter (fun g => g.line != line))) }

/-- A read of one 256-byte line of physical memory by a bank: the state, the line's data and markers, and the cycle
its bytes were read at home. The bytes in `need` are wanted. -/
def State.physReadLine (s : State) (b line need use : Nat) (dead : Bool) : State × Elem × BitVec 32 × Nat :=
  let d := bankDie b
  if hostBase ≤ line * 256 then
    (s, BitVec.ofNat 2048 (s.hostMem.load (line * 256 - hostBase) 256),
      BitVec.ofNat 32 (s.hostMem.marksAt ((line * 256 - hostBase) / 8) 32), s.cycle)
  else
    let h := paDie (line * 256)
    if h = d then
      let (x, l) := (s.die d).readLine (paOff (line * 256) / 256) use dead
      (s.setDie d x, l.data, l.marks, s.cycle)
    else
      let stamp := (s.bank b).stamp
      match gwHit (s.die d).replicas line stamp need with
      | some l =>
        let (x, m) := (s.die d).meetLine .replica line
        (s.setDie d { x with replicas := x.replicas.map (markLine line m) }, l.data, l.marks ||| m, l.stamp)
      | none =>
        let port := firstHop (s.die d).dims d h
        let ls := (s.die d).gw.get [] port
        match gwHit ls line stamp need with
        | some l =>
          let (x, m) := (s.die d).meetLine .gateway line
          (s.setDie d { x with gw := x.gw.set port (ls.map (markLine line m)) }, l.data, l.marks ||| m, l.stamp)
        | none =>
          let (x, l) := (s.die h).readLine (paOff (line * 256) / 256) use dead
          let s := s.setDie h x
          let new : GwLine := ⟨line, l.data, BitVec.ofNat 256 (ones 256), l.marks, s.cycle, 0⟩
          (s.modDie d (fun y => (y.clearSoft .gateway line (ones 256)).gwFill port new), l.data, l.marks, s.cycle)

/-! The L1 (R168, R169). -/

/-- Two accesses of an 8-byte word fall into one phase of both cores (R106). -/
def State.onePhase (s : State) (c d t : Nat) : Bool :=
  c != d && decide ((s.core c).phaseAt ≤ t) && decide ((s.core d).phaseAt ≤ t)

/-- The bytes of a 64-byte line, of those in a mask, that another core than k wrote in the same phase: by atomics, or by plain stores that
have left its L1 (R106). -/
def State.racedBytes (s : State) (k line mask : Nat) (plain : Bool) : Nat :=
  (List.range 8).foldl (fun n i =>
    (s.atomics.get [] (8 * line + i)).foldl (fun n (x : Nat × Nat × Nat × Bool) =>
      if x.2.2.2 == plain && s.onePhase k x.1 x.2.1 then n ||| ((x.2.2.1 <<< (8 * i)) &&& mask) else n) n) 0

/-- An access of core k to bytes of one word noted for the rest of its phase; what older phases of their cores noted there is forgotten. -/
def State.noteRace (s : State) (k word mask : Nat) (plain : Bool) : State :=
  let old := (s.atomics.get [] word).filter (fun (x : Nat × Nat × Nat × Bool) =>
    decide ((s.core x.1).phaseAt ≤ x.2.1) && !(x.1 == k && x.2.2.1 == mask && x.2.2.2 == plain))
  { s with atomics := s.atomics.set word (old ++ [(k, s.cycle, mask, plain)]) }

/-- The plain stores of core k that leave its L1 with a line before its phase ends (R106). -/
def State.notePlain (s : State) (k : Nat) (l : L1Line) : State :=
  let m := (l.plain &&& l.dirty).toNat
  if m = 0 then s else
  (List.range 8).foldl (fun (s : State) i =>
    if m >>> (8 * i) % 256 = 0 then s else s.noteRace k (8 * l.line + i) (m >>> (8 * i) % 256) true) s

/-- The dirty bytes of a line, of those in a mask, that stand in the L1 of another core than k come to hold an undefined value: of those
that plain stores wrote alone, or of any (R106). -/
def State.spoilLines (s : State) (k line : Nat) (mask : BitVec 64) (plain : Bool) : State :=
  if mask = 0 then s else
  { s with cores := s.cores.map (fun x => if x.1 = k then x else (x.1, { x.2 with l1 := x.2.l1.map (fun l =>
      if l.line = line then { l with raced := l.raced ||| (mask &&& l.dirty &&& (if plain then l.plain else l.dirty)) } else l) })) }

/-- One L1 line's dirty bytes written back. Bytes that an atomic of another core raced come to hold an undefined value (R9, R106). -/
def State.l1Drain (s : State) (d : Nat) (l : L1Line) : State :=
  if l.dirty = 0 then s else
  let sh := l.line % 4
  let raced := l.raced &&& l.dirty
  let put := fun (s : State) (data : Nat) =>
    s.physWriteLine d (l.line / 4) (data <<< (512 * sh)) (l.dirty.toNat <<< (64 * sh)) (l.marks.toNat <<< (8 * sh))
  if raced = 0 then put s l.data.toNat
  else put s.spend (mergeBits l.data (s.freeWord 512 200) (BitVec.ofNat 512 (expand raced.toNat 64))).toNat

/-- A clean victim of a remote home copied into the local slice, at most VRWAYS to a set, where the set's 12 ways leave room or the set
has a first victim (R339, R345). One whose gateway copy is gone, or was filled or written after the victim's own fill, is not kept: a
replica may leave at any time, and no read may go backwards (R358). -/
def State.replicate (s : State) (d : Nat) (l : L1Line) : State :=
  let cfg := (s.die d).reg 0x10010
  let line := l.line / 4
  let port := firstHop (s.die d).dims d (paDie (l.line * 64))
  let newest := ((s.die d).gw.get [] port).any (fun g => g.line == line && decide (g.stamp ≤ l.stamp) && decide (g.written ≤ l.stamp))
  if !cfg.getLsbD 0 || fld cfg 1 3 == 0 || l.dirty != 0 || decide (hostBase ≤ l.line * 64) || decide (paDie (l.line * 64) = d) || !newest
  then s else
  let sh := l.line % 4
  let x := (s.die d).dropReplica line
  let set := x.replicaSet (repSet line)
  let home := x.homeSet (repSet line)
  let full := decide (12 ≤ home.length + set.length)
  let victim := if full && decide (set.length < fld cfg 1 3) then home.find? (fun l => l.victim) else none
  if full && set.isEmpty && victim.isNone then s else
  let x := match victim, set.head? with
    | some v, _ => x.evict v
    | none, some g => if full || decide (fld cfg 1 3 ≤ set.length) then x.dropReplica g.line else x
    | none, none => x
  let new : GwLine := ⟨line, BitVec.ofNat 2048 (l.data.toNat <<< (512 * sh)), BitVec.ofNat 256 (l.valid.toNat <<< (64 * sh)),
    BitVec.ofNat 32 (l.marks.toNat <<< (8 * sh)), l.stamp, 0⟩
  s.setDie d { (x.clearSoft .replica line (ones 256)) with replicas := x.replicas ++ [new] }

def l1Find (ls : List L1Line) (line : Nat) : Option L1Line := ls.find? (fun l => l.line == line)

def l1Put (ls : List L1Line) (l : L1Line) : List L1Line :=
  if ls.any (fun x => x.line == l.line) then ls.map (fun x => if x.line == l.line then l else x) else ls ++ [l]

/-- Room for a line in its set of 10 ways. The set is the line address modulo 1,024 and the oldest line leaves
(DESIGN CHOICE, log 11: R168 leaves the choice open). -/
def State.l1Room (s : State) (b line : Nat) : State :=
  let ls := (s.core (bankCore b)).l1
  if ls.any (fun l => l.line == line) then s else
  let set := ls.filter (fun l => l.line % 1024 == line % 1024)
  if set.length < 10 then s else
  match set.head? with
  | none => s
  | some v =>
    let s := (((s.notePlain (bankCore b) v).l1Drain (bankDie b) v).replicate (bankDie b) v)
    s.modCore (bankCore b) (fun c => { c with l1 := c.l1.filter (fun l => l.line != v.line) })

/-- A bank may read the bytes of an L1 line: they are valid, and a clean one of a remote home was read there after the bank's acquire
stamp, though the partner bank filled it (R344, R360). -/
def State.l1Hit (s : State) (b : Nat) (l : L1Line) (need : Nat) : Bool :=
  let home := l.line * 64
  (l.valid.toNat &&& need) == need &&
  (decide (hostBase ≤ home) || paDie home == bankDie b || decide ((s.bank b).stamp < l.stamp) || (l.dirty.toNat &&& need) == need)

/-- The bytes of a line that a fill leaves as they are: the dirty ones and the words that are valid whole. A word that is valid in part is
read anew but for its dirty bytes, so that it is never old in part (R168, R353). A line that the bank's acquire stamp rules out keeps its
dirty bytes alone (R344, R360). -/
def State.filled (s : State) (b : Nat) (l : L1Line) : BitVec 64 :=
  let home := l.line * 64
  if decide (hostBase ≤ home) || paDie home == bankDie b || decide ((s.bank b).stamp < l.stamp) then
    l.dirty ||| BitVec.ofNat 64 (expand (wholeWords l.valid.toNat 8) 8)
  else l.dirty

/-- The L1 line of a 64-byte line address with the needed bytes valid: those that are not are filled from home, and
dirty bytes are left untouched (R168). -/
def State.l1Fill (s : State) (b line need use : Nat) (dead : Bool) : State × L1Line :=
  let l := (l1Find (s.core (bankCore b)).l1 line).getD ⟨line, 0, 0, 0, 0, 0, 0, 0⟩
  if s.l1Hit b l need then (s, l) else
  let sh := line % 4
  let kept := s.filled b l
  let (s, data, marks, stamp) := (s.l1Room b line).physReadLine b (line / 4) (ones 64 <<< (64 * sh)) use dead
  let fresh := BitVec.ofNat 8 (marks.toNat >>> (8 * sh)) &&& ~~~(BitVec.ofNat 8 (wholeWords kept.toNat 8))
  let l' : L1Line :=
    { l with data := mergeBits (BitVec.ofNat 512 (data.toNat >>> (512 * sh))) l.data (BitVec.ofNat 512 (expand kept.toNat 64)),
             valid := BitVec.ofNat 64 (ones 64), marks := (l.marks &&& BitVec.ofNat 8 (someWords kept.toNat 8)) ||| fresh,
             stamp := if kept &&& ~~~l.dirty = 0 then stamp else min l.stamp stamp }
  (s.modCore (bankCore b) (fun c => { c with l1 := l1Put c.l1 l' }), l')

/-- n bytes of cached memory through the core's L1, line by line. -/
def State.l1Read (s : State) (b pa n use : Nat) (dead : Bool) : Nat → State × Nat × Bool
  | 0 => (s, 0, false)
  | fuel + 1 =>
    if n = 0 then (s, 0, false) else
    let o := pa % 64
    let k := min n (64 - o)
    let (s, l) := s.l1Fill b (pa / 64) (ones k <<< o) use dead
    let v := fld l.data (8 * o) (8 * k)
    let bad := (expand l.marks.toNat 8 >>> o) % 2 ^ k != 0
    let (s, w, b') := State.l1Read s b (pa + k) (n - k) use dead fuel
    (s, v + 256 ^ k * w, bad || b')

/-- The markers that the words of a 64-byte line carry at home, which a store of part of a word leaves in place (R91). -/
def State.homeMarks (s : State) (line : Nat) : Nat :=
  if hostBase ≤ line * 64 then s.hostMem.marksAt ((line * 64 - hostBase) / 8) 8
  else (s.die (paDie (line * 64))).peekMarks (paOff (line * 64) / 256) >>> (8 * (line % 4)) % 256

/-- n bytes written through the core's L1, by a plain store or an atomic: the line is allocated without a fetch, and the bytes become
valid and dirty. What a store of one kind races with accesses of the other kind in their phase is undefined on both sides (R106). -/
def State.l1Store (s : State) (b pa n data : Nat) (bad plain : Bool) : Nat → State
  | 0 => s
  | fuel + 1 =>
    if n = 0 then s else
    let o := pa % 64
    let k := min n (64 - o)
    let s := s.l1Room b (pa / 64)
    let l := (l1Find (s.core (bankCore b)).l1 (pa / 64)).getD ⟨pa / 64, 0, 0, 0, 0, s.cycle, 0, 0⟩
    let m := BitVec.ofNat 64 (ones k <<< o)
    let known := if someWords m.toNat 8 = wholeWords m.toNat 8 then 0 else s.homeMarks (pa / 64) &&& (255 ^^^ wholeWords l.valid.toNat 8)
    let new := if bad then (ones ((o % 8 + k + 7) / 8)) <<< (o / 8) else 0
    let raced := BitVec.ofNat 64 (s.racedBytes (bankCore b) (pa / 64) m.toNat (!plain))
    let l' : L1Line :=
      { l with data := mergeBits l.data (BitVec.ofNat 512 ((data % 256 ^ k) <<< (8 * o))) (BitVec.ofNat 512 (expand m.toNat 64)),
               valid := l.valid ||| m, dirty := l.dirty ||| m,
               marks := BitVec.ofNat 8 (mergeMarks (l.marks.toNat ||| (known &&& someWords m.toNat 8)) m.toNat new 8),
               raced := (if plain then l.raced &&& ~~~m else l.raced) ||| raced, plain := if plain then l.plain ||| m else l.plain }
    let s := if plain then s.spoilLines (bankCore b) (pa / 64) raced false else s
    State.l1Store (s.modCore (bankCore b) (fun c => { c with l1 := l1Put c.l1 l' })) b (pa + k) (n - k) (data / 256 ^ k) bad plain fuel

/-- n bytes stored through the core's L1 by a plain store. -/
def State.l1Write (s : State) (b pa n data : Nat) (bad : Bool) (fuel : Nat) : State := s.l1Store b pa n data bad true fuel

/-- A line whose dirty bytes within a mask have been written back: they stay valid and become clean (R108), but for those whose value at
home is now another (R106). -/
def L1Line.cleaned (l : L1Line) (mask : BitVec 64) : L1Line :=
  { l with dirty := l.dirty &&& ~~~mask, valid := l.valid &&& ~~~(l.raced &&& l.dirty &&& mask), raced := l.raced &&& ~~~mask,
           plain := l.plain &&& ~~~mask }

/-- Every dirty byte of the lines that satisfy p written back; the lines stay valid and become clean (R108). -/
def State.l1CleanWhere (s : State) (k : Nat) (p : L1Line → Bool) : State :=
  let ls := (s.core k).l1
  let s := ls.foldl (fun s l => if p l then s.l1Drain (k / 64) l else s) s
  s.modCore k (fun c => { c with l1 := c.l1.map (fun l => if p l then l.cleaned l.dirty else l) })

/-- A line with the given bytes valid and dirty; a word with no valid byte left has no marker. -/
def L1Line.keepBytes (l : L1Line) (valid dirty : BitVec 64) : L1Line :=
  { l with valid := valid, dirty := dirty, marks := l.marks &&& BitVec.ofNat 8 (someWords valid.toNat 8), raced := l.raced &&& dirty,
           plain := l.plain &&& dirty }

/-- Clean bytes of a line within a mask invalidated; dirty bytes are kept (R108). -/
def L1Line.dropClean (l : L1Line) (mask : BitVec 64) : L1Line := l.keepBytes (l.valid &&& (~~~mask ||| l.dirty)) l.dirty

/-- Every byte of a line within a mask invalidated, dirty or clean (R169). -/
def L1Line.dropAll (l : L1Line) (mask : BitVec 64) : L1Line :=
  l.keepBytes (l.valid &&& ~~~mask) (l.dirty &&& ~~~mask)

/-- The L1 with a line operation applied to every line; a line with no valid byte is freed. -/
def Core.l1Map (c : Core) (f : L1Line → L1Line) : Core :=
  { c with l1 := (c.l1.map f).filter (fun l => l.valid != 0) }

/-- The bytes of line l that lie in the physical range [pa, pa + n). -/
def lineMask (line pa n : Nat) : BitVec 64 :=
  let lo := max pa (line * 64)
  let hi := min (pa + n) (line * 64 + 64)
  if lo < hi then BitVec.ofNat 64 (ones (hi - lo) <<< (lo - line * 64)) else 0

/-- A read of physical memory at home, past the L1 (uncached readers: refills, walks, records): n bytes for a bank. -/
def State.physRead (s : State) (b pa n use : Nat) (dead : Bool) : Nat → State × Nat × Bool
  | 0 => (s, 0, false)
  | fuel + 1 =>
    if n = 0 then (s, 0, false) else
    let o := pa % 256
    let k := min n (256 - o)
    let (s, data, marks, _) := s.physReadLine b (pa / 256) (ones k <<< o) use dead
    let v := fld data (8 * o) (8 * k)
    let bad := (expand marks.toNat 32 >>> o) % 2 ^ k != 0
    let (s, w, b') := State.physRead s b (pa + k) (n - k) use dead fuel
    (s, v + 256 ^ k * w, bad || b')

/-- A write of physical memory at home by die d, past every L1. -/
def State.physWrite (s : State) (d pa n data : Nat) (bad : Bool) : Nat → State
  | 0 => s
  | fuel + 1 =>
    if n = 0 then s else
    let o := pa % 256
    let k := min n (256 - o)
    let s := s.physWriteLine d (pa / 256) ((data % 256 ^ k) <<< (8 * o)) (ones k <<< o)
      (if bad then (ones ((o % 8 + k + 7) / 8)) <<< (o / 8) else 0)
    State.physWrite s d (pa + k) (n - k) (data / 256 ^ k) bad fuel

/-- A read at the home itself, past gateways and replicas: the latest member of the coherence order (R357). -/
def State.homeLoad (s : State) (pa n : Nat) : State × Nat × Bool :=
  if hostBase ≤ pa then (s, s.hostMem.load (pa - hostBase) n, s.hostMem.marked (pa - hostBase) n)
  else
    let (d, v, bad) := (s.die (paDie pa)).read (paOff pa) n
    (s.setDie (paDie pa) d, v, bad)

/-- The memory that a host-physical address names: a die's HBM where the host has mapped HDM range 0 there (R419), and otherwise
host memory (log 30). -/
def State.hostPa (s : State) (a : Nat) : Nat :=
  match s.hdm.find? (fun h => decide (h.1 ≤ a) && decide (a < h.1 + 2 ^ 39)) with
  | some h => pkgDie h.2 ((a - h.1) / 2 ^ 36) * 2 ^ 42 + (a - h.1) % 2 ^ 36
  | none => hostBase + a

/-- n bytes written at a host-physical address, at home. -/
def State.hostWrite (s : State) (a n data : Nat) : State :=
  s.physWrite (paDie (s.hostPa a)) (s.hostPa a) n data false (n / 256 + 2)

end Sys2Proof.Machine
end

