-- ==== Sys2Proof/Machine/Path.lean ====
section
/-! DEFINITION. The path an effective address takes: the local window (R96, R165), the aperture table (R331, R333),
paged translation (R334, R335) with its translation buffer and page requests (R394), and the targets of a domain
address (R330). -/

namespace Sys2Proof.Machine

/-! The scratchpad range of a job (R165, R377). -/

def Job.spBase (j : Job) : Nat := fld j.record 331 7 * 4096
def Job.spSize (j : Job) : Nat := (fld j.record 338 7 + 1) * 4096

/-- The n bytes from a lie in the job's scratchpad range. -/
def Job.inRange (j : Job) (a n : Nat) : Bool := decide (j.spBase ≤ a) && decide (a + n ≤ j.spBase + j.spSize)

/-- A live job: placed on the bank and not yet freed. -/
def Bank.live (bk : Bank) : Bool := bk.job.isSome

def Bank.inRange (bk : Bank) (a n : Nat) : Bool :=
  match bk.job with
  | some j => j.inRange a n
  | none => false

def Bank.seq (bk : Bank) : Nat :=
  match bk.job with
  | some j => j.seq
  | none => 0

/-- Scratchpad byte o of core k of the cluster lies in the range of a live job of the launch on that core (R165). -/
def State.cspAllowed (s : State) (b coreKey off n : Nat) : Bool :=
  [2 * coreKey, 2 * coreKey + 1].any (fun b' =>
    (s.bank b').live && (s.bank b').seq == (s.bank b).seq && (s.bank b').inRange off n)

/-- Every byte of a block checked on its own, so a block may lie across two partner ranges. -/
def State.cspAllowedBytes (s : State) (b coreKey off : Nat) : Nat → Bool
  | 0 => true
  | n + 1 => State.cspAllowedBytes s b coreKey off n && s.cspAllowed b coreKey (off + n) 1

/-! Aperture entries (R331). -/

def apValid (e : BitVec 128) : Bool := e.getLsbD 0
def apPaged (e : BitVec 128) : Bool := fld e 1 2 == 1
def apRO (e : BitVec 128) : Bool := e.getLsbD 3
def apLocal (e : BitVec 128) : Bool := e.getLsbD 4
def apSize (e : BitVec 128) : Nat := fld e 5 6
def apBase (e : BitVec 128) : Nat := fld e 21 27 * 2 ^ 21
def apTarget (e : BitVec 128) : Nat := fld e 64 35 * 2 ^ 21
def apRoot (e : BitVec 128) : Nat := fld e 64 45 * 2 ^ 11

/-- The entry that holds an address (R333): at most one matches. -/
def apFind (es : List (BitVec 128)) (ea : Nat) : Option (BitVec 128) :=
  es.find? (fun e => apValid e && decide (apBase e ≤ ea) && decide (ea < apBase e + 2 ^ apSize e))

/-! Paged translation. -/

/-- The outcome of translating one byte address. An absent page may be present but not writable: `here`. -/
inductive TrRes where
  | pa (a : Nat) (leaf : W64) (paged : Bool)
  | miss
  | ro
  | absent (root : Nat) (here : Bool)
  deriving DecidableEq, Repr

/-- Table entry of level n, 1 to 4, for a virtual address (R334). -/
def levelIndex (va n : Nat) : Nat := va >>> (48 - 8 * n) % 256

/-- An entry of levels 1 to 3 that leads on: present and with no reserved bit. -/
def nodeOk (e : W64) : Bool := e.getLsbD 0 && fld e 1 10 == 0 && fld e 36 28 == 0

/-- A leaf that grants: present, no reserved field, and writable for write intent (R335). -/
def leafOk (e : W64) (wr : Bool) : Bool :=
  e.getLsbD 0 && fld e 7 9 == 0 && fld e 52 12 == 0 && fld e 4 2 != 0 && (e.getLsbD 3 || fld e 36 16 == 0) &&
  (!wr || e.getLsbD 1)

/-- One table entry read at the home; a bad read is recorded in ECCLOG and reads as absent (R335). An uncorrectable error is recorded by the
read itself, a poison marker here. -/
def State.readEntry (s : State) (pa : Nat) : State × W64 :=
  let was := ((s.die (paDie pa)).peekMarks (paOff pa / 256)).testBit (pa % 256 / 8)
  let (s, v, bad) := s.homeLoad pa 8
  if bad then
    let s := if was then s.modDie (paDie pa) (fun d => d.setReg 0x10020 (eccUncorrectable (d.reg 0x10020) 1 (paOff pa))) else s
    (s, 0)
  else (s, BitVec.ofNat 64 v)

/-- The walk of the levels from n on: the leaf and its address, or none when an entry is absent. -/
def State.walk (s : State) (va table n : Nat) : Nat → State × Option (Nat × W64)
  | 0 => (s, none)
  | fuel + 1 =>
    let pa := table + 8 * levelIndex va n
    let (s, e) := s.readEntry pa
    if n = 4 then (s, some (pa, e))
    else if nodeOk e then State.walk s va (paDie table * 2 ^ 42 + fld e 11 25 * 2 ^ 11) (n + 1) fuel
    else (s, none)

/-- The frame address a leaf gives. -/
def leafPa (root : Nat) (leaf : W64) (va : Nat) : Nat :=
  if leaf.getLsbD 3 then hostBase + fld leaf 16 36 * 2 ^ 16 + va % 2 ^ 16
  else paDie root * 2 ^ 42 + fld leaf 16 20 * 2 ^ 16 + va % 2 ^ 16

/-- Steps 1 to 5 of R335. A root on a die that is not present has no home unit (R330). -/
def State.translatePaged (s : State) (b va root : Nat) (wr : Bool) : State × TrRes :=
  match (s.bank b).tlb.find? (fun t => t.page == va / 2 ^ 16 && t.root == root && (t.wr || !wr)) with
  | some t => (s, .pa (leafPa root t.leaf va) t.leaf true)
  | none =>
    if !s.diePresent (bankDie b) (paDie root) then (s, .miss) else
    let (s, r) := s.walk va root 1 4
    match r with
    | none => (s, .absent root false)
    | some (pa, leaf) =>
      if !leafOk leaf wr then (s, .absent root (leafOk leaf false)) else
      let leaf' := leaf ||| (if wr then 0x44 else 0x40)
      let s := s.modDie (paDie pa) (fun d => d.write (paOff pa) 8 leaf'.toNat false)
      let s := s.modBank b (fun k => { k with tlb :=
        ⟨va / 2 ^ 16, root, leaf', wr⟩ :: k.tlb.filter (fun t => !(t.page == va / 2 ^ 16 && t.root == root)) })
      (s, .pa (leafPa root leaf' va) leaf' true)

/-- The domain address of one byte under an aperture table (R333), for bank b. -/
def State.translate (s : State) (apt : List (BitVec 128)) (b ea : Nat) (wr : Bool) : State × TrRes :=
  match apFind apt ea with
  | none => (s, .miss)
  | some e =>
    if apPaged e then s.translatePaged b ea (apRoot e) wr
    else if wr && apRO e then (s, .ro)
    else
      let a := apTarget e + (ea - apBase e)
      (s, .pa ((if apLocal e then bankDie b else paDie a) * 2 ^ 42 + paOff a) 0 false)

/-! Targets. -/

/-- What an effective address reaches. -/
inductive Tgt where
  /-- scratchpad byte off of a core -/
  | sp (core off : Nat)
  /-- shared-memory byte off of a cluster -/
  | shm (cl off : Nat)
  /-- cached memory: HBM or host -/
  | mem (pa : Nat) (leaf : W64) (paged : Bool)
  /-- control space -/
  | ctl (die off : Nat)
  /-- message window -/
  | win (die off : Nat)
  /-- reduce aperture -/
  | red (die off : Nat)
  /-- a gap, a miss, a range marked none, an absent die: TCAUSE 0x05 -/
  | gap
  /-- a write into a range with RO = 1: TCAUSE 0x05 -/
  | ro
  /-- a page that is not present, or for a write one that is `here` but not writable -/
  | absent (root : Nat) (here : Bool)
  deriving DecidableEq, Repr

/-- The target of a domain address (R330). -/
def State.target (s : State) (b pa : Nat) (leaf : W64) (paged : Bool) : Tgt :=
  if hostBase ≤ pa then .mem pa leaf paged
  else if !s.diePresent (bankDie b) (paDie pa) then .gap
  else if paOff pa < 2 ^ 36 then .mem pa leaf paged
  else if paOff pa < 2 ^ 40 then .gap
  else if paOff pa < 2 ^ 41 then .ctl (paDie pa) (paOff pa - 2 ^ 40)
  else if paOff pa < 3 * 2 ^ 40 then .win (paDie pa) (paOff pa - 2 ^ 41)
  else .red (paDie pa) (paOff pa - 3 * 2 ^ 40)

/-- The target of n bytes at an effective address that do not leave a 64-byte block (R95, R96, R165, R333). A copy
engine also reaches the cluster scratchpads. -/
def State.resolve (s : State) (b ea n : Nat) (wr copy : Bool) : State × Tgt :=
  if 2 ^ 48 ≤ ea then (s, .gap)
  else if ea < 0x80000 then (s, if (s.bank b).inRange ea n then .sp (bankCore b) ea else .gap)
  else if ea < 0x400000 then (s, .gap)
  else if ea < 0x800000 then (s, .shm (bankCluster b) (ea - 0x400000))
  else if ea < 0xA00000 then
    (let k := bankCluster b * 4 + (ea - 0x800000) / 0x80000
     let off := (ea - 0x800000) % 0x80000
     if copy && s.cspAllowedBytes b k off n then (s, .sp k off) else (s, .gap))
  else if ea < 0x1000000 then (s, .gap)
  else
    match s.translate (s.bank b).apertures b ea wr with
    | (s, .pa a leaf paged) => (s, s.target b a leaf paged)
    | (s, .miss) => (s, .gap)
    | (s, .ro) => (s, .ro)
    | (s, .absent root here) => (s, .absent root here)

/-! Page requests (R394). -/

/-- The lowest request number that is free at a unit. -/
def freeRqn (rs : List PageReq) : Nat → Nat → Nat
  | _, 0 => 0
  | n, fuel + 1 => if rs.any (fun r => r.rqn == n) then freeRqn rs (n + 1) fuel else n

/-- The 16-byte message of a request (R422). -/
def pageMsg (r : PageReq) (die : Nat) : BitVec 128 :=
  BitVec.ofNat 128 (r.va / 2 ^ 16 + (if r.wr then 2 ^ 32 else 0) + paDie r.root * 2 ^ 33 + r.tag * 2 ^ 48 +
    r.seq * 2 ^ 64 + (r.rqn + localDie die * 256) * 2 ^ 96)

/-- The home unit can make or join a request now: a 257th waits. -/
def State.canRequest (s : State) (va root : Nat) : Bool :=
  let rs := (s.die (paDie root)).requests
  decide (rs.length < 256) || rs.any (fun r => r.va / 2 ^ 16 == va / 2 ^ 16 && r.root == root)

/-- The home unit makes or joins the request of a parked bank. -/
def State.sendRequest (s : State) (b : Nat) (va : Nat) (wr : Bool) (root : Nat) : State :=
  let d := paDie root
  let rs := (s.die d).requests
  if rs.any (fun r => r.va / 2 ^ 16 == va / 2 ^ 16 && r.root == root) then
    s.modDie d (fun x => { x with requests := rs.map (fun r =>
      if r.va / 2 ^ 16 == va / 2 ^ 16 && r.root == root && !r.banks.contains b then { r with banks := r.banks ++ [b] } else r) })
  else if 256 ≤ rs.length then s
  else
    let (seq, tag) := match (s.bank b).job with
      | some j => (j.seq, j.tag)
      | none => (0, 0)
    let r : PageReq := ⟨freeRqn rs 0 257, va, wr, root, seq, tag, s.cycle, [b]⟩
    { s.modDie d (fun x => { x with requests := rs ++ [r] }) with pageMsgs := s.pageMsgs ++ [pageMsg r d] }

/-- A bank parks for a page in the cycle in which its request is made (R394). Until the unit can make it, the access waits. -/
def State.parkFor (s : State) (b id va : Nat) (wr : Bool) (root : Nat) : State :=
  if !s.canRequest va root then s else
  (s.modBank b (fun k => { k with parked := k.parked ++ [⟨id, va, wr, root⟩] })).sendRequest b va wr root

/-! Reads and writes at a target that is memory. -/

/-- n bytes read at a memory target, through the L1 where the target is cached. -/
def State.readTgt (s : State) (b : Nat) (t : Tgt) (n use : Nat) (dead : Bool) : State × Nat × Bool :=
  match t with
  | .sp k off => (s, (s.core k).sp.load off n, (s.core k).sp.marked off n)
  | .shm c off => (s, (s.cluster c).shm.load off n, (s.cluster c).shm.marked off n)
  | .mem pa _ _ => s.l1Read b pa n use dead (n / 64 + 2)
  | _ => (s, 0, false)

/-- The scratchpad words that PUSH or a preload was the last to write, after a store of n bytes at off (R26). -/
def unringed (ringed : List Nat) (off n : Nat) : List Nat :=
  ringed.filter (fun w => decide (w < off / 8) || decide ((off + n + 7) / 8 ≤ w))

/-- n bytes written at a memory target, into the L1 where the target is cached. -/
def State.writeTgt (s : State) (b : Nat) (t : Tgt) (n data : Nat) (bad : Bool) : State :=
  match t with
  | .sp k off => s.modCore k (fun c => { c with sp := c.sp.write off n data bad, ringed := unringed c.ringed off n })
  | .shm c off => s.modCluster c (fun x => { x with shm := x.shm.write off n data bad })
  | .mem pa _ _ => s.l1Write b pa n data bad (n / 64 + 2)
  | _ => s

end Sys2Proof.Machine
end

