-- ==== Sys2Proof/Machine/Ops.lean ====
section
/-! DEFINITION. The named operations over a bank that every meaning uses: registers and pending results (R89, R92),
control words (R120 to R122), flags, increments and waits (R15 to R23), the S program counter, delay slots and S loop
(R132, R138), rings (R25, R180), and taking and returning from a trap (R147, R157, R390, R391). -/

namespace Sys2Proof.Machine

/-- The outcome of a meaning. -/
abbrev Out := Host.Outcome State Fault Refusal

/-! Control-word selectors (R121, R150, R176, R222, R254, R248, R296, R318, R410, R404, R416, R450, R454). -/

def cwSTAT : Nat := 0x000
def cwESTAT : Nat := 0x001
def cwEPC : Nat := 0x002
def cwEPEND0 : Nat := 0x003
def cwEPEND1 : Nat := 0x004
def cwTVEC : Nat := 0x005
def cwTCAUSE : Nat := 0x006
def cwTVAL : Nat := 0x007
def cwCTXB : Nat := 0x008
def cwFAREA : Nat := 0x009
def cwCEVT : Nat := 0x00A
def cwJOBID : Nat := 0x010
def cwPROMO : Nat := 0x014
def cwWDOG : Nat := 0x015
def cwLOOPC : Nat := 0x020
def cwLSTAT : Nat := 0x021
def cwVRING : Nat := 0x030
def cwDOM : Nat := 0x040
def cwVLOOPC : Nat := 0x058
def cwVLSTAT : Nat := 0x059
def cwCLOOPC : Nat := 0x05A
def cwCLSTAT : Nat := 0x05B
def cwKVFREE : Nat := 0x05C
def cwMLOOPC : Nat := 0x05D
def cwMLSTAT : Nat := 0x05E
def cwMSTAT : Nat := 0x05F
def cwMBCFG : Nat := 0x060
def cwHSTAT : Nat := 0x061
def cwRASTAT : Nat := 0x064
def cwMPORT : Nat := 0x068

/-- The stored bits of a control word. Every one resets to 0 (R122 and the field maps). -/
def Bank.cw (k : Bank) (sel : Nat) : W64 := k.ctl.get 0 sel
def Bank.setCw (k : Bank) (sel : Nat) (v : W64) : Bank := { k with ctl := k.ctl.set sel v }
def Bank.putCw (k : Bank) (sel lo w v : Nat) : Bank := k.setCw sel (putFld (k.cw sel) lo w v)

/-- STAT.SV (R151): the supervisor view. -/
def Bank.sv (k : Bank) : Bool := (k.cw cwSTAT).getLsbD 0
/-- STAT.TS (R151): trap state. -/
def Bank.ts (k : Bank) : Bool := (k.cw cwSTAT).getLsbD 1
def Bank.eie (k : Bank) : Bool := (k.cw cwSTAT).getLsbD 2
def Bank.ftl (k : Bank) : Bool := (k.cw cwSTAT).getLsbD 3
/-- LSTAT.ACT (R141): an S loop is active. -/
def Bank.loopAct (k : Bank) : Bool := (k.cw cwLSTAT).getLsbD 0

/-! Registers. -/

/-- A result of register n is still pending (R92). -/
def Bank.pendingReg (k : Bank) (n : Nat) : Bool := k.pend.any (fun p => p.dest == .reg n && !p.landed)
def Bank.pendingPred (k : Bank) (n : Nat) : Bool :=
  k.pend.any (fun p => !p.landed && (match p.dest with | .pred q _ => q == n | _ => false))

/-- The value and poison bit a word reads from s-register n: s0 is zero, and a pending register is undefined (R89, R92). -/
def State.readS (s : State) (b n : Nat) : W64 × Bool :=
  if n = 0 then (0, false)
  else if (s.bank b).pendingReg n then (s.freeWord 64 n, s.freeBit n)
  else let c := (s.bank b).sregs.get ⟨0, false⟩ n; (c.val, c.poison)

def State.sVal (s : State) (b n : Nat) : W64 := (s.readS b n).1
def State.sBad (s : State) (b n : Nat) : Bool := (s.readS b n).2

/-- The predicate a word reads; a predicate whose result is pending is undefined (R92, R136). -/
def State.readP (s : State) (b n : Nat) : Bool :=
  if (s.bank b).pendingPred n then s.freeBit (64 + n) else (s.bank b).preds.getLsbD n

/-- A landed value; writes to s0 are discarded (R89). -/
def Bank.setS (k : Bank) (n : Nat) (v : W64) (bad : Bool) : Bank :=
  if n = 0 then k else { k with sregs := k.sregs.set n ⟨v, bad⟩ }

def Bank.setP (k : Bank) (n : Nat) (v : Bool) : Bank :=
  { k with preds := BitVec.ofNat 8 ((k.preds.toNat &&& (255 ^^^ 2 ^ n)) + (if v then 2 ^ n else 0)) }

/-! Flags and increments. -/

def Bank.flag (k : Bank) (f : Nat) : Nat := (k.flags.get 0 f).toNat
def Bank.setFlag (k : Bank) (f v : Nat) : Bank := { k with flags := k.flags.set f (BitVec.ofNat 16 v) }

def sigMode (x : BitVec 8) : Nat := fld x 6 2
def sigFlag (x : BitVec 8) : Nat := fld x 0 6

/-- An at-issue increment, visible in the next cycle (R16, R18). -/
def Bank.signalIssue (k : Bank) (cyc : Nat) (p : Point) (sig : BitVec 8) : Bank :=
  if sigMode sig = 2 then { k with incs := k.incs ++ [⟨sigFlag sig, cyc + 1, p, false, false⟩] } else k

/-- An at-completion increment, visible in the next cycle; mode 0b11 also raises a core event (R16, R155). -/
def Bank.signalDone (k : Bank) (cyc : Nat) (p : Point) (sig : BitVec 8) : Bank :=
  if sigMode sig = 1 ∨ sigMode sig = 3 then
    { k with incs := k.incs ++ [⟨sigFlag sig, cyc + 1, p, false, decide (sigMode sig = 3)⟩] } else k

/-- A flag increment made by an agent that names a flag of the bank (R19), visible in the next cycle. DESIGN CHOICE (log 70): it counts as a
remote one in the order of R20 and in the overflow of R21, whichever agent makes it. -/
def Bank.agentInc (k : Bank) (cyc f : Nat) : Bank := { k with incs := k.incs ++ [⟨f, cyc + 1, .s, true, false⟩] }

/-! Rings (R25, R180). -/

/-- The control word of a ring: V 0, C 1, M 2. -/
def ringSel (e : Engine) : Nat := match e with | .v => 0x030 | .c => 0x031 | .m => 0x032

def Point.engine : Point → Engine
  | .s => .v | .va => .v | .ve => .v | .c => .c | .m => .m

def ringRP (w : W64) : Nat := fld w 0 16
def ringWP (w : W64) : Nat := fld w 16 16
def ringHP (w : W64) : Nat := fld w 32 16
/-- N, the ring's size in words. -/
def ringN (w : W64) : Nat := 32 * 2 ^ fld w 48 4
def ringBase (w : W64) : Nat := fld w 52 11 * 256
def ringClosed (w : W64) : Bool := w.getLsbD 63
/-- The scratchpad address of ring position p. -/
def ringAddr (w : W64) (p : Nat) : Nat := ringBase w + 8 * (p % ringN w)
/-- Words from position p up to WP. -/
def ringAhead (w : W64) (p : Nat) : Nat := (ringWP w + 2 * ringN w - p % (2 * ringN w)) % (2 * ringN w)
def ringFull (w : W64) : Bool := ringAhead w (ringHP w) == ringN w

def Bank.ring (k : Bank) (e : Engine) : W64 := k.cw (ringSel e)

/-- The ring position of an issue point: the access side has its own (R178). -/
def Bank.pointPos (k : Bank) (p : Point) : Nat := if p = .va then k.vaPos else ringRP (k.ring (Point.engine p))

def Bank.engLoop (k : Bank) (e : Engine) : Option RLoop :=
  match e with | .v => k.vloop | .c => k.cloop | .m => k.mloop
/-- The pass of a ring loop that an issue point is in. -/
def RLoop.passOf (l : RLoop) (p : Point) : Nat := if p = .va then l.passA else l.passE
def Bank.setEngLoop (k : Bank) (e : Engine) (l : Option RLoop) : Bank :=
  match e with | .v => { k with vloop := l } | .c => { k with cloop := l } | .m => { k with mloop := l }

/-- HP after a move: the loop word inside a loop, and otherwise the earliest issue point (R25, R178). -/
def Bank.fixHP (k : Bank) (e : Engine) : Bank :=
  let w := k.ring e
  let hp := match k.engLoop e with
    | some l => l.loopPos
    | none => if e == .v && decide (k.vaDyn < k.veDyn) then k.vaPos else ringRP w
  k.setCw (ringSel e) (putFld w 32 16 hp)

/-- An issue point moved to a ring position, one dynamic position on (R178); a word it has fetched ahead goes with the move (R26). -/
def Bank.moveTo (k : Bank) (p : Point) (pos : Nat) : Bank :=
  let e := Point.engine p
  let n2 := 2 * ringN (k.ring e)
  let k := match p with
    | .va => { k with vaPos := pos % n2, vaDyn := k.vaDyn + 1 }
    | .ve => { (k.putCw (ringSel .v) 0 16 (pos % n2)) with veDyn := k.veDyn + 1 }
    | _ => k.putCw (ringSel e) 0 16 (pos % n2)
  { k with ringBuf := SMap.erase k.ringBuf p.index }.fixHP e

/-- The next position in the ring. -/
def Bank.advE (k : Bank) (p : Point) : Bank := k.moveTo p (k.pointPos p + 1)

/-- Operations of an issue point's engine in flight. -/
def Bank.opsOf (k : Bank) (e : Engine) : List Op := k.ops.filter (fun o => o.point != .s && Point.engine o.point == e)

/-- Idle in the sense of R116: ring empty for fetch, no hardware loop, every issued operation complete. -/
def Bank.idleE (k : Bank) (e : Engine) : Bool :=
  let w := k.ring e
  ringAhead w (ringRP w) == 0 && (e != .v || ringAhead w k.vaPos == 0) && (k.engLoop e).isNone && (k.opsOf e).isEmpty

/-- The engine has reached the rendezvous: its ring is empty for fetch and closed, and every operation has completed (R29). -/
def Bank.atRendezvous (k : Bank) (e : Engine) : Bool :=
  let w := k.ring e
  ringClosed w && ringAhead w (ringRP w) == 0 && (e != .v || ringAhead w k.vaPos == 0) && (k.opsOf e).isEmpty

def Bank.closeRings (k : Bank) : Bank := ((k.putCw 0x030 63 1 1).putCw 0x031 63 1 1).putCw 0x032 63 1 1

/-! Waits. -/

/-- The condition of a waiting word: modes of R15; WAITF and PARK wait for a count (R112, R129). -/
def Bank.condHolds (k : Bank) (mode need f : Nat) : Bool :=
  if mode = 3 then k.flag f == 0 else decide (need ≤ k.flag f)

/-- A result whose bound has come and that has not landed holds issue (R93). A store that waits for its page has no result and no bound
(R94). -/
def Bank.held93 (k : Bank) (cyc : Nat) : Bool :=
  k.pend.any (fun p => !p.landed && decide (p.bound ≤ cyc) && !(p.dest == .none && p.page.isSome))

/-- An S access in flight has still to be performed: its page is missing (R98). -/
def Bank.unperformed (k : Bank) : Bool := k.pend.any (fun p => !p.landed && p.page.isSome)

/-! An S access. -/

def SAccess.writes : SAccess → Bool
  | .load .. => false
  | _ => true
def SAccess.addr : SAccess → W64
  | .load ea .. => ea
  | .store ea .. => ea
  | .amo ea .. => ea
  | .cas ea .. => ea
def SAccess.bytes : SAccess → Nat
  | .load _ n _ => n
  | .store _ n .. => n
  | .amo _ n .. => n
  | .cas _ n .. => n

/-- A store or atomic of S in flight has still to be performed (R359). -/
def Bank.writeWaits (k : Bank) : Bool := k.pend.any (fun p => !p.landed && (match p.page with | some a => a.writes | none => false))

/-- A pre-emption holds V, C and M: it has reached the bank outside trap state, or S has taken it (R142, R223, R255, R295). -/
def Bank.preempting (k : Bank) : Bool := k.preempt && (!k.ts || k.stopS)

/-- S stands in a PARK whose condition was evaluated and did not hold: no stream of the bank issues (R129). In its issue cycle
PARK first sees the consumes of the words ranked before it. -/
def Bank.parkHolds (k : Bank) : Bool :=
  match k.blocked with
  | some ⟨.park _, _, _⟩ => k.waiters.any (fun w => w.point == .s && w.judged.isSome)
  | _ => false

/-- An issue point stands outside any loop, or has left the loop that the other side is still in (R219). -/
def Bank.outsideLoop (k : Bank) (p : Point) : Bool :=
  match k.engLoop (Point.engine p) with
  | none => true
  | some l => l.ended == some (l.passOf p)

/-- The streams that an issue point belongs to may issue: no fault holds the engines, no PARK the bank, and no pre-emption an
engine outside its loop (R129, R146, R223, R255). -/
def Bank.engRuns (k : Bank) (p : Point) : Bool :=
  !k.parkHolds && !k.stopped && !(k.preempting && k.outsideLoop p)

/-- A waiting word takes part in step 2 of R20: it can otherwise issue, as far as its stream's state tells. -/
def Bank.contends (k : Bank) (cyc : Nat) (p : Point) : Bool :=
  if p = .s then
    match k.blocked with
    | some ⟨.waitf .., _, _⟩ | some ⟨.park _, _, _⟩ => true
    | some _ => false
    | none => decide (k.nextIssue.get 0 0 ≤ cyc) && !k.held93 cyc
  else k.engRuns p && decide (k.nextIssue.get 0 p.index ≤ cyc)

/-- A waiter stands before the word of a rank at point p in the fairness order (R20). -/
def Waiter.before (w : Waiter) (p : Point) (f rank : Nat) : Bool :=
  w.flag == f && w.point != p && (decide (w.rank < rank) || (w.rank == rank && decide (w.point.index < p.index)))

/-- An earlier-ranked word that has still to be evaluated in this cycle goes first, when its condition holds (R20). -/
def Bank.overtakes (k : Bank) (cyc : Nat) (p : Point) (f rank : Nat) : Bool :=
  k.waiters.any (fun w => w.before p f rank && w.tried != some cyc && w.judged != some cyc && k.condHolds w.mode w.need f &&
    k.contends cyc w.point)

/-- Before a consume, every earlier-ranked word whose condition does not hold has been evaluated (R20). -/
def Bank.judgeBefore (k : Bank) (cyc : Nat) (p : Point) (f rank : Nat) : Bank :=
  { k with waiters := k.waiters.map (fun w =>
      if w.before p f rank && !k.condHolds w.mode w.need f then { w with judged := some cyc } else w) }

def Bank.waiterOf (k : Bank) (p : Point) : Option Waiter := k.waiters.find? (fun w => w.point == p)
def Bank.dropWaiter (k : Bank) (p : Point) : Bank := { k with waiters := k.waiters.filter (fun w => w.point != p) }
def Bank.putWaiter (k : Bank) (w : Waiter) : Bank := { k with waiters := k.waiters.filter (fun x => x.point != w.point) ++ [w] }

/-- A consume: the flag counts down, and this cycle's takings are noted for the words that read a flag as step 1 left it
(R113, R221). -/
def Bank.consume (k : Bank) (cyc f n : Nat) : Bank :=
  { k.setFlag f (k.flag f - n) with took := k.took.filter (fun x => x.1 == cyc) ++ [(cyc, f, n)] }

/-- A flag as step 1 of R20 left it in this cycle (R113). -/
def Bank.flagSeen (k : Bank) (cyc f : Nat) : Nat :=
  (k.took.filter (fun x => x.1 == cyc && x.2.1 == f)).foldl (fun v x => v + x.2.2) (k.flag f)

/-- The rank of a word that waits on a flag at an issue point (R20): the first cycle in which it could have issued but for its
wait. -/
def Bank.rankAt (k : Bank) (cyc : Nat) (p : Point) (f : Nat) : Nat :=
  match k.waiterOf p with
  | some w => if w.flag = f then w.rank else cyc
  | none => cyc

/-- What the flag unit answers a word (R20): it issues, with the bank after its consume, or it waits. -/
inductive Gate where
  | go (k : Bank)
  | stay (k : Bank)
  deriving DecidableEq, Repr

/-- The word at p was evaluated in this cycle and its condition did not hold. -/
def Bank.judgedAt (k : Bank) (cyc : Nat) (p : Point) : Bool := k.waiters.any (fun w => w.point == p && w.judged == some cyc)

/-- The word at p could not issue in this cycle for a reason other than its flag: it takes no part in step 2 (R20). -/
def Bank.missed (k : Bank) (cyc : Nat) (p : Point) : Bank :=
  match k.waiterOf p with
  | some w => k.putWaiter { w with tried := some cyc }
  | none => k

/-- Step 2 of R20 for one word at issue point p. `ready` says that the word could issue but for its WAIT. A word is evaluated once a
cycle, after the earlier-ranked words of its flag. -/
def Bank.gate (k : Bank) (cyc : Nat) (p : Point) (wait : BitVec 8) (ready : Bool) : Gate :=
  if !ready then
    .stay (k.missed cyc p)
  else if sigMode wait = 0 then .go (k.dropWaiter p)
  else
    let f := sigFlag wait
    let rank := k.rankAt cyc p f
    if k.judgedAt cyc p then .stay k
    else if k.overtakes cyc p f rank then .stay (k.putWaiter ⟨p, f, sigMode wait, 1, rank, none, none⟩)
    else if k.condHolds (sigMode wait) 1 f then
      .go (if sigMode wait = 1 then ((k.dropWaiter p).judgeBefore cyc p f rank).consume cyc f 1 else k.dropWaiter p)
    else .stay (k.putWaiter ⟨p, f, sigMode wait, 1, rank, none, some cyc⟩)

/-! The S program counter. -/

/-- A pass boundary overwrites what an earlier SETP has still to write to a stage predicate (R138). -/
def Bank.dropPreds (k : Bank) (stages : Nat) : Bank :=
  { k with pend := k.pend.map (fun p => match p.dest with
      | .pred q _ => if q < stages then { p with dest := .none } else p
      | _ => p) }

/-- The pass boundary of an S loop (R138). Stage 0 is off once an LBRK was taken or a pre-emption waits (R140, R142). -/
def Bank.passBoundary (k : Bank) (l : SLoop) : Bank :=
  let n := fld (k.cw cwLOOPC) 0 32
  let act := fld (k.cw cwLSTAT) 6 8
  let stop := l.stop || (k.preempt && !k.ts)
  let on := decide (0 < n) && !stop
  let act' := (2 * act + (if on then 1 else 0)) % 2 ^ l.stages
  let k := k.dropPreds l.stages
  let preds' := BitVec.ofNat 8 (k.preds.toNat / 2 ^ l.stages * 2 ^ l.stages + act')
  if act' = 0 then
    let resume := k.preempt && !k.ts && decide (0 < n) && !l.stop
    let k := ((k.putCw cwLSTAT 0 1 0).putCw cwLSTAT 6 8 0).putCw cwLSTAT 2 1 (if resume then 1 else 0)
    { k with preds := preds', sloop := none, pc := if resume then l.loopWord else l.target.getD l.exit }
  else
    { (k.putCw cwLOOPC 0 32 (if on then n - 1 else n)).putCw cwLSTAT 6 8 act' with preds := preds', pc := l.start }

/-- The word at pc stands in an S loop's body, in this segment. -/
def Bank.segmentOf (k : Bank) : Option Nat :=
  match k.sloop with
  | none => none
  | some l => if l.start.toNat ≤ k.pc.toNat ∧ k.pc.toNat < l.exit.toNat then some ((k.pc.toNat - l.start.toNat) / (8 * l.seglen)) else none

/-- The step of R132 as a word leaves issue: countdowns, a taken target, the next address. -/
def Bank.advance (k : Bank) (taken : Option W64) : Bank :=
  let inBody := k.segmentOf.isSome
  let ts : List Target := k.targets.map (fun t => { t with k := t.k - 1 })
  let ts : List Target := match taken with
    | some a => ts ++ [⟨a, 2⟩]
    | none => ts
  match ts.find? (fun t => t.k == 0) with
  | some t => { k with targets := ts.filter (fun t => t.k != 0), pc := t.addr }
  | none =>
    let k' := { k with targets := ts, pc := k.pc + 8 }
    match k.sloop with
    | some l => if inBody && k'.pc == l.exit then k'.passBoundary l else k'
    | none => k'

/-! Landing (R92). -/

def latest (ps : List Pend) : Option Pend :=
  ps.foldl (fun best p => match best with
    | none => some p
    | some q => if q.issued ≤ p.issued then some p else some q) none

def sameDest : Dest → Dest → Bool
  | .reg a, .reg b => a == b
  | .pred a _, .pred b _ => a == b
  | _, _ => false

/-- Results of one destination are written once all of them have landed: the latest issued stands (R92). -/
def Bank.settle (k : Bank) (d : Dest) : Bank :=
  if k.pend.any (fun p => sameDest p.dest d && !p.landed) then k else
  let k' := match latest (k.pend.filter (fun p => sameDest p.dest d)) with
    | none => k
    | some p => match p.dest with
      | .reg n => k.setS n p.val p.poison
      | .pred n v => k.setP n v
      | .none => k
  { k' with pend := k'.pend.filter (fun p => !sameDest p.dest d && !(p.dest == .none && p.landed)) }

/-- One pending result lands, and its word completes (R18, R92). -/
def Bank.land (k : Bank) (cyc : Nat) (p : Pend) : Bank :=
  let k : Bank := { k with pend := k.pend.map (fun q => if q.id = p.id then { q with landed := true } else q) }
  let k := if p.denied.isSome then k else k.signalDone cyc .s p.signal
  k.settle p.dest

/-- Every result in flight lands, in issue order (R147 step 2). -/
def Bank.landAll (k : Bank) (cyc : Nat) : Bank :=
  (k.pend.filter (fun p => !p.landed)).foldl (fun k p => k.land cyc p) k

/-! Traps. -/

/-- A cause and its TVAL (R146). -/
structure Trap where
  cause : Nat
  tval : W64
  deriving DecidableEq, Repr

/-- The request kinds of R146. -/
def isRequest (c : Nat) : Bool := c == 0x0F || c == 0x11 || c == 0x14

/-- A plane is current for a tile named by its slot, which needs the pair or not (R266). -/
def Cluster.planeCurrent (c : Cluster) (x : Plane) (slot : Nat) (pair : Bool) : Bool :=
  x.valid && x.tag == slot && (x.pair || !pair) && x.slot0.gen == (c.bstore.get BSlot.empty slot).gen &&
  (!pair || x.slot1.gen == (c.bstore.get BSlot.empty (slot + 1)).gen)

/-- MSTAT (R296): LSLOT, LV and REQ are the bank's own, the rest is the array's. -/
def State.mstat (s : State) (b : Nat) : W64 :=
  let k := s.bank b
  let c := s.cluster (bankCluster b)
  let a := c.array
  let granted := a.grant == some b && k.leaseHeld
  let w := BitVec.ofNat 64 (fld (k.cw cwMSTAT) 2 1 * 4 + fld (k.cw cwMSTAT) 27 8 * 2 ^ 27)
  let w := if k.leaseHeld then putFld w 0 1 1 else w
  if !granted then w else
  let w := putFld (putFld w 1 1 1) 3 7 a.run
  let w := putFld (putFld w 10 7 a.plane0.tag) 17 1 (if c.planeCurrent a.plane0 a.plane0.tag a.plane0.pair then 1 else 0)
  let w := putFld (putFld w 18 7 a.plane1.tag) 25 1 (if c.planeCurrent a.plane1 a.plane1.tag a.plane1.pair then 1 else 0)
  putFld w 26 1 (if a.active then 1 else 0)

/-- An engine entry of the composite record (R391). -/
def engineEntry (cause : Nat) (first loop : Bool) (pos rp wp : Nat) (v : W64) : Nat :=
  cause % 256 + (if first then 256 else 0) + (if loop then 512 else 0) + pos % 2 ^ 16 * 2 ^ 16 + rp * 2 ^ 32 +
    wp * 2 ^ 48 + v.toNat * 2 ^ 64

/-- The entry of one issue point at a freeze. -/
def Bank.entryOf (k : Bank) (fr : Freeze) (p : Point) : Nat :=
  let w := k.ring (Point.engine p)
  let loop := if p = .s then k.loopAct else (k.engLoop (Point.engine p)).isSome
  let rp := if p = .s then 0 else k.pointPos p
  let wp := if p = .s then 0 else ringWP w
  if fr.point = some p then engineEntry fr.cause true loop fr.pos rp wp fr.value
  else match fr.more.find? (fun e => e.1 == p) with
    | some (_, c, v, pos) => engineEntry c false loop pos rp wp v
    | none => engineEntry 0 false loop 0 rp wp 0

def Bank.queue (k : Bank) (q : Nat) : Queue := k.queues.get Queue.fresh q
def Queue.arrived (q : Queue) : Nat := (q.slots.filter (fun x => x.data.isSome)).length
def Queue.reserved (q : Queue) : Nat := q.slots.length - q.arrived

/-- The 256-byte composite record (R391). -/
def State.record (s : State) (b : Nat) (fr : Freeze) : Nat :=
  let k := s.bank b
  let entries := packElems 128 ([Point.s, .va, .ve, .c, .m].map (k.entryOf fr))
  let queues := packElems 8 ((List.range 32).map (fun q => (k.queue q).arrived + 16 * (k.queue q).reserved))
  let flags := packElems 16 ((List.range 64).map k.flag)
  entries + queues * 2 ^ 640 + flags * 2 ^ 896 + fr.lease.toNat * 2 ^ 1920 + fr.count % 2 ^ 48 * 2 ^ 1984

/-- The blocking words at which a request lands, and that resume waiting at EPC (R112, R129, R142, R147, R438). A request that arrives
in any other blocking word lands when that word completes. -/
def Bank.landable (k : Bank) : Bool :=
  match k.blocked with
  | some ⟨.waitf .., _, _⟩ | some ⟨.park _, _, _⟩ | some ⟨.ftime .., _, _⟩ => true
  | _ => false

/-- The blocking words that the trap of a fault interrupts and that resume waiting at EPC. DEDUCED (log 18) for MBRD, RENDEZ and RDQ,
which nothing in a stopped job might complete; every other blocking word completes before the trap is taken. -/
def Bank.resumable (k : Bank) : Bool :=
  match k.blocked with
  | some ⟨.mbrd .., _, _⟩ | some ⟨.rendez _, _, _⟩ | some ⟨.rdq .., _, _⟩ => true
  | _ => k.landable

/-- S stands at WAITF or PARK (R388). -/
def Bank.atWait (k : Bank) : Bool :=
  match k.blocked with
  | some ⟨.waitf .., _, _⟩ | some ⟨.park _, _, _⟩ => true
  | _ => false

/-- A trap may be taken now: S is not inside a blocking word that must complete first. -/
def Bank.mayEnter (k : Bank) : Bool := k.blocked.isNone || k.resumable

/-- An address as EPC, EPEND0 and EPEND1 hold it: a word address of 48 bits (R153). -/
def wordAddr (a : W64) : W64 := a &&& 0x0000FFFFFFFFFFF8

/-- R147 steps 4 to 6: the trap state is written, the pending list is emptied, and fetch goes to TVEC. WD marks a word at EPC that
has made its consume and at-issue increment (R23, R152): one that had issued and was still waiting, or one that a return has let skip
its WAIT and that has not issued again. -/
def Bank.enterTrap (k : Bank) (b cyc : Nat) (t : Trap) (epc : W64) : Bank :=
  let wd := k.resumable || k.skipWait
  let stat := putFld (k.cw cwSTAT) 4 1 (b % 2)
  let dsk := match k.targets.head? with | some x => x.k | none => 0
  let e := BitVec.ofNat 64 (fld stat 0 5 + k.targets.length * 2 ^ 16 + dsk * 2 ^ 18 + (if wd then 2 ^ 20 else 0))
  let tgt := fun i => match k.targets[i]? with | some x => wordAddr x.addr | none => 0
  let stat' := putFld (putFld (putFld stat 0 2 3) 2 1 0) 3 1 (if t.cause = 0x05 then 1 else fld stat 3 1)
  let k := ((((((k.setCw cwESTAT e).setCw cwEPC (wordAddr epc)).setCw cwEPEND0 (tgt 0)).setCw cwEPEND1 (tgt 1)).setCw cwTCAUSE
    (BitVec.ofNat 64 t.cause)).setCw cwTVAL t.tval).setCw cwSTAT stat'
  { k with targets := [], pc := k.cw cwTVEC, fetched := [], nullS := 0, skipWait := false, heldWait := k.atWait || (k.skipWait && k.heldWait),
           blocked := none, waiters := k.waiters.filter (fun w => w.point != .s), nextIssue := k.nextIssue.set 0 (cyc + 4) }

/-- A stalled MBOX of the bank gives up its place (R316). -/
def State.dropStall (s : State) (b : Nat) : State :=
  s.modCluster (bankCluster b) (fun c => { c with mailWait := c.mailWait.filter (fun x => x != b) })

/-- A request is taken at a word boundary: results land, the other streams run on (R146, R147). -/
def State.takeRequest (s : State) (b : Nat) (t : Trap) (epc : W64) : State :=
  (s.dropStall b).modBank b (fun k => (k.landAll s.cycle).enterTrap b s.cycle t epc)

/-- The cause S takes when a freeze ends (R390): the fault's own when S faulted first or no engine caused it, or for a dense
fallback (R312), else 0x10. -/
def Freeze.trap (fr : Freeze) : Trap :=
  if fr.cause = 0x0D then ⟨fr.cause, fr.value⟩ else
  match fr.point with
  | none => ⟨fr.cause, fr.value⟩
  | some .s => ⟨fr.cause, fr.value⟩
  | some p => ⟨0x10, BitVec.ofNat 64 p.engineCode⟩

/-- A fatal cause is among the faults of the freeze: 0x05 is fatal on every engine (R146, R209). -/
def Freeze.fatal (fr : Freeze) : Bool := fr.cause == 0x05 || fr.more.any (fun e => e.2.1 == 0x05)

/-- The slots that an untaken .n branch has nullified are passed (R133): they come before the word at which a trap is taken. -/
def Bank.skipNull (k : Bank) : Bank :=
  { (List.range k.nullS).foldl (fun (k : Bank) _ => k.advance none) k with nullS := 0 }

/-- The end of a freeze: the streams stop, the record is written whole at FAREA, and S takes its trap at its next word (R390 steps 3
and 4). -/
def State.finishFreeze (s : State) (b : Nat) (fr : Freeze) : State :=
  let s := (s.dropStall b).modBank b (fun k => (k.landAll s.cycle).skipNull)
  let image := s.record b fr
  let a := fld ((s.bank b).cw cwFAREA) 8 11 * 256
  let s := s.modCore (bankCore b) (fun c => { c with
    sp := c.sp.write a 256 image false, ringed := unringed c.ringed a 256 })
  s.modBank b (fun k =>
    let k := { k.enterTrap b s.cycle fr.trap k.pc with freeze := none, stopped := true }
    if fr.fatal then k.putCw cwSTAT 3 1 1 else k)

/-- A bound stream or link of CBIND, CSINK or CPEER. It has no end of its own, so a freeze does not wait for it (DEDUCED,
log 24). -/
def Op.isBound (o : Op) : Bool :=
  match o.todo with
  | .bind .. => true
  | .sink .. => true
  | .peer .. => true
  | _ => false

/-- A freeze may end: what issued has completed, and no result waits for a page (R390, R394). -/
def Bank.settled (k : Bank) : Bool :=
  k.ops.all Op.isBound && k.mayEnter && k.parked.isEmpty && k.pend.all (fun p => p.landed || p.page.isNone)

/-- A fault beside the one that froze the job (R390): it is recorded once for its issue point. Of two met in one cycle, the earlier issue
point's stands first; a remote overflow, which no engine caused, stays first. -/
def Freeze.join (fr : Freeze) (cyc : Nat) (p : Point) (cause : Nat) (v : W64) (pos : Nat) : Freeze :=
  if fr.point = some p ∨ fr.more.any (fun e => e.1 == p) then fr else
  match fr.point with
  | some q =>
    if fr.at_ = cyc ∧ p.index < q.index then
      { fr with point := some p, cause := cause, value := v, pos := pos, more := (q, fr.cause, fr.value, fr.pos) :: fr.more }
    else { fr with more := fr.more ++ [(p, cause, v, pos)] }
  | none => { fr with more := fr.more ++ [(p, cause, v, pos)] }

/-- A fault freezes the job (R146, R390): no word issues after this cycle, and the record and the trap follow once what has issued has
completed. MSTAT and CYCLE.COUNT are taken now (R391). -/
def State.freezeBy (s : State) (b : Nat) (p : Option Point) (cause : Nat) (v : W64) (pos : Nat) : State :=
  s.modBank b (fun k => { k with freeze := some (match k.freeze with
    | some fr => (match p with | some p => fr.join s.cycle p cause v pos | none => fr)
    | none => ⟨p, cause, v, pos, [], s.cycle, s.mstat b, s.cycle - (s.die (bankDie b)).born, 0⟩) })

/-- A trap of the S word at pc (R147): a fault freezes the job first. -/
def State.trapS (s : State) (b : Nat) (t : Trap) : State :=
  if isRequest t.cause then s.takeRequest b t (s.bank b).pc
  else s.freezeBy b (some .s) t.cause t.tval 0

/-- A non-deferred fault of an engine word or operation (R71, R167, R175, R232). -/
def State.faultE (s : State) (b : Nat) (p : Point) (cause : Nat) (v : W64) (pos : Nat) : State :=
  s.freezeBy b (some p) cause v pos

/-! Issuing an S word. -/

/-- A fresh identifier. -/
def State.newId (s : State) : Nat × State := (s.nextId, { s with nextId := s.nextId + 1 })

/-- The issue of an S word at the focus bank: it waits (R20), traps with no consume and no increment (R23), or consumes,
makes its at-issue increment and runs its body. `ready` is false while it stalls before issue, and then it is not tried again in this
cycle; `onTrap` is what a trap leaves behind. -/
def State.issueTrap (s : State) (m : Marks) (ready : Bool) (trap : Option Trap) (onTrap body : State → State) : Out :=
  let b := s.focus.bank
  let k := s.bank b
  let g := if k.skipWait && ready then Gate.go k else k.gate s.cycle .s m.wait ready
  match g with
  | .stay k' => .next (s.setBank b (if ready then k' else { k' with nextIssue := k'.nextIssue.set 0 (s.cycle + 1) }))
  | .go k' =>
    match trap with
    | some t => .next ((onTrap s).trapS b t)
    | none =>
      let k'' := if k.skipWait then { k' with skipWait := false } else k'.signalIssue s.cycle .s m.signal
      let k'' := { k'' with idleSince := s.cycle, lastPoint := k''.lastPoint.set 0 (s.cycle + 1) }
      .next (body ((s.setBank b k'').spend))

/-- The WAIT of an S word lets it issue now (R20), so that nothing but a stall of its own keeps it. -/
def State.passesS (s : State) (m : Marks) : Bool :=
  let k := s.bank s.focus.bank
  k.skipWait || (match k.gate s.cycle .s m.wait true with
    | .go _ => true
    | .stay _ => false)

/-- The same for a word whose trap leaves nothing behind. -/
def State.issueS (s : State) (m : Marks) (ready : Bool) (trap : Option Trap) (body : State → State) : Out :=
  s.issueTrap m ready trap (fun s => s) body

/-- A word with no result completes at its issue (R18, R94). -/
def State.doneS (s : State) (m : Marks) : State :=
  s.modBank s.focus.bank (fun k => (k.advance none).signalDone s.cycle .s m.signal)

/-- A word whose result lands within its bound: the result is pending (R92), and the next address follows R132. -/
def State.pendAs (s : State) (mem : Bool) (m : Marks) (dest : Dest) (v : W64) (bad : Bool) (lam : Nat) (taken : Option W64) : State :=
  let (id, s) := s.newId
  s.modBank s.focus.bank (fun k =>
    ({ k with pend := k.pend ++ [⟨id, dest, v, bad, s.cycle, s.cycle + lam, m.signal, false, none, none, mem⟩] } : Bank).advance taken)

/-- The result of a word that is no memory access. -/
def State.pendS (s : State) (m : Marks) (dest : Dest) (v : W64) (bad : Bool) (lam : Nat) (taken : Option W64) : State :=
  s.pendAs false m dest v bad lam taken

/-- The result of a memory word, which FENCE waits for (R108). -/
def State.pendMem (s : State) (m : Marks) (n : Nat) (v : W64) (bad : Bool) (lam : Nat) : State :=
  s.pendAs true m (.reg n) v bad lam none

def State.resultS (s : State) (m : Marks) (d : SReg) (v : W64) (bad : Bool) (lam : Nat) : State :=
  s.pendS m (.reg d.toNat) v bad lam none

/-- A result that lands as its word completes. While an older result of the register is in flight, it is kept beside that one, and the
later word's stands when both have landed (R92). -/
def Bank.landNow (k : Bank) (issued d : Nat) (v : W64) : Bank :=
  if k.pendingReg d then { k with pend := k.pend ++ [⟨0, .reg d, v, false, issued, issued, 0, true, none, none, false⟩] }
  else k.setS d v false

/-- A blocking word that completes in its issue cycle with a result (R94). -/
def State.nowS (s : State) (m : Marks) (d : SReg) (v : W64) : State :=
  (s.modBank s.focus.bank (fun k => k.landNow s.cycle d.toNat v)).doneS m

/-- A blocking word that has issued and waits (R94); S issues nothing until it completes. -/
def State.blockS (s : State) (m : Marks) (kind : SBlock) : State :=
  s.modBank s.focus.bank (fun k => { k with blocked := some ⟨kind, m.signal, s.cycle⟩ })

/-- The completion of a blocking word: its result, its increment, and the next address. -/
def State.unblock (s : State) (b : Nat) (res : Option (Nat × W64)) : State :=
  match (s.bank b).blocked with
  | none => s
  | some w =>
    s.modBank b (fun k =>
      let k := match res with
        | some (d, v) => k.landNow w.issued d v
        | none => k
      { ((k.advance none).signalDone s.cycle .s w.signal) with blocked := none, nextIssue := k.nextIssue.set 0 (s.cycle + 1) })

/-- END's first step (R117): the rings close, each RP goes to its WP, and every unissued engine word is discarded. -/
def Bank.discardWords (k : Bank) : Bank :=
  let clear := fun (k : Bank) (e : Engine) =>
    let w := k.ring e
    (k.setCw (ringSel e) (putFld (putFld w 0 16 (ringWP w)) 32 16 (ringWP w))).setEngLoop e none
  let k := clear (clear (clear k.closeRings .v) .c) .m
  { k with vaPos := ringWP (k.ring .v), vaDyn := k.veDyn, ringBuf := [], stopped := false,
           waiters := k.waiters.filter (fun w => w.point == .s) }

/-- The job ends early with an exit code (R117): it waits at the rendezvous for its operations. -/
def State.endJob (s : State) (sig : BitVec 8) (exit : Nat) : State :=
  s.modBank s.focus.bank (fun k => { k.discardWords with blocked := some ⟨.rendez exit, sig, s.cycle⟩ })

/-- The lowest-numbered poisoned register of a list, as the trap of R90. -/
def State.poisonTrap (s : State) (b : Nat) (rs : List Nat) : Option Trap :=
  match rs.filter (fun r => s.sBad b r) with
  | [] => none
  | r :: t => some ⟨0x03, BitVec.ofNat 64 (t.foldl min r)⟩

/-- The first trap of a list, in order. -/
def firstTrap : List (Option Trap) → Option Trap
  | [] => none
  | some t :: _ => some t
  | none :: r => firstTrap r

def trapIf (c : Bool) (cause : Nat) (v : W64) : Option Trap := if c then some ⟨cause, v⟩ else none

end Sys2Proof.Machine
end

