-- ==== Sys2Proof/Machine/Control.lean ====
section
/-! DEFINITION. Control space (R423): what a read of each register gives (R351, R395, R397, R412, R422, R424 to R427, R436). -/

namespace Sys2Proof.Machine

/-! Blocks, by offset. The function of a block is its capability ID less 1 (R425). -/

/-- The function whose READY bit a register needs, and none for the capability list and unlisted offsets. -/
def ctlFunction (off : Nat) : Option Nat :=
  if off < 0x8000 then none
  else if off < 0x9000 then some 6
  else if 0x10000 ≤ off ∧ off < 0x20000 then some 0
  else if 0x20000 ≤ off ∧ off < 0x30000 then some 1
  else if 0x30000 ≤ off ∧ off < 0x40000 then some 2
  else if 0x40000 ≤ off ∧ off < 0x50000 then some 3
  else if 0x50000 ≤ off ∧ off < 0x60000 then some 4
  else if 0x100000 ≤ off ∧ off < 0x110000 then some 5
  else none

/-- The function is usable (R426). -/
def Die.isReady (d : Die) (f : Nat) : Bool := d.ready.getLsbD f

/-- Offsets of the functions' registers, in ID order (R425, R423). -/
def blockOffset : Nat → Nat
  | 0 => 0x10000 | 1 => 0x20000 | 2 => 0x30000 | 3 => 0x40000 | 4 => 0x50000 | 5 => 0x100000 | _ => 0x8000

/-- One 8-byte word of the capability list. DESIGN CHOICE (log 12): seven entries follow one another from CAPS.HEAD. -/
def Die.capWord (d : Die) (off : Nat) : W64 :=
  let head := Config.capsHead.toNat
  if head = 0 then 0
  else if off / 8 < head ∨ head + 14 ≤ off / 8 then 0
  else
    let i := (off / 8 - head) / 2
    if (off / 8 - head) % 2 = 0 then
      BitVec.ofNat 64 (i + 1 + 2 ^ 16 + (if (d.ready ||| d.rising).getLsbD i then 2 ^ 31 else 0) + (if i = 6 then 0 else (head + 2 * (i + 1)) * 2 ^ 32))
    else BitVec.ofNat 64 (blockOffset i)

/-- The reset value of a register of Zenith or the power block (R397, R427), by offset. -/
def hubRegReset (k : Nat) : W64 :=
  if k = 0x20008 then 0x11111111 else if k = 0x20010 then 1024 else 0

def Hub.reg (h : Hub) (k : Nat) : W64 := h.regs.get (hubRegReset k) k
def Hub.setReg (h : Hub) (k : Nat) (v : W64) : Hub := { h with regs := h.regs.set k v }

/-- Launches accepted and not yet issued hold the queue's 64 entries (R374, R397). -/
def Hub.queued (h : Hub) : Nat := (h.launches.filter (fun l => l.phase == .queued)).length
def Hub.qfree (h : Hub) : Nat := 64 - h.queued

/-- The default owner of lane l in entry p of the ring table (R348). -/
def jsDefault (p l : Nat) : Nat := (p + 24 * l) % 96

/-- An entry of the shadow table as a 32-bit word (R351). -/
def Die.jsEntry (d : Die) (p : Nat) : Nat := (d.regs.get 0 (0x10400 + 4 * p)).toNat % 2 ^ 32

/-- What an 8-byte read of control space gives on die d (R423, R426). Write-only fields read zero (R7). -/
def State.ctlRead (s : State) (d off : Nat) : W64 :=
  let x := s.die d
  let off := off / 8 * 8
  match ctlFunction off with
  | none => if off < 0x8000 then x.capWord off else 0
  | some f =>
    if !x.isReady f then 0
    else if f = 0 then
      (if off = 0x10000 then x.reg off &&& 6
       else if off = 0x10048 then x.reg off &&& 0x17FFF
       else if 0x10400 ≤ off ∧ off < 0x10800 then
         BitVec.ofNat 64 (x.jsEntry ((off - 0x10400) / 4) + x.jsEntry ((off - 0x10400) / 4 + 1) * 2 ^ 32)
       else x.reg off)
    else if f = 1 then
      (if off = 0x20028 ∨ off = 0x20030 then 0
       else if off = 0x20040 then BitVec.ofNat 64 (s.hub (pkgOf d)).qfree
       else (s.hub (pkgOf d)).reg off)
    else if f = 2 then
      (if off = 0x30008 then
         let ix := x.reg 0x30000
         x.rsTable.get 0 (fld ix 0 2 * 16384 + fld ix 2 14)
       else x.reg off)
    else if f = 4 then (s.hub (pkgOf d)).reg off
    else if f = 5 then
      (if off = 0x100000 then putFld (x.reg off) 14 14 d else x.reg off)
    else 0

/-- The event that a read of RSDATA makes when RSIDX.AINC is set (R412). -/
def ctlReadEvent (d off : Nat) : List Turn := if off / 8 * 8 = 0x30008 then [.event (.rsdataAccess d false 0)] else []

/-- An access to a control register that waits its turn in the agenda. -/
def Turn.isCtl : Turn → Bool
  | .event (.controlRegisterWrite ..) => true
  | .event (.rsdataAccess ..) => true
  | _ => false

/-- Accesses to control registers are performed before anything else happens, in the order in which they are made (R330). -/
def State.afterCtl (s : State) (ts : List Turn) : State :=
  { s with agenda := s.agenda.takeWhile Turn.isCtl ++ ts ++ s.agenda.dropWhile Turn.isCtl }

/-- What a register will hold when the writes that wait for their turn are done. -/
def State.ctlSoon (s : State) (d off : Nat) : W64 :=
  (s.agenda.takeWhile Turn.isCtl).foldl (fun v t => match t with
    | .event (.controlRegisterWrite d' off' v') => if d' = d ∧ off' = off / 8 * 8 then v' else v
    | _ => v) (s.ctlRead d off)

/-- A store of n bytes to control space: the register is written at its target before anything else happens. A store of
fewer than 8 bytes keeps the register's other bytes, and sends zeros to those of a register of W1C bits (DEDUCED, log 20). -/
def State.ctlStore (s : State) (d off n data : Nat) : State :=
  let clears := [0x10000, 0x10020, 0x100008].contains (off / 8 * 8)
  let v := if n = 8 then BitVec.ofNat 64 data
    else putFld (if clears then 0 else s.ctlSoon d off) (8 * (off % 8)) (8 * n) data
  s.afterCtl [.event (.controlRegisterWrite d (off / 8 * 8) v)]

end Sys2Proof.Machine
end

