-- ==== Sys2Proof/Machine/Num.lean ====
section
/-! DEFINITION. Numbers (02_numbers.md): exact values, the formats (R35 to R39), RoundTo (R40 to R44, R46, R47),
exact arithmetic, MX blocks (R48 to R50), and the group sum of the numerics profiles (R52 to R57). -/

namespace Sys2Proof.Machine

/-- An exact value: NaN, an infinity, or (-1)^neg x (m + eps) x 2^e, where 0 < eps < 1 when `more` is set and eps = 0
otherwise. A zero keeps its sign (R40). -/
inductive Val where
  | nan
  | inf (neg : Bool)
  | fin (neg : Bool) (m : Nat) (e : Int) (more : Bool)
  deriving DecidableEq, Repr

def Val.zero (neg : Bool) : Val := .fin neg 0 0 false
def Val.ofInt (i : Int) : Val := .fin (decide (i < 0)) i.natAbs 0 false

/-- The parameters of a floating-point format (R36). -/
structure Fmt where
  width : Nat
  fbits : Nat
  bias : Nat
  maxCode : Nat
  infCode : Option Nat
  nanCode : Option Nat
  deriving DecidableEq, Repr

def EType.fmt : EType → Fmt
  | .fp16 => ⟨16, 10, 15, 0x7BFF, some 0x7C00, some 0x7E00⟩
  | .bf16 => ⟨16, 7, 127, 0x7F7F, some 0x7F80, some 0x7FC0⟩
  | .e4m3 => ⟨8, 3, 7, 0x7E, none, some 0x7F⟩
  | .e5m2 => ⟨8, 2, 15, 0x7B, some 0x7C, some 0x7E⟩
  | .e2m1 => ⟨4, 1, 1, 0x7, none, none⟩
  | _ => ⟨32, 23, 127, 0x7F7FFFFF, some 0x7F800000, some 0x7FC00000⟩

/-- The sign bit of a format. -/
def Fmt.sign (f : Fmt) (neg : Bool) : Nat := if neg then 2 ^ (f.width - 1) else 0

/-- The exact value of a code of a floating-point format (R36). -/
def Fmt.value (f : Fmt) (c : Nat) : Val :=
  let neg := c.testBit (f.width - 1)
  let a := c % 2 ^ (f.width - 1)
  if f.maxCode < a then (if f.infCode = some a then .inf neg else .nan)
  else
    let ex := a / 2 ^ f.fbits
    let fr := a % 2 ^ f.fbits
    if ex = 0 then .fin neg fr (1 - (f.bias : Int) - (f.fbits : Int)) false
    else .fin neg (fr + 2 ^ f.fbits) ((ex : Int) - (f.bias : Int) - (f.fbits : Int)) false

/-- The exact value of an element of any type (R36, R39). -/
def EType.value (t : EType) (c : Nat) : Val :=
  if t.isFloat then (EType.fmt t).value c
  else if t.isUnsigned then Val.ofInt ((c % 2 ^ t.width : Nat) : Int)
  else Val.ofInt (signed t.width c)

/-- Stochastic bits: the width n and rnd (R46, R47). -/
abbrev SrBits := Nat × Nat

/-- Whether a magnitude with integer part m and fraction rem / 2^sh (and more below) rounds up (R41, R46). -/
def roundsUp (mode : RMode) (sr : SrBits) (neg : Bool) (m rem sh : Nat) (more : Bool) : Bool :=
  let exact := rem == 0 && !more
  let twice := 2 * rem
  let half := 2 ^ sh
  match mode with
  | .rne | .rns => decide (half < twice) || (twice == half && (more || m % 2 == 1))
  | .rna => decide (half ≤ twice)
  | .rtz => false
  | .rdn => neg && !exact
  | .rup => !neg && !exact
  | .sr => decide (2 ^ sr.1 ≤ rem * 2 ^ sr.1 / 2 ^ sh + sr.2)

/-- The magnitude m x 2^e (and more below) rounded to a multiple of 2^q. -/
def roundAt (mode : RMode) (sr : SrBits) (neg : Bool) (m : Nat) (e q : Int) (more : Bool) : Nat :=
  if e < q then
    let sh := (q - e).toNat
    let k := m >>> sh
    k + (if roundsUp mode sr neg k (m % 2 ^ sh) sh more then 1 else 0)
  else
    let k := m <<< (e - q).toNat
    k + (if more && roundsUp mode sr neg k 0 1 true then 1 else 0)

/-- The overflow outcome of a floating-point format (R43). -/
def Fmt.overflow (f : Fmt) (mode : RMode) (neg : Bool) : Nat :=
  let big := match mode with
    | .rne | .rna => true
    | .rdn => neg
    | .rup => !neg
    | _ => false
  if big then
    (match f.infCode, f.nanCode with
     | some i, _ => i + f.sign neg
     | none, some n => n
     | none, none => f.maxCode + f.sign neg)
  else f.maxCode + f.sign neg

/-- RoundTo a floating-point format (R42, R44). -/
def Fmt.round (f : Fmt) (mode : RMode) (sr : SrBits) : Val → Nat
  | .nan => f.nanCode.getD 0
  | .inf neg =>
    if mode = .rns then f.maxCode + f.sign neg
    else (match f.infCode, f.nanCode with
      | some i, _ => i + f.sign neg
      | none, some n => n
      | none, none => f.maxCode + f.sign neg)
  | .fin neg m e more =>
    if m = 0 ∧ !more then f.sign neg else
    let qmin : Int := 1 - (f.bias : Int) - (f.fbits : Int)
    let top : Int := (Nat.log2 m : Int) + e - (f.fbits : Int)
    let q := if m = 0 then qmin else max top qmin
    let code := (q - qmin).toNat * 2 ^ f.fbits + roundAt mode sr neg m e q more
    if f.maxCode < code then f.overflow mode neg else code + f.sign neg

/-- The largest and smallest value of an integer type (R39). -/
def EType.maxInt (t : EType) : Int := if t.isUnsigned then ((2 ^ t.width - 1 : Nat) : Int) else ((2 ^ (t.width - 1) - 1 : Nat) : Int)
def EType.minInt (t : EType) : Int := if t.isUnsigned then 0 else -((2 ^ (t.width - 1) : Nat) : Int)

/-- An integer saturated to a type and encoded. -/
def EType.saturate (t : EType) (i : Int) : Nat :=
  wrap t.width (if (EType.maxInt t) < i then (EType.maxInt t) else if i < (EType.minInt t) then (EType.minInt t) else i)

/-- RoundTo an integer format (R42 to R44). -/
def EType.roundInt (t : EType) (mode : RMode) (sr : SrBits) : Val → Nat
  | .nan => 0
  | .inf neg => wrap t.width (if neg then (EType.minInt t) else (EType.maxInt t))
  | .fin neg m e more =>
    let k := roundAt mode sr neg m e 0 more
    EType.saturate t (if neg then -(k : Int) else (k : Int))

/-- RoundTo(v, F, mode) for any type (R42). -/
def EType.round (t : EType) (mode : RMode) (sr : SrBits) (v : Val) : Nat :=
  if t.isFloat then (EType.fmt t).round mode sr v else EType.roundInt t mode sr v

def noSr : SrBits := (8, 0)
/-- RoundTo without stochastic bits. -/
def EType.rnd (t : EType) (mode : RMode) (v : Val) : Nat := EType.round t mode noSr v

/-! Exact arithmetic. -/

namespace Val

def isNan : Val → Bool | .nan => true | _ => false
def isInf : Val → Bool | .inf _ => true | _ => false
def isFinite : Val → Bool | .fin .. => true | _ => false
def isZero : Val → Bool | .fin _ 0 _ false => true | _ => false
def sgn : Val → Bool | .nan => false | .inf s => s | .fin s _ _ _ => s

def neg : Val → Val
  | .nan => .nan
  | .inf s => .inf (!s)
  | .fin s m e t => .fin (!s) m e t

def abs : Val → Val
  | .nan => .nan
  | .inf _ => .inf false
  | .fin _ m e t => .fin false m e t

/-- Times 2^k. -/
def scale (k : Int) : Val → Val
  | .fin s m e t => .fin s m (e + k) t
  | v => v

/-- The exact product (R40 for a zero). -/
def mul : Val → Val → Val
  | .nan, _ => .nan
  | _, .nan => .nan
  | .inf s, b => if b.isZero then .nan else .inf (s != b.sgn)
  | a, .inf s => if a.isZero then .nan else .inf (s != a.sgn)
  | .fin s m e t, .fin s' m' e' t' => .fin (s != s') (m * m') (e + e') (t || t')

/-- A signed integer multiple of 2^e as a value, with the sign of an exact zero given. -/
def ofScaled (i : Int) (e : Int) (zneg : Bool) : Val :=
  if i = 0 then .zero zneg else .fin (decide (i < 0)) i.natAbs e false

/-- The exact sum; the zero rules of R40 need the rounding mode. -/
def add (mode : RMode) : Val → Val → Val
  | .nan, _ => .nan
  | _, .nan => .nan
  | .inf s, .inf s' => if s = s' then .inf s else .nan
  | .inf s, _ => .inf s
  | _, .inf s => .inf s
  | .fin s m e t, .fin s' m' e' t' =>
    if m = 0 ∧ !t ∧ m' = 0 ∧ !t' ∧ s = s' then .zero s
    else
      let lo := min e e'
      let x : Int := ((m * 2 ^ (e - lo).toNat : Nat) : Int)
      let y : Int := ((m' * 2 ^ (e' - lo).toNat : Nat) : Int)
      let i := (if s then -x else x) + (if s' then -y else y)
      ofScaled i lo (mode == .rdn)

def sub (mode : RMode) (a b : Val) : Val := add mode a b.neg

/-- a x b + c, exact (R40). -/
def fma (mode : RMode) (a b c : Val) : Val := add mode (mul a b) c

/-- The quotient to 2^-128 of its leading bits, with what is left over noted: exact enough for one rounding to any format. -/
def div : Val → Val → Val
  | .nan, _ => .nan
  | _, .nan => .nan
  | .inf s, .inf _ => let _ := s; .nan
  | .inf s, b => .inf (s != b.sgn)
  | a, .inf s => .zero (a.sgn != s)
  | .fin s m e _, .fin s' m' e' _ =>
    if m' = 0 then (if m = 0 then .nan else .inf (s != s'))
    else if m = 0 then .zero (s != s')
    else
      let k := 128 + Nat.log2 m'
      .fin (s != s') (m * 2 ^ k / m') (e - e' - (k : Int)) (m * 2 ^ k % m' != 0)

/-- a < b, for values that are not NaN; the two zeros are equal. -/
def lt (a b : Val) : Bool :=
  match a, b with
  | .nan, _ => false
  | _, .nan => false
  | .inf s, .inf s' => s && !s'
  | .inf s, _ => s
  | _, .inf s => !s
  | .fin s m e _, .fin s' m' e' _ =>
    let lo := min e e'
    let x : Int := ((m * 2 ^ (e - lo).toNat : Nat) : Int)
    let y : Int := ((m' * 2 ^ (e' - lo).toNat : Nat) : Int)
    decide ((if s then -x else x) < (if s' then -y else y))

def eq (a b : Val) : Bool := !a.isNan && !b.isNan && !(lt a b) && !(lt b a)

/-- Floor(Log2(|v|)) of a nonzero finite value. -/
def floorLog2 : Val → Int
  | .fin _ m e _ => (Nat.log2 m : Int) + e
  | _ => 0

/-- Floor(|v| / 2^q) of a finite value. -/
def floorAt (q : Int) : Val → Nat
  | .fin _ m e _ => if e < q then m >>> (q - e).toNat else m <<< (e - q).toNat
  | _ => 0

end Val

/-- Floor of the square root by bits, from bit k down. -/
def isqrt (n : Nat) : Nat → Nat
  | 0 => if 1 ≤ n then 1 else 0
  | k + 1 => isqrtFrom n (k + 1) 0
where
  /-- Bits k - 1 down to 0 of the root above r. -/
  isqrtFrom (n : Nat) : Nat → Nat → Nat
    | 0, r => r
    | k + 1, r => isqrtFrom n k (if (r + 2 ^ k) * (r + 2 ^ k) ≤ n then r + 2 ^ k else r)

/-- The square root of a positive value with 128 further bits. -/
def Val.sqrt : Val → Val
  | .fin s m e t =>
    if m = 0 then .fin s m e t else
    let k : Nat := 256 + (if e % 2 = 0 then 0 else 1)
    let n := m * 2 ^ k
    let r := isqrt n (Nat.log2 n / 2 + 1)
    .fin s r ((e - (k : Int)) / 2) (r * r != n)
  | v => v

/-! Elements of FP32 as codes. -/

def fp32 (c : Nat) : Val := (EType.fmt .fp32).value c
def toFp32 (v : Val) : Nat := (EType.fmt .fp32).round .rne noSr v
/-- The helpers of R61. -/
def fmaF (a b c : Nat) : Nat := toFp32 (Val.fma .rne (fp32 a) (fp32 b) (fp32 c))
def mulF (a b : Nat) : Nat := toFp32 (Val.mul (fp32 a) (fp32 b))
def addF (a b : Nat) : Nat := toFp32 (Val.add .rne (fp32 a) (fp32 b))
def subF (a b : Nat) : Nat := toFp32 (Val.sub .rne (fp32 a) (fp32 b))
def scaleF (a : Nat) (k : Int) : Nat := toFp32 (Val.scale k (fp32 a))
def negF (a : Nat) : Nat := toFp32 (Val.neg (fp32 a))

/-! Microscaling (R48 to R50). -/

/-- The value of an E8M0 scale as a power of two, none for the NaN scale (R37). -/
def e8m0 (s : Nat) : Option Int := if s = 255 then none else some ((s : Int) - 127)

/-- Emax of an MX element format (R49). -/
def EType.emax : EType → Int
  | .e4m3 => 8
  | .e5m2 => 15
  | _ => 2

/-- The block scale and elements of 32 values (R49); `sr` gives each element its random bits. -/
def mxQuantise (t : EType) (mode : RMode) (sr : Nat → SrBits) (vs : List Val) : Nat × List Nat :=
  if vs.any (fun v => !v.isFinite) then (0xFF, vs.map (fun _ => 0)) else
  let amax := vs.foldl (fun m v => if Val.lt m v.abs then v.abs else m) (.zero false)
  let x : Int := if amax.isZero then -127 else max (-127) (min 127 (amax.floorLog2 - EType.emax t))
  let f := EType.fmt t
  let one := fun (i : Nat) (v : Val) =>
    let c := f.round mode (sr i) (v.scale (-x))
    if f.maxCode < c % 2 ^ (f.width - 1) then f.maxCode + f.sign v.sgn else c
  ((x + 127).toNat, (vs.zipIdx).map (fun p => one p.2 p.1))

/-- An MX element with its scale (R48). -/
def mxValue (t : EType) (s c : Nat) : Val :=
  match e8m0 s with
  | none => .nan
  | some k => (EType.value t c).scale k

/-! Group sums (R54, R55). -/

/-- The product of two operand values (R54). -/
def mmaProduct (a b : Val) : Val := Val.mul a b

/-- GroupSum (R55), as an FP32 code. -/
def groupSum (ps : List Val) (w : Nat) : Nat :=
  if ps.any (fun p => p.isNan) then 0x7FC00000
  else
    let pos := ps.any (fun p => p == .inf false)
    let neg := ps.any (fun p => p == .inf true)
    if pos && neg then 0x7FC00000
    else if pos then 0x7F800000
    else if neg then 0xFF800000
    else
      let nz := ps.filter (fun p => !p.isZero)
      match nz with
      | [] => 0
      | p :: _ =>
        let e := nz.foldl (fun m p => max m p.floorLog2) p.floorLog2
        let u : Int := e - (w : Int) + 1
        let s : Int := nz.foldl (fun s p => if p.sgn then s - (p.floorAt u : Int) else s + (p.floorAt u : Int)) 0
        toFp32 (Val.ofScaled s u false)

/-- The group size and alignment width of a profile (R52). -/
def profileG : Nat → Nat | 0 => 32 | 1 => 16 | 2 => 64 | _ => 8
def profileW : Nat → Nat | 0 => 56 | 1 => 40 | 2 => 80 | _ => 48

/-- A list cut into runs of n; fuel bounds their number. -/
def chunks {α : Type} (n : Nat) : Nat → List α → List (List α)
  | 0, _ => []
  | _, [] => []
  | f + 1, l => l.take n :: chunks n f (l.drop n)

end Sys2Proof.Machine
end

