-- ==== Sys2Proof/Machine/Reduce.lean ====
section
/-! DEFINITION. Minimum and maximum (R190), Combine (R457), and reduce reads (R456, R458). -/

namespace Sys2Proof.Machine

/-- The smaller value; a NaN gives NaN and -0 counts as smaller than +0 (R190). -/
def Val.minimum (a b : Val) : Val :=
  if a.isNan || b.isNan then .nan
  else if a.isZero && b.isZero then (if a.sgn then a else b)
  else if Val.lt b a then b else a

/-- The larger value (R190). -/
def Val.maximum (a b : Val) : Val :=
  if a.isNan || b.isNan then .nan
  else if a.isZero && b.isZero then (if a.sgn then b else a)
  else if Val.lt a b then b else a

/-- One step of Combine on accumulators; a float accumulates in FP32 (R457). -/
def combineStep (t : EType) (op : Nat) (acc x : Nat) : Nat :=
  if t.isFloat then
    let v := (EType.value t x)
    match op with
    | 0 => toFp32 (Val.add .rne (fp32 acc) v)
    | 1 => toFp32 (Val.maximum (fp32 acc) v)
    | _ => toFp32 (Val.minimum (fp32 acc) v)
  else
    match op with
    | 0 => (acc + x) % 2 ^ t.width
    | 1 => if signed t.width acc < signed t.width x then x else acc
    | _ => if signed t.width x < signed t.width acc then x else acc

/-- Combine over the contributions to one element, in ascending member index (R457). -/
def combine (t : EType) (op : Nat) : List Nat → Nat
  | [] => 0
  | x :: rest =>
    if t.isFloat then
      EType.rnd t .rne (fp32 (rest.foldl (fun acc y => combineStep t op acc y) (toFp32 (EType.value t x))))
    else rest.foldl (fun acc y => combineStep t op acc y) x

/-- Combine over whole blocks of n elements. -/
def combineBlocks (t : EType) (op n : Nat) (blocks : List Nat) : Nat :=
  packElems t.width ((List.range n).map (fun i => combine t op (blocks.map (fun b => (b >>> (t.width * i)) % 2 ^ t.width))))

/-! Reduce groups (R456). -/

def groupType (w : W64) : Option EType :=
  match fld w 28 4 with | 0 => some .fp32 | 2 => some .bf16 | 6 => some .i32 | _ => none

def groupBox (w : W64) : (Nat × Nat × Nat) × (Nat × Nat × Nat) :=
  ((fld w 0 4, fld w 4 5, fld w 9 5), (fld w 14 4 + 1, fld w 18 5 + 1, fld w 23 5 + 1))

/-- The dies of a group, in member order (R456). -/
def groupDies (w : W64) : List Nat :=
  let ((ox, oy, oz), (nx, ny, nz)) := groupBox w
  (List.range (nx * ny * nz)).map (fun m => dieAt (ox + m % nx) (oy + m / nx % ny) (oz + m / (nx * ny)))

/-- The key of group g of a launch in a die's store. -/
def groupKey (seq g : Nat) : Nat := seq * 16 + g

/-- The 256-byte line at HBM offset `off` combined over a group, read at every member's home MSC, with a marker on every word when the
group is not installed or a member is not present, and on each word that a member holds with one (R458). -/
def State.reduceLine (s : State) (d seq off : Nat) : State × Elem × Nat :=
  let g := off / 2 ^ 36 % 16
  let o := off % 2 ^ 36 / 256 * 256
  match (s.die d).groups.find? (groupKey seq g) with
  | none => (s, 0, ones 32)
  | some w =>
    let ds := groupDies w
    if ds.any (fun x => !s.diePresent d x) then (s, 0, ones 32) else
    let (s, blocks, marks) := ds.foldl (fun (acc : State × List Nat × Nat) x =>
      let (die, l) := (acc.1.die x).readLine (o / 256) 0 false
      (acc.1.setDie x die, acc.2.1 ++ [l.data.toNat], acc.2.2 ||| l.marks.toNat)) (s, [], 0)
    match groupType w with
    | none => (s, 0, ones 32)
    | some t => (s, BitVec.ofNat 2048 (combineBlocks t (fld w 32 2) (2048 / t.width) blocks), marks)

/-- n bytes of a reduce read that stays in one line, bad when a word they touch carries a marker. -/
def State.reduceRead (s : State) (d seq off n : Nat) : State × Nat × Bool :=
  let (s, l, marks) := s.reduceLine d seq off
  let first := off % 256 / 8
  (s, fld l (8 * (off % 256)) (8 * n), marks >>> first % 2 ^ (ceilDiv (off % 256 + n) 8 - first) != 0)

end Sys2Proof.Machine
end

