-- ==== Sys2Proof/Machine/Legal.lean ====
section
/-! DEFINITION. Which instructions are legal encodings: the marks of R17 and the reserved values of each
description (R71, R72), constructor by constructor. The events have no encoding and no ill-formed term. -/

namespace Sys2Proof

/-- The WAIT and SIGNAL bytes of an instruction word; none for an event. -/
def Instr.marks : Instr → Option Marks
  | .nop m => some m
  | .add m _ _ _ => some m
  | .sub m _ _ _ => some m
  | .mul m _ _ _ => some m
  | .mulh m _ _ _ => some m
  | .mulhn m _ _ _ => some m
  | .div m _ _ _ => some m
  | .divn m _ _ _ => some m
  | .rem m _ _ _ => some m
  | .remn m _ _ _ => some m
  | .and m _ _ _ => some m
  | .or m _ _ _ => some m
  | .xor m _ _ _ => some m
  | .andn m _ _ _ => some m
  | .shl m _ _ _ => some m
  | .shr m _ _ _ => some m
  | .sha m _ _ _ => some m
  | .rotl m _ _ _ => some m
  | .min m _ _ _ => some m
  | .max m _ _ _ => some m
  | .minn m _ _ _ => some m
  | .maxn m _ _ _ => some m
  | .clz m _ _ => some m
  | .ctz m _ _ => some m
  | .popc m _ _ => some m
  | .seq m _ _ _ => some m
  | .sne m _ _ _ => some m
  | .slt m _ _ _ => some m
  | .sltn m _ _ _ => some m
  | .sle m _ _ _ => some m
  | .slen m _ _ _ => some m
  | .sel m _ _ _ _ => some m
  | .addi m _ _ _ => some m
  | .andi m _ _ _ => some m
  | .ori m _ _ _ => some m
  | .xori m _ _ _ => some m
  | .shli m _ _ _ => some m
  | .shri m _ _ _ => some m
  | .shai m _ _ _ => some m
  | .slti m _ _ _ => some m
  | .sltni m _ _ _ => some m
  | .li m _ _ => some m
  | .lih m _ _ _ => some m
  | .muli m _ _ _ => some m
  | .extr m _ _ _ _ _ => some m
  | .insr m _ _ _ _ => some m
  | .ld m _ => some m
  | .lds m _ => some m
  | .st m _ _ _ _ => some m
  | .chk m _ => some m
  | .pref m _ _ _ => some m
  | .amo m _ _ _ _ _ _ _ _ => some m
  | .cas m _ _ _ _ _ _ _ _ => some m
  | .fence m => some m
  | .fenceJob m => some m
  | .phase m _ => some m
  | .pub m _ => some m
  | .acq m _ => some m
  | .ifence m => some m
  | .cwb m _ _ => some m
  | .cinv m _ _ => some m
  | .cinvDiscard m _ _ => some m
  | .iinv m _ _ => some m
  | .beq m _ _ _ _ _ => some m
  | .bne m _ _ _ _ _ => some m
  | .blt m _ _ _ _ _ => some m
  | .bge m _ _ _ _ _ => some m
  | .bltn m _ _ _ _ _ => some m
  | .bgen m _ _ _ _ _ => some m
  | .bps m _ _ _ => some m
  | .bpc m _ _ _ => some m
  | .j m _ => some m
  | .jl m _ _ => some m
  | .jr m _ => some m
  | .jlr m _ _ => some m
  | .loop m _ _ _ => some m
  | .lbrk m _ _ _ _ => some m
  | .setp m _ _ _ _ => some m
  | .push m _ _ => some m
  | .waitf m _ _ _ _ => some m
  | .sigf m _ => some m
  | .rdf m _ _ => some m
  | .rdq m _ _ _ _ => some m
  | .start m _ _ => some m
  | .rendez m => some m
  | .endJob m _ => some m
  | .launch m _ _ => some m
  | .yield m _ => some m
  | .mbox m _ => some m
  | .mbrd m _ _ => some m
  | .trap m _ => some m
  | .tret m => some m
  | .getc m _ _ => some m
  | .setc m _ _ => some m
  | .setb m _ _ => some m
  | .clrb m _ _ => some m
  | .evt m _ _ => some m
  | .park m _ => some m
  | .fpost m _ _ => some m
  | .ftime m _ => some m
  | .ftimeUntil m _ _ => some m
  | .fthr m _ => some m
  | .rgrp m _ _ => some m
  | .rshrd m _ _ _ => some m
  | .laysel m _ => some m
  | .rasave m _ => some m
  | .raload m _ => some m
  | .vnop m => some m
  | .vadd m _ => some m
  | .vsub m _ => some m
  | .vmul m _ => some m
  | .vfma m _ => some m
  | .vfms m _ => some m
  | .vfnma m _ => some m
  | .vmin m _ => some m
  | .vmax m _ => some m
  | .vabs m _ => some m
  | .vneg m _ => some m
  | .vcmp m _ => some m
  | .vsel m _ => some m
  | .vexp2 m _ => some m
  | .vlog2 m _ => some m
  | .vrcp m _ => some m
  | .vrsq m _ => some m
  | .vsqrt m _ => some m
  | .vsin m _ => some m
  | .vcos m _ => some m
  | .vtanh m _ => some m
  | .vsigm m _ => some m
  | .vcvt m _ => some m
  | .vqmx m _ => some m
  | .vdqmx m _ => some m
  | .vqgi m _ => some m
  | .vscl m _ => some m
  | .vpack m _ => some m
  | .vunpk m _ => some m
  | .viadd m _ => some m
  | .visub m _ => some m
  | .vimul m _ => some m
  | .vimad m _ => some m
  | .vand m _ => some m
  | .vor m _ => some m
  | .vxor m _ => some m
  | .vshl m _ => some m
  | .vshr m _ => some m
  | .vsha m _ => some m
  | .vimin m _ => some m
  | .vimax m _ => some m
  | .vicmp m _ => some m
  | .viota m _ => some m
  | .vpopc m _ => some m
  | .vred m _ => some m
  | .vscan m _ => some m
  | .vperm m _ => some m
  | .vslide m _ => some m
  | .vbcst m _ => some m
  | .vmovi m _ _ => some m
  | .vmov m _ => some m
  | .vzip m _ => some m
  | .vuzp m _ => some m
  | .vtrn m _ => some m
  | .vld m _ => some m
  | .vst m _ => some m
  | .vgath m _ => some m
  | .vscat m _ => some m
  | .vqcfg m _ _ => some m
  | .vdrop m _ => some m
  | .vrope m _ => some m
  | .vsmxStep m _ => some m
  | .vsmxNorm m _ => some m
  | .vsmxScale m _ => some m
  | .vdwc m _ => some m
  | .vkst m _ => some m
  | .vzcmp m _ => some m
  | .vzexp m _ => some m
  | .vmaskp m _ => some m
  | .vwelf m _ => some m
  | .vloop m _ _ => some m
  | .vlbrk m _ => some m
  | .vend m => some m
  | .cnop m => some m
  | .cmap m _ _ => some m
  | .cmapSt m _ _ => some m
  | .cstep m _ _ _ => some m
  | .cstepOdo m _ => some m
  | .ccopy m _ _ _ _ _ => some m
  | .cfill m _ _ _ => some m
  | .cbind m _ _ _ => some m
  | .csink m _ _ _ => some m
  | .cunb m _ _ _ => some m
  | .cpeerTx m _ _ _ _ => some m
  | .cpeerRx m _ _ _ _ => some m
  | .czc m _ _ => some m
  | .cgath m _ _ _ _ => some m
  | .cscat m _ _ _ _ => some m
  | .cuse m _ _ _ => some m
  | .cpref m _ _ _ => some m
  | .cseqLd m _ _ => some m
  | .cseqSt m _ _ => some m
  | .cseqRope m _ _ _ => some m
  | .ckv m _ _ _ => some m
  | .ckrelPage m _ => some m
  | .ckrelWin m _ => some m
  | .ckrelTrunc m _ _ => some m
  | .ckcfgLd m _ _ => some m
  | .ckcfgClr m _ => some m
  | .ckgath m _ _ _ _ _ _ => some m
  | .cnbr m _ _ _ _ _ _ => some m
  | .cnbu m _ _ _ _ _ => some m
  | .chalo m _ _ _ _ _ => some m
  | .cmsg m _ _ _ _ _ => some m
  | .cloop m _ _ => some m
  | .clbrk m _ => some m
  | .cend m => some m
  | .mnop m => some m
  | .mlease m => some m
  | .mrel m => some m
  | .mfmt m _ => some m
  | .mbld m _ _ _ => some m
  | .mbsel m _ => some m
  | .mma m _ _ _ _ _ _ _ _ _ _ => some m
  | .mzero m _ _ _ => some m
  | .mdrain m _ _ _ _ _ _ _ _ _ _ => some m
  | .mscale m _ _ => some m
  | .mloop m _ _ => some m
  | .mlbrk m _ => some m
  | .mend m => some m
  | .flagUnitCycle _ => none
  | .remoteIncrement _ => none
  | .sResultLand _ _ => none
  | .wordCompletion _ _ => none
  | .ringFetch _ _ => none
  | .sFetch _ => none
  | .jobStart _ => none
  | .jobRetire _ => none
  | .phaseBarrierComplete _ => none
  | .waitfComplete _ => none
  | .parkWake _ => none
  | .watchdogExpiry _ => none
  | .trapEntry _ => none
  | .compositeRecordWrite _ => none
  | .preemptionLanding _ => none
  | .preemptSave _ => none
  | .launchResume _ _ => none
  | .translationRequest _ _ _ => none
  | .pageAnswerGrant _ _ _ => none
  | .pageAnswerDeny _ _ _ => none
  | .pageRequestTimeout _ _ => none
  | .hostLaunchWrite _ _ => none
  | .launchIssue _ => none
  | .launchAging _ _ => none
  | .agentFreeReport _ => none
  | .launchEnd _ _ => none
  | .zkill _ _ => none
  | .zpre _ _ => none
  | .shootdownGo _ _ => none
  | .shootdownDone _ => none
  | .jsctlSwap _ => none
  | .jstabInstall _ => none
  | .replicaDropDone _ => none
  | .patrolScrub _ _ => none
  | .rsdataAccess _ _ _ => none
  | .controlRegisterWrite _ _ _ => none
  | .mscRead _ _ _ _ _ => none
  | .mscMaskedWrite _ _ _ _ => none
  | .mscBankAluOp _ _ _ _ _ => none
  | .cirrusAppend _ _ => none
  | .gatewayRead _ _ _ => none
  | .hostMemRead _ _ _ => none
  | .hostMemWrite _ _ _ => none
  | .arrayGrantPass _ => none
  | .planeLoadComplete _ _ => none
  | .boundStreamElement _ _ => none
  | .peerLinkForm _ _ => none
  | .peerElementForward _ _ => none
  | .mailboxEntryVisible _ _ => none
  | .layoutInstall _ => none
  | .haloDelivery _ => none
  | .reshardCheck _ => none
  | .reshardStep _ _ => none
  | .reshardSkew _ => none
  | .reshardComplete _ => none
  | .flitArrival _ => none
  | .flitHeaderError _ _ => none
  | .throttleWindow _ => none
  | .ftSyncLost _ => none
  | .readRequest _ => none
  | .readResponse _ => none
  | .maskedWrite _ => none
  | .bankAluRequest _ => none
  | .acknowledgement _ => none
  | .entryRequest _ => none
  | .entryGrant _ => none
  | .entryRequestRetry _ => none
  | .flitEject _ _ => none
  | .message _ => none
  | .bulkWrite _ => none
  | .reduceRead _ _ _ => none
  | .collectiveControl _ => none
  | .collectiveStart _ _ => none
  | .collectiveResult _ _ => none
  | .collectiveDeadline _ _ => none
  | .powerManagementTick _ _ _ => none
  | .thermalShutdown _ => none
  | .bringUp _ => none
  | .ftimeUntilTargetReached _ => none
  | .ftSyncAchieved _ => none

/-- Every field holds a value its description allows (R71). DESIGN CHOICE (log 77): the rounding mode of an MDRAIN to FP32 is among them. -/
def Instr.fieldsOk : Instr → Bool
  | .nop _ => true
  | .add _ _ _ _ => true
  | .sub _ _ _ _ => true
  | .mul _ _ _ _ => true
  | .mulh _ _ _ _ => true
  | .mulhn _ _ _ _ => true
  | .div _ _ _ _ => true
  | .divn _ _ _ _ => true
  | .rem _ _ _ _ => true
  | .remn _ _ _ _ => true
  | .and _ _ _ _ => true
  | .or _ _ _ _ => true
  | .xor _ _ _ _ => true
  | .andn _ _ _ _ => true
  | .shl _ _ _ _ => true
  | .shr _ _ _ _ => true
  | .sha _ _ _ _ => true
  | .rotl _ _ _ _ => true
  | .min _ _ _ _ => true
  | .max _ _ _ _ => true
  | .minn _ _ _ _ => true
  | .maxn _ _ _ _ => true
  | .clz _ _ _ => true
  | .ctz _ _ _ => true
  | .popc _ _ _ => true
  | .seq _ _ _ _ => true
  | .sne _ _ _ _ => true
  | .slt _ _ _ _ => true
  | .sltn _ _ _ _ => true
  | .sle _ _ _ _ => true
  | .slen _ _ _ _ => true
  | .sel _ _ _ _ _ => true
  | .addi _ _ _ _ => true
  | .andi _ _ _ _ => true
  | .ori _ _ _ _ => true
  | .xori _ _ _ _ => true
  | .shli _ _ _ _ => true
  | .shri _ _ _ _ => true
  | .shai _ _ _ _ => true
  | .slti _ _ _ _ => true
  | .sltni _ _ _ _ => true
  | .li _ _ _ => true
  | .lih _ _ _ _ => true
  | .muli _ _ _ _ => true
  | .extr _ _ _ pos wm1 _ => decide (pos.toNat + wm1.toNat + 1 ≤ 64)
  | .insr _ _ _ pos wm1 => decide (pos.toNat + wm1.toNat + 1 ≤ 64)
  | .ld _ _ => true
  | .lds _ _ => true
  | .st _ _ _ _ _ => true
  | .chk _ _ => true
  | .pref _ hint _ _ => decide (hint.toNat ≤ 1)
  | .amo _ _ _ _ _ op scope _ size => decide (op.toNat ≤ 9) && (op != 9#4 || size == 2#2) && decide (scope.toNat ≤ 5)
  | .cas _ _ _ _ _ _ scope _ _ => decide (scope.toNat ≤ 5)
  | .fence _ => true
  | .fenceJob _ => true
  | .phase _ scope => decide (scope.toNat ≤ 5)
  | .pub _ scope => decide (scope.toNat ≤ 5)
  | .acq _ scope => decide (scope.toNat ≤ 5)
  | .ifence _ => true
  | .cwb _ _ _ => true
  | .cinv _ _ _ => true
  | .cinvDiscard _ _ _ => true
  | .iinv _ _ _ => true
  | .beq _ _ b _ zero _ => !zero || b == 0#6
  | .bne _ _ b _ zero _ => !zero || b == 0#6
  | .blt _ _ b _ zero _ => !zero || b == 0#6
  | .bge _ _ b _ zero _ => !zero || b == 0#6
  | .bltn _ _ b _ zero _ => !zero || b == 0#6
  | .bgen _ _ b _ zero _ => !zero || b == 0#6
  | .bps _ _ _ _ => true
  | .bpc _ _ _ _ => true
  | .j _ _ => true
  | .jl _ _ _ => true
  | .jr _ _ => true
  | .jlr _ _ _ => true
  | .loop _ _ stages seglen => seglen != 0#14 && decide ((stages.toNat + 1) * seglen.toNat ≤ 16384)
  | .lbrk _ _ b zero _ => !zero || b == 0#6
  | .setp _ _ a b cond => decide (cond.toNat < 6) || (a == 0#6 && b == 0#6)
  | .push _ _ _ => true
  | .waitf _ _ _ _ _ => true
  | .sigf _ _ => true
  | .rdf _ _ _ => true
  | .rdq _ _ _ _ _ => true
  | .start _ _ _ => true
  | .rendez _ => true
  | .endJob _ _ => true
  | .launch _ _ _ => true
  | .yield _ _ => true
  | .mbox _ _ => true
  | .mbrd _ _ mode => decide (mode.toNat ≤ 2)
  | .trap _ _ => true
  | .tret _ => true
  | .getc _ _ cw => selAssigned cw
  | .setc _ _ cw => selAssigned cw
  | .setb _ _ cw => selAssigned cw
  | .clrb _ _ cw => selAssigned cw
  | .evt _ _ cls => decide (cls.toNat ≤ 1)
  | .park _ _ => true
  | .fpost _ _ _ => true
  | .ftime _ _ => true
  | .ftimeUntil _ _ _ => true
  | .fthr _ _ => true
  | .rgrp _ _ _ => true
  | .rshrd _ _ _ _ => true
  | .laysel _ _ => true
  | .rasave _ _ => true
  | .raload _ _ => true
  | .vnop _ => true
  | .vadd _ f => (VSpec.arith f).fits f
  | .vsub _ f => (VSpec.arith f).fits f
  | .vmul _ f => (VSpec.arith f).fits f
  | .vfma _ f => (VSpec.fused).fits f
  | .vfms _ f => (VSpec.fused).fits f
  | .vfnma _ f => (VSpec.fused).fits f
  | .vmin _ f => (VSpec.minmax).fits f
  | .vmax _ f => (VSpec.minmax).fits f
  | .vabs _ f => (VSpec.unary).fits f
  | .vneg _ f => (VSpec.unary).fits f
  | .vcmp _ f => (VSpec.cmp f).fits f
  | .vsel _ f => (VSpec.sel).fits f
  | .vexp2 _ f => (VSpec.trans f).fits f
  | .vlog2 _ f => (VSpec.trans f).fits f
  | .vrcp _ f => (VSpec.trans f).fits f
  | .vrsq _ f => (VSpec.trans f).fits f
  | .vsqrt _ f => (VSpec.trans f).fits f
  | .vsin _ f => (VSpec.trans f).fits f
  | .vcos _ f => (VSpec.trans f).fits f
  | .vtanh _ f => (VSpec.trans f).fits f
  | .vsigm _ f => (VSpec.trans f).fits f
  | .vcvt _ f => (VSpec.cvt f).fits f
  | .vqmx _ f => (VSpec.qmx f).fits f
  | .vdqmx _ f => (VSpec.dqmx f).fits f
  | .vqgi _ f => (VSpec.qgi f).fits f
  | .vscl _ f => (VSpec.scl).fits f
  | .vpack _ f => (VSpec.packing f).fits f
  | .vunpk _ f => (VSpec.packing f).fits f
  | .viadd _ f => (VSpec.isat).fits f
  | .visub _ f => (VSpec.isat).fits f
  | .vimul _ f => (VSpec.imul).fits f
  | .vimad _ f => (VSpec.imad).fits f
  | .vand _ f => (VSpec.bitwise).fits f
  | .vor _ f => (VSpec.bitwise).fits f
  | .vxor _ f => (VSpec.bitwise).fits f
  | .vshl _ f => (VSpec.shift f).fits f
  | .vshr _ f => (VSpec.shift f).fits f
  | .vsha _ f => (VSpec.shift f).fits f
  | .vimin _ f => (VSpec.iminmax).fits f
  | .vimax _ f => (VSpec.iminmax).fits f
  | .vicmp _ f => (VSpec.icmp f).fits f
  | .viota _ f => (VSpec.iota).fits f
  | .vpopc _ f => (VSpec.popc).fits f
  | .vred _ f => (VSpec.reduce f).fits f
  | .vscan _ f => (VSpec.reduce f).fits f
  | .vperm _ f => (VSpec.perm).fits f
  | .vslide _ f => (VSpec.slide).fits f
  | .vbcst _ f => (VSpec.bcst f).fits f
  | .vmovi _ _ _ => true
  | .vmov _ f => (VSpec.mov).fits f
  | .vzip _ f => (VSpec.zip).fits f
  | .vuzp _ f => (VSpec.zip).fits f
  | .vtrn _ f => (VSpec.zip).fits f
  | .vld _ f => f.fits && !f.kq
  | .vst _ f => f.fits
  | .vgath _ f => f.fits && !f.kq
  | .vscat _ f => f.fits
  | .vqcfg _ _ _ => true
  | .vdrop _ _ => true
  | .vrope _ f => (VSpec.rope f).fits f
  | .vsmxStep _ f => (VSpec.smxStep f).fits f
  | .vsmxNorm _ f => (VSpec.smxApply 1).fits f
  | .vsmxScale _ f => (VSpec.smxApply 2).fits f
  | .vdwc _ f => (VSpec.dwc).fits f
  | .vkst _ f => (VSpec.kst).fits f
  | .vzcmp _ f => (VSpec.zcmp f).fits f
  | .vzexp _ f => (VSpec.zexp).fits f
  | .vmaskp _ f => (VSpec.maskp f).fits f
  | .vwelf _ f => (VSpec.welf f).fits f
  | .vloop _ _ _ => true
  | .vlbrk _ _ => true
  | .vend m => m == Marks.none
  | .cnop _ => true
  | .cmap _ _ _ => true
  | .cmapSt _ _ _ => true
  | .cstep _ _ _ _ => true
  | .cstepOdo _ _ => true
  | .ccopy _ _ _ _ _ _ => true
  | .cfill _ _ _ _ => true
  | .cbind _ _ _ _ => true
  | .csink _ _ _ _ => true
  | .cunb _ _ _ _ => true
  | .cpeerTx _ _ _ _ _ => true
  | .cpeerRx _ _ _ _ _ => true
  | .czc _ _ _ => true
  | .cgath _ _ _ _ _ => true
  | .cscat _ _ _ _ _ => true
  | .cuse _ _ _ _ => true
  | .cpref _ _ _ _ => true
  | .cseqLd _ _ _ => true
  | .cseqSt _ _ _ => true
  | .cseqRope _ _ _ _ => true
  | .ckv _ _ _ _ => true
  | .ckrelPage _ _ => true
  | .ckrelWin _ _ => true
  | .ckrelTrunc _ _ _ => true
  | .ckcfgLd _ _ _ => true
  | .ckcfgClr _ _ => true
  | .ckgath _ _ _ _ _ _ _ => true
  | .cnbr _ _ _ op _ rm sat => decide (op.toNat ≤ 2) && rm != .sr && (rm == .rne || (op == 0#2 && !sat)) && (!sat || op == 0#2)
  | .cnbu _ _ _ _ _ rm => rm != .sr
  | .chalo _ _ _ _ _ _ => true
  | .cmsg _ _ _ _ _ _ => true
  | .cloop _ _ _ => true
  | .clbrk _ _ => true
  | .cend m => m == Marks.none
  | .mnop _ => true
  | .mlease _ => true
  | .mrel _ => true
  | .mfmt _ _ => true
  | .mbld _ _ _ _ => true
  | .mbsel _ _ => true
  | .mma _ _ _ aq _ _ _ rows row0 _ a => decide (row0.toNat + rows.toNat + 1 ≤ 256) && !(a && aq)
  | .mzero _ _ rows row0 => decide (row0.toNat + rows.toNat + 1 ≤ 256)
  | .mdrain _ _ _ aq gs rm ot rows row0 _ a => decide (row0.toNat + rows.toNat + 1 ≤ 256) && !(a && aq) && drainType ot && rm != .sr && (ot != .fp32 || rm == .rne) && (gs == 0#4 || (!aq && drainMx ot))
  | .mscale _ _ _ => true
  | .mloop _ _ _ => true
  | .mlbrk _ _ => true
  | .mend m => m == Marks.none
  | .flagUnitCycle _ => true
  | .remoteIncrement _ => true
  | .sResultLand _ _ => true
  | .wordCompletion _ _ => true
  | .ringFetch _ _ => true
  | .sFetch _ => true
  | .jobStart _ => true
  | .jobRetire _ => true
  | .phaseBarrierComplete _ => true
  | .waitfComplete _ => true
  | .parkWake _ => true
  | .watchdogExpiry _ => true
  | .trapEntry _ => true
  | .compositeRecordWrite _ => true
  | .preemptionLanding _ => true
  | .preemptSave _ => true
  | .launchResume _ _ => true
  | .translationRequest _ _ _ => true
  | .pageAnswerGrant _ _ _ => true
  | .pageAnswerDeny _ _ _ => true
  | .pageRequestTimeout _ _ => true
  | .hostLaunchWrite _ _ => true
  | .launchIssue _ => true
  | .launchAging _ _ => true
  | .agentFreeReport _ => true
  | .launchEnd _ _ => true
  | .zkill _ _ => true
  | .zpre _ _ => true
  | .shootdownGo _ _ => true
  | .shootdownDone _ => true
  | .jsctlSwap _ => true
  | .jstabInstall _ => true
  | .replicaDropDone _ => true
  | .patrolScrub _ _ => true
  | .rsdataAccess _ _ _ => true
  | .controlRegisterWrite _ _ _ => true
  | .mscRead _ _ _ _ _ => true
  | .mscMaskedWrite _ _ _ _ => true
  | .mscBankAluOp _ _ _ _ _ => true
  | .cirrusAppend _ _ => true
  | .gatewayRead _ _ _ => true
  | .hostMemRead _ _ _ => true
  | .hostMemWrite _ _ _ => true
  | .arrayGrantPass _ => true
  | .planeLoadComplete _ _ => true
  | .boundStreamElement _ _ => true
  | .peerLinkForm _ _ => true
  | .peerElementForward _ _ => true
  | .mailboxEntryVisible _ _ => true
  | .layoutInstall _ => true
  | .haloDelivery _ => true
  | .reshardCheck _ => true
  | .reshardStep _ _ => true
  | .reshardSkew _ => true
  | .reshardComplete _ => true
  | .flitArrival _ => true
  | .flitHeaderError _ _ => true
  | .throttleWindow _ => true
  | .ftSyncLost _ => true
  | .readRequest _ => true
  | .readResponse _ => true
  | .maskedWrite _ => true
  | .bankAluRequest _ => true
  | .acknowledgement _ => true
  | .entryRequest _ => true
  | .entryGrant _ => true
  | .entryRequestRetry _ => true
  | .flitEject _ _ => true
  | .message _ => true
  | .bulkWrite _ => true
  | .reduceRead _ _ _ => true
  | .collectiveControl _ => true
  | .collectiveStart _ _ => true
  | .collectiveResult _ _ => true
  | .collectiveDeadline _ _ => true
  | .powerManagementTick _ _ _ => true
  | .thermalShutdown _ => true
  | .bringUp _ => true
  | .ftimeUntilTargetReached _ => true
  | .ftSyncAchieved _ => true

end Sys2Proof
end

