-- ==== Sys2Proof/WellFormed.lean ====
section
/-! DEFINITION. Well-formedness of an instruction: what R71 asks of a word, less its opcode and its reserved bits. -/

namespace Sys2Proof

/-- An instruction is well formed when its marks obey R17 and its fields hold values their descriptions allow (R71, R72). -/
def Instr.wellFormed (i : Instr) : Bool :=
  (match i.marks with
   | some m => m.ok
   | none => true) && i.fieldsOk

end Sys2Proof
end

