-- ==== Sys2Proof/Decode.lean ====
section
/-! DEFINITION. The decoder of the four opcode spaces (03_encoding.md), total on any 64-bit word and refusing by
name, and after it the encoder of every instruction word. Reserved bits are the bits no form or description
assigns (R72); each arm names them as a mask of the 40-bit operand field. -/

namespace Sys2Proof

/-- Why a word is an illegal encoding (R71). -/
inductive DecodeError where
  /-- the opcode is unassigned in its space (R82) -/
  | unassignedOpcode
  /-- a bit reserved in its form or description is nonzero (R72) -/
  | reservedBits
  /-- a field holds a reserved value (R71, R72) -/
  | reservedValue
  /-- the WAIT or SIGNAL byte breaks R17 -/
  | badMarks
  deriving DecidableEq, Repr

/-- The n bits of an operand field from bit lo (R6). -/
def bits (o : BitVec 40) (lo n : Nat) : BitVec n := o.extractLsb' lo n

/-- The parts of a word (R14). -/
def marksOf (w : W64) : Marks := ⟨w.extractLsb' 56 8, w.extractLsb' 48 8⟩
def opcodeOf (w : W64) : BitVec 8 := w.extractLsb' 40 8
def operandOf (w : W64) : BitVec 40 := w.extractLsb' 0 40

/-- Refuse when a reserved bit of the operand field is set (R8, R71). -/
def clear (o resv : BitVec 40) (k : Except DecodeError Instr) : Except DecodeError Instr :=
  if o &&& resv = 0 then k else .error .reservedBits

/-- Refuse a reserved field value (R71). -/
def orReserved {α : Type} (x : Option α) (k : α → Except DecodeError Instr) : Except DecodeError Instr :=
  match x with
  | some v => k v
  | none => .error .reservedValue

/-- The V operand field (R78), refused on a reserved type code or rounding mode. -/
def VOp.ofOperand (o : BitVec 40) : Option VOp :=
  match EType.ofCode (bits o 16 4), RMode.ofCode (bits o 10 3) with
  | some ty, some rm =>
    some ⟨bits o 35 5, bits o 30 5, bits o 25 5, bits o 20 5, ty, o.getLsbD 15, o.getLsbD 14, o.getLsbD 13, rm,
      bits o 8 2, bits o 0 8⟩
  | _, _ => none

/-- The operand field of VLD and VST (R206). -/
def VMemOp.ofOperand (o : BitVec 40) : VMemOp :=
  ⟨bits o 35 5, bits o 30 5, o.getLsbD 29, o.getLsbD 28, o.getLsbD 27, o.getLsbD 26, bits o 18 8, bits o 0 18⟩

/-- The operand field of VGATH and VSCAT (R206). -/
def VGatOp.ofOperand (o : BitVec 40) : Option VGatOp :=
  match EType.ofCode (bits o 16 4) with
  | some ty =>
    some ⟨bits o 35 5, bits o 30 5, o.getLsbD 29, o.getLsbD 28, o.getLsbD 27, o.getLsbD 26, bits o 21 5,
      o.getLsbD 20, ty, bits o 0 16⟩
  | none => none

/-- The MO operand field (R73, R74). -/
def MoOp.ofOperand (o : BitVec 40) : MoOp :=
  ⟨bits o 34 6, bits o 28 6, bits o 24 4, o.getLsbD 23, bits o 21 2, bits o 0 21⟩

/-- Row 0x0_ of the S-space opcode map (R77). -/
def decodeS0 (m : Marks) (o : BitVec 40) : Nat → Except DecodeError Instr
  | 0 => clear o 0xFFFFFFFFFF <| .ok (.nop m)
  | 1 => clear o 0x00003FFFFF <| .ok (.add m (bits o 34 6) (bits o 28 6) (bits o 22 6))
  | 2 => clear o 0x00003FFFFF <| .ok (.sub m (bits o 34 6) (bits o 28 6) (bits o 22 6))
  | 3 => clear o 0x00003FFFFF <| .ok (.mul m (bits o 34 6) (bits o 28 6) (bits o 22 6))
  | 4 => clear o 0x00003FFFFF <| .ok (.mulh m (bits o 34 6) (bits o 28 6) (bits o 22 6))
  | 5 => clear o 0x00003FFFFF <| .ok (.mulhn m (bits o 34 6) (bits o 28 6) (bits o 22 6))
  | 6 => clear o 0x00003FFFFF <| .ok (.div m (bits o 34 6) (bits o 28 6) (bits o 22 6))
  | 7 => clear o 0x00003FFFFF <| .ok (.divn m (bits o 34 6) (bits o 28 6) (bits o 22 6))
  | 8 => clear o 0x00003FFFFF <| .ok (.rem m (bits o 34 6) (bits o 28 6) (bits o 22 6))
  | 9 => clear o 0x00003FFFFF <| .ok (.remn m (bits o 34 6) (bits o 28 6) (bits o 22 6))
  | 10 => clear o 0x00003FFFFF <| .ok (.and m (bits o 34 6) (bits o 28 6) (bits o 22 6))
  | 11 => clear o 0x00003FFFFF <| .ok (.or m (bits o 34 6) (bits o 28 6) (bits o 22 6))
  | 12 => clear o 0x00003FFFFF <| .ok (.xor m (bits o 34 6) (bits o 28 6) (bits o 22 6))
  | 13 => clear o 0x00003FFFFF <| .ok (.andn m (bits o 34 6) (bits o 28 6) (bits o 22 6))
  | 14 => clear o 0x00003FFFFF <| .ok (.shl m (bits o 34 6) (bits o 28 6) (bits o 22 6))
  | 15 => clear o 0x00003FFFFF <| .ok (.shr m (bits o 34 6) (bits o 28 6) (bits o 22 6))
  | _ => .error .unassignedOpcode

/-- Row 0x1_ of the S-space opcode map (R77). -/
def decodeS1 (m : Marks) (o : BitVec 40) : Nat → Except DecodeError Instr
  | 0 => clear o 0x00003FFFFF <| .ok (.sha m (bits o 34 6) (bits o 28 6) (bits o 22 6))
  | 1 => clear o 0x00003FFFFF <| .ok (.rotl m (bits o 34 6) (bits o 28 6) (bits o 22 6))
  | 2 => clear o 0x00003FFFFF <| .ok (.min m (bits o 34 6) (bits o 28 6) (bits o 22 6))
  | 3 => clear o 0x00003FFFFF <| .ok (.max m (bits o 34 6) (bits o 28 6) (bits o 22 6))
  | 4 => clear o 0x00003FFFFF <| .ok (.minn m (bits o 34 6) (bits o 28 6) (bits o 22 6))
  | 5 => clear o 0x00003FFFFF <| .ok (.maxn m (bits o 34 6) (bits o 28 6) (bits o 22 6))
  | 6 => clear o 0x000FFFFFFF <| .ok (.clz m (bits o 34 6) (bits o 28 6))
  | 7 => clear o 0x000FFFFFFF <| .ok (.ctz m (bits o 34 6) (bits o 28 6))
  | 8 => clear o 0x000FFFFFFF <| .ok (.popc m (bits o 34 6) (bits o 28 6))
  | 9 => clear o 0x00003FFFFF <| .ok (.seq m (bits o 34 6) (bits o 28 6) (bits o 22 6))
  | 10 => clear o 0x00003FFFFF <| .ok (.sne m (bits o 34 6) (bits o 28 6) (bits o 22 6))
  | 11 => clear o 0x00003FFFFF <| .ok (.slt m (bits o 34 6) (bits o 28 6) (bits o 22 6))
  | 12 => clear o 0x00003FFFFF <| .ok (.sltn m (bits o 34 6) (bits o 28 6) (bits o 22 6))
  | 13 => clear o 0x00003FFFFF <| .ok (.sle m (bits o 34 6) (bits o 28 6) (bits o 22 6))
  | 14 => clear o 0x00003FFFFF <| .ok (.slen m (bits o 34 6) (bits o 28 6) (bits o 22 6))
  | 15 => clear o 0x000000FFFF <| .ok (.sel m (bits o 34 6) (bits o 28 6) (bits o 22 6) (bits o 16 6))
  | _ => .error .unassignedOpcode

/-- Row 0x2_ of the S-space opcode map (R77). -/
def decodeS2 (m : Marks) (o : BitVec 40) : Nat → Except DecodeError Instr
  | 0 => .ok (.addi m (bits o 34 6) (bits o 28 6) (bits o 0 28))
  | 1 => .ok (.andi m (bits o 34 6) (bits o 28 6) (bits o 0 28))
  | 2 => .ok (.ori m (bits o 34 6) (bits o 28 6) (bits o 0 28))
  | 3 => .ok (.xori m (bits o 34 6) (bits o 28 6) (bits o 0 28))
  | 4 => clear o 0x000FFFFFC0 <| .ok (.shli m (bits o 34 6) (bits o 28 6) (bits o 0 6))
  | 5 => clear o 0x000FFFFFC0 <| .ok (.shri m (bits o 34 6) (bits o 28 6) (bits o 0 6))
  | 6 => clear o 0x000FFFFFC0 <| .ok (.shai m (bits o 34 6) (bits o 28 6) (bits o 0 6))
  | 7 => .ok (.slti m (bits o 34 6) (bits o 28 6) (bits o 0 28))
  | 8 => .ok (.sltni m (bits o 34 6) (bits o 28 6) (bits o 0 28))
  | 9 => clear o 0x03F0000000 <| .ok (.li m (bits o 34 6) (bits o 0 28))
  | 10 => .ok (.lih m (bits o 34 6) (bits o 28 6) (bits o 0 28))
  | 11 => .ok (.muli m (bits o 34 6) (bits o 28 6) (bits o 0 28))
  | 12 => clear o 0x000FFFE000 <| .ok (.extr m (bits o 34 6) (bits o 28 6) (bits o 0 6) (bits o 6 6) (o.getLsbD 12))
  | 13 => clear o 0x000FFFF000 <| .ok (.insr m (bits o 34 6) (bits o 28 6) (bits o 0 6) (bits o 6 6))
  | _ => .error .unassignedOpcode

/-- Row 0x3_ of the S-space opcode map (R77). -/
def decodeS3 (m : Marks) (o : BitVec 40) : Nat → Except DecodeError Instr
  | 0 => .ok (.ld m (MoOp.ofOperand o))
  | 1 => .ok (.lds m (MoOp.ofOperand o))
  | 2 => clear o 0x000F800000 <| .ok (.st m (bits o 34 6) (bits o 28 6) (bits o 21 2) (bits o 0 21))
  | 3 => clear o 0xFC0FFFFFFF <| .ok (.chk m (bits o 28 6))
  | 4 => clear o 0x000FE00000 <| .ok (.pref m (bits o 34 6) (bits o 28 6) (bits o 0 21))
  | 5 => clear o 0x00003F0004 <| .ok (.amo m (bits o 34 6) (bits o 28 6) (bits o 22 6) (bits o 12 4) (bits o 8 4) (bits o 5 3) (bits o 3 2) (bits o 0 2))
  | 6 => clear o 0x0000000F04 <| .ok (.cas m (bits o 34 6) (bits o 28 6) (bits o 22 6) (bits o 16 6) (bits o 12 4) (bits o 5 3) (bits o 3 2) (bits o 0 2))
  | 7 =>
    match (bits o 8 4).toNat with
    | 0 => clear o 0xFFFFFFF0FF <| .ok (.fence m)
    | 1 => clear o 0xFFFFFFF0FF <| .ok (.fenceJob m)
    | _ => .error .reservedValue
  | 8 => clear o 0xFFFFFFFF1F <| .ok (.phase m (bits o 5 3))
  | 9 => clear o 0xFFFFFFFF1F <| .ok (.pub m (bits o 5 3))
  | 10 => clear o 0xFFFFFFFF1F <| .ok (.acq m (bits o 5 3))
  | 11 => clear o 0xFFFFFFFFFF <| .ok (.ifence m)
  | 12 => clear o 0xFC003FFFFF <| .ok (.cwb m (bits o 28 6) (bits o 22 6))
  | 13 =>
    match (bits o 8 4).toNat with
    | 0 => clear o 0xFC003FF0FF <| .ok (.cinv m (bits o 28 6) (bits o 22 6))
    | 1 => clear o 0xFC003FF0FF <| .ok (.cinvDiscard m (bits o 28 6) (bits o 22 6))
    | _ => .error .reservedValue
  | 14 => clear o 0xFC003FFFFF <| .ok (.iinv m (bits o 28 6) (bits o 22 6))
  | _ => .error .unassignedOpcode

/-- Row 0x4_ of the S-space opcode map (R77). -/
def decodeS4 (m : Marks) (o : BitVec 40) : Nat → Except DecodeError Instr
  | 0 => .ok (.beq m (bits o 34 6) (bits o 28 6) (o.getLsbD 27) (o.getLsbD 26) (bits o 0 26))
  | 1 => .ok (.bne m (bits o 34 6) (bits o 28 6) (o.getLsbD 27) (o.getLsbD 26) (bits o 0 26))
  | 2 => .ok (.blt m (bits o 34 6) (bits o 28 6) (o.getLsbD 27) (o.getLsbD 26) (bits o 0 26))
  | 3 => .ok (.bge m (bits o 34 6) (bits o 28 6) (o.getLsbD 27) (o.getLsbD 26) (bits o 0 26))
  | 4 => .ok (.bltn m (bits o 34 6) (bits o 28 6) (o.getLsbD 27) (o.getLsbD 26) (bits o 0 26))
  | 5 => .ok (.bgen m (bits o 34 6) (bits o 28 6) (o.getLsbD 27) (o.getLsbD 26) (bits o 0 26))
  | 6 => clear o 0xE3F4000000 <| .ok (.bps m (bits o 34 3) (o.getLsbD 27) (bits o 0 26))
  | 7 => clear o 0xE3F4000000 <| .ok (.bpc m (bits o 34 3) (o.getLsbD 27) (bits o 0 26))
  | 8 => clear o 0xFC00000000 <| .ok (.j m (bits o 0 34))
  | 9 => .ok (.jl m (bits o 34 6) (bits o 0 34))
  | 10 => clear o 0xFC0FFFFFFF <| .ok (.jr m (bits o 28 6))
  | 11 => clear o 0x000FFFFFFF <| .ok (.jlr m (bits o 34 6) (bits o 28 6))
  | 12 => clear o 0xFC0FFE0000 <| .ok (.loop m (bits o 28 6) (bits o 14 3) (bits o 0 14))
  | 13 => clear o 0x0008000000 <| .ok (.lbrk m (bits o 34 6) (bits o 28 6) (o.getLsbD 26) (bits o 0 26))
  | 14 => clear o 0xE00038FFFF <| .ok (.setp m (bits o 34 3) (bits o 28 6) (bits o 22 6) (bits o 16 3))
  | _ => .error .unassignedOpcode

/-- Row 0x5_ of the S-space opcode map (R77). -/
def decodeS5 (m : Marks) (o : BitVec 40) : Nat → Except DecodeError Instr
  | 0 => clear o 0x000FFFFFFF <| (orReserved (Engine.ofCode (bits o 34 6)) fun e => .ok (.push m e (bits o 28 6)))
  | 1 => clear o 0x00003EFFFF <| .ok (.waitf m (bits o 34 6) (bits o 28 6) (bits o 22 6) (o.getLsbD 16))
  | 2 => clear o 0xFC0FFFFFFF <| .ok (.sigf m (bits o 28 6))
  | 3 => clear o 0x000FFFFFFF <| .ok (.rdf m (bits o 34 6) (bits o 28 6))
  | 4 => clear o 0x02003EFFFF <| .ok (.rdq m (bits o 34 6) (bits o 28 5) (bits o 22 6) (o.getLsbD 16))
  | 5 => clear o 0x000FFFFFFF <| (orReserved (Engine.ofCode (bits o 34 6)) fun e => .ok (.start m e (bits o 28 6)))
  | 6 => clear o 0xFFFFFFFFFF <| .ok (.rendez m)
  | 7 => clear o 0xFC0FFFFFFF <| .ok (.endJob m (bits o 28 6))
  | 8 => clear o 0x000FFFFFFF <| .ok (.launch m (bits o 34 6) (bits o 28 6))
  | 9 => clear o 0x03FFFFFFFF <| .ok (.yield m (bits o 34 6))
  | 10 => clear o 0xFC0FFFFFFF <| .ok (.mbox m (bits o 28 6))
  | 11 => clear o 0x03FFFCFFFF <| .ok (.mbrd m (bits o 34 6) (bits o 16 2))
  | _ => .error .unassignedOpcode

/-- Row 0x6_ of the S-space opcode map (R77). -/
def decodeS6 (m : Marks) (o : BitVec 40) : Nat → Except DecodeError Instr
  | 0 => clear o 0xFFF0000000 <| .ok (.trap m (bits o 0 28))
  | 1 => clear o 0xFFFFFFFFFF <| .ok (.tret m)
  | 2 => clear o 0x03FFFFF000 <| .ok (.getc m (bits o 34 6) (bits o 0 12))
  | 3 => clear o 0xFC0FFFF000 <| .ok (.setc m (bits o 28 6) (bits o 0 12))
  | 4 => clear o 0xFC0FFFF000 <| .ok (.setb m (bits o 28 6) (bits o 0 12))
  | 5 => clear o 0xFC0FFFF000 <| .ok (.clrb m (bits o 28 6) (bits o 0 12))
  | 6 => clear o 0xFC0FFFFFF0 <| .ok (.evt m (bits o 28 6) (bits o 0 4))
  | 7 => clear o 0xFFFFFFFFC0 <| .ok (.park m (bits o 0 6))
  | _ => .error .unassignedOpcode

/-- Row 0x7_ of the S-space opcode map (R77). -/
def decodeS7 (m : Marks) (o : BitVec 40) : Nat → Except DecodeError Instr
  | 0 => clear o 0x000FFFFFFF <| .ok (.fpost m (bits o 34 6) (bits o 28 6))
  | 1 =>
    match (bits o 16 6).toNat with
    | 0 => clear o 0x03FFC0FFFF <| .ok (.ftime m (bits o 34 6))
    | 1 => clear o 0x000FC0FFFF <| .ok (.ftimeUntil m (bits o 34 6) (bits o 28 6))
    | _ => .error .reservedValue
  | 2 => clear o 0x03FFFFFFFF <| .ok (.fthr m (bits o 34 6))
  | 3 => clear o 0xFC003FFFFF <| .ok (.rgrp m (bits o 28 6) (bits o 22 6))
  | 4 => clear o 0xFC0000FFFF <| .ok (.rshrd m (bits o 28 6) (bits o 22 6) (bits o 16 6))
  | 5 => clear o 0xFC0FFFFFFF <| .ok (.laysel m (bits o 28 6))
  | 6 => clear o 0xFC0FFFFFFF <| .ok (.rasave m (bits o 28 6))
  | 7 => clear o 0xFC0FFFFFFF <| .ok (.raload m (bits o 28 6))
  | _ => .error .unassignedOpcode

/-- The S-space opcode map (R77); every other opcode is unassigned (R82). -/
def decodeS (m : Marks) (o : BitVec 40) (opc : Nat) : Except DecodeError Instr :=
  match opc / 16 with
  | 0 => decodeS0 m o (opc % 16)
  | 1 => decodeS1 m o (opc % 16)
  | 2 => decodeS2 m o (opc % 16)
  | 3 => decodeS3 m o (opc % 16)
  | 4 => decodeS4 m o (opc % 16)
  | 5 => decodeS5 m o (opc % 16)
  | 6 => decodeS6 m o (opc % 16)
  | 7 => decodeS7 m o (opc % 16)
  | _ => .error .unassignedOpcode

/-- Row 0x0_ of the V-space opcode map (R79). -/
def decodeV0 (m : Marks) (o : BitVec 40) : Nat → Except DecodeError Instr
  | 0 => clear o 0xFFFFFFFFFF <| .ok (.vnop m)
  | 1 => (orReserved (VOp.ofOperand o) fun f => .ok (.vadd m f))
  | 2 => (orReserved (VOp.ofOperand o) fun f => .ok (.vsub m f))
  | 3 => (orReserved (VOp.ofOperand o) fun f => .ok (.vmul m f))
  | 4 => (orReserved (VOp.ofOperand o) fun f => .ok (.vfma m f))
  | 5 => (orReserved (VOp.ofOperand o) fun f => .ok (.vfms m f))
  | 6 => (orReserved (VOp.ofOperand o) fun f => .ok (.vfnma m f))
  | 7 => (orReserved (VOp.ofOperand o) fun f => .ok (.vmin m f))
  | 8 => (orReserved (VOp.ofOperand o) fun f => .ok (.vmax m f))
  | 9 => (orReserved (VOp.ofOperand o) fun f => .ok (.vabs m f))
  | 10 => (orReserved (VOp.ofOperand o) fun f => .ok (.vneg m f))
  | 11 => (orReserved (VOp.ofOperand o) fun f => .ok (.vcmp m f))
  | 12 => (orReserved (VOp.ofOperand o) fun f => .ok (.vsel m f))
  | _ => .error .unassignedOpcode

/-- Row 0x1_ of the V-space opcode map (R79). -/
def decodeV1 (m : Marks) (o : BitVec 40) : Nat → Except DecodeError Instr
  | 0 => (orReserved (VOp.ofOperand o) fun f => .ok (.vexp2 m f))
  | 1 => (orReserved (VOp.ofOperand o) fun f => .ok (.vlog2 m f))
  | 2 => (orReserved (VOp.ofOperand o) fun f => .ok (.vrcp m f))
  | 3 => (orReserved (VOp.ofOperand o) fun f => .ok (.vrsq m f))
  | 4 => (orReserved (VOp.ofOperand o) fun f => .ok (.vsqrt m f))
  | 5 => (orReserved (VOp.ofOperand o) fun f => .ok (.vsin m f))
  | 6 => (orReserved (VOp.ofOperand o) fun f => .ok (.vcos m f))
  | 7 => (orReserved (VOp.ofOperand o) fun f => .ok (.vtanh m f))
  | 8 => (orReserved (VOp.ofOperand o) fun f => .ok (.vsigm m f))
  | _ => .error .unassignedOpcode

/-- Row 0x2_ of the V-space opcode map (R79). -/
def decodeV2 (m : Marks) (o : BitVec 40) : Nat → Except DecodeError Instr
  | 0 => (orReserved (VOp.ofOperand o) fun f => .ok (.vcvt m f))
  | 1 => (orReserved (VOp.ofOperand o) fun f => .ok (.vqmx m f))
  | 2 => (orReserved (VOp.ofOperand o) fun f => .ok (.vdqmx m f))
  | 3 => (orReserved (VOp.ofOperand o) fun f => .ok (.vqgi m f))
  | 4 => (orReserved (VOp.ofOperand o) fun f => .ok (.vscl m f))
  | 5 => (orReserved (VOp.ofOperand o) fun f => .ok (.vpack m f))
  | 6 => (orReserved (VOp.ofOperand o) fun f => .ok (.vunpk m f))
  | _ => .error .unassignedOpcode

/-- Row 0x3_ of the V-space opcode map (R79). -/
def decodeV3 (m : Marks) (o : BitVec 40) : Nat → Except DecodeError Instr
  | 0 => (orReserved (VOp.ofOperand o) fun f => .ok (.viadd m f))
  | 1 => (orReserved (VOp.ofOperand o) fun f => .ok (.visub m f))
  | 2 => (orReserved (VOp.ofOperand o) fun f => .ok (.vimul m f))
  | 3 => (orReserved (VOp.ofOperand o) fun f => .ok (.vimad m f))
  | 4 => (orReserved (VOp.ofOperand o) fun f => .ok (.vand m f))
  | 5 => (orReserved (VOp.ofOperand o) fun f => .ok (.vor m f))
  | 6 => (orReserved (VOp.ofOperand o) fun f => .ok (.vxor m f))
  | 7 => (orReserved (VOp.ofOperand o) fun f => .ok (.vshl m f))
  | 8 => (orReserved (VOp.ofOperand o) fun f => .ok (.vshr m f))
  | 9 => (orReserved (VOp.ofOperand o) fun f => .ok (.vsha m f))
  | 10 => (orReserved (VOp.ofOperand o) fun f => .ok (.vimin m f))
  | 11 => (orReserved (VOp.ofOperand o) fun f => .ok (.vimax m f))
  | 12 => (orReserved (VOp.ofOperand o) fun f => .ok (.vicmp m f))
  | 13 => (orReserved (VOp.ofOperand o) fun f => .ok (.viota m f))
  | 14 => (orReserved (VOp.ofOperand o) fun f => .ok (.vpopc m f))
  | _ => .error .unassignedOpcode

/-- Row 0x4_ of the V-space opcode map (R79). -/
def decodeV4 (m : Marks) (o : BitVec 40) : Nat → Except DecodeError Instr
  | 0 => (orReserved (VOp.ofOperand o) fun f => .ok (.vred m f))
  | 1 => (orReserved (VOp.ofOperand o) fun f => .ok (.vscan m f))
  | 2 => (orReserved (VOp.ofOperand o) fun f => .ok (.vperm m f))
  | 3 => (orReserved (VOp.ofOperand o) fun f => .ok (.vslide m f))
  | 4 => (orReserved (VOp.ofOperand o) fun f => .ok (.vbcst m f))
  | 5 => clear o 0x0700000000 <| .ok (.vmovi m (bits o 35 5) (bits o 0 32))
  | 6 => (orReserved (VOp.ofOperand o) fun f => .ok (.vmov m f))
  | 7 => (orReserved (VOp.ofOperand o) fun f => .ok (.vzip m f))
  | 8 => (orReserved (VOp.ofOperand o) fun f => .ok (.vuzp m f))
  | 9 => (orReserved (VOp.ofOperand o) fun f => .ok (.vtrn m f))
  | _ => .error .unassignedOpcode

/-- Row 0x5_ of the V-space opcode map (R79). -/
def decodeV5 (m : Marks) (o : BitVec 40) : Nat → Except DecodeError Instr
  | 0 => .ok (.vld m (VMemOp.ofOperand o))
  | 1 => .ok (.vst m (VMemOp.ofOperand o))
  | 2 => (orReserved (VGatOp.ofOperand o) fun f => .ok (.vgath m f))
  | 3 => (orReserved (VGatOp.ofOperand o) fun f => .ok (.vscat m f))
  | 4 => clear o 0x07FFFFFFF8 <| .ok (.vqcfg m (bits o 35 5) (bits o 0 3))
  | 5 => clear o 0x07FFFFFFFF <| .ok (.vdrop m (bits o 35 5))
  | _ => .error .unassignedOpcode

/-- Row 0x6_ of the V-space opcode map (R79). -/
def decodeV6 (m : Marks) (o : BitVec 40) : Nat → Except DecodeError Instr
  | 0 => (orReserved (VOp.ofOperand o) fun f => .ok (.vrope m f))
  | 1 =>
    match (bits o 0 2).toNat with
    | 0 => (orReserved (VOp.ofOperand o) fun f => .ok (.vsmxStep m f))
    | 1 => (orReserved (VOp.ofOperand o) fun f => .ok (.vsmxNorm m f))
    | 2 => (orReserved (VOp.ofOperand o) fun f => .ok (.vsmxScale m f))
    | _ => .error .reservedValue
  | 2 => (orReserved (VOp.ofOperand o) fun f => .ok (.vdwc m f))
  | 3 => (orReserved (VOp.ofOperand o) fun f => .ok (.vkst m f))
  | 4 => (orReserved (VOp.ofOperand o) fun f => .ok (.vzcmp m f))
  | 5 => (orReserved (VOp.ofOperand o) fun f => .ok (.vzexp m f))
  | 6 => (orReserved (VOp.ofOperand o) fun f => .ok (.vmaskp m f))
  | 7 => (orReserved (VOp.ofOperand o) fun f => .ok (.vwelf m f))
  | _ => .error .unassignedOpcode

/-- Row 0x7_ of the V-space opcode map (R79). -/
def decodeV7 (m : Marks) (o : BitVec 40) : Nat → Except DecodeError Instr
  | 0 => clear o 0x1FFF000000 <| .ok (.vloop m (bits o 37 3) (bits o 0 24))
  | 1 => clear o 0xFFFFFFFFC0 <| .ok (.vlbrk m (bits o 0 6))
  | 2 => clear o 0xFFFFFFFFFF <| .ok (.vend m)
  | _ => .error .unassignedOpcode

/-- The V-space opcode map (R79); every other opcode is unassigned (R82). -/
def decodeV (m : Marks) (o : BitVec 40) (opc : Nat) : Except DecodeError Instr :=
  match opc / 16 with
  | 0 => decodeV0 m o (opc % 16)
  | 1 => decodeV1 m o (opc % 16)
  | 2 => decodeV2 m o (opc % 16)
  | 3 => decodeV3 m o (opc % 16)
  | 4 => decodeV4 m o (opc % 16)
  | 5 => decodeV5 m o (opc % 16)
  | 6 => decodeV6 m o (opc % 16)
  | 7 => decodeV7 m o (opc % 16)
  | _ => .error .unassignedOpcode

/-- Row 0x0_ of the C-space opcode map (R80). -/
def decodeC0 (m : Marks) (o : BitVec 40) : Nat → Except DecodeError Instr
  | 0 => clear o 0xFFFFFFFFFF <| .ok (.cnop m)
  | 1 =>
    match (bits o 13 1).toNat with
    | 0 => clear o 0x0FFFFFC000 <| .ok (.cmap m (bits o 36 4) (bits o 0 13))
    | _ => clear o 0x0FFFFFC000 <| .ok (.cmapSt m (bits o 36 4) (bits o 0 13))
  | 2 =>
    match (bits o 26 1).toNat with
    | 0 => clear o 0x0FF8000000 <| .ok (.cstep m (bits o 36 4) (bits o 24 2) (bits o 0 24))
    | _ => clear o 0x0FFBFFFFFF <| .ok (.cstepOdo m (bits o 36 4))
  | 3 => clear o 0x00FFFFFFF8 <| .ok (.ccopy m (bits o 36 4) (bits o 32 4) (o.getLsbD 0) (o.getLsbD 1) (o.getLsbD 2))
  | 4 => clear o 0x0FFFFE0000 <| .ok (.cfill m (bits o 36 4) (bits o 0 16) (o.getLsbD 16))
  | 5 => clear o 0x0F07000000 <| .ok (.cbind m (bits o 36 4) (bits o 27 5) (bits o 0 24))
  | 6 => clear o 0x0F07000000 <| .ok (.csink m (bits o 36 4) (bits o 27 5) (bits o 0 24))
  | 7 => clear o 0xFF07FFFFFC <| .ok (.cunb m (bits o 27 5) (o.getLsbD 0) (o.getLsbD 1))
  | 8 =>
    match (bits o 12 1).toNat with
    | 0 => clear o 0xFF07FFE000 <| .ok (.cpeerRx m (bits o 27 5) (bits o 0 6) (o.getLsbD 6) (bits o 7 5))
    | _ => clear o 0xFF07FFE000 <| .ok (.cpeerTx m (bits o 27 5) (bits o 0 6) (o.getLsbD 6) (bits o 7 5))
  | 9 => clear o 0x0FFFFFFFFE <| .ok (.czc m (bits o 36 4) (o.getLsbD 0))
  | 10 => clear o 0x0007FFFFC0 <| .ok (.cgath m (bits o 36 4) (bits o 32 4) (bits o 27 5) (bits o 0 6))
  | 11 => clear o 0x0007FFFFC0 <| .ok (.cscat m (bits o 36 4) (bits o 32 4) (bits o 27 5) (bits o 0 6))
  | 12 => clear o 0x0FFFFFFFE0 <| .ok (.cuse m (bits o 36 4) (bits o 0 4) (o.getLsbD 4))
  | 13 => clear o 0x0FFFFFFFFC <| .ok (.cpref m (bits o 36 4) (o.getLsbD 0) (o.getLsbD 1))
  | _ => .error .unassignedOpcode

/-- Row 0x1_ of the C-space opcode map (R80). -/
def decodeC1 (m : Marks) (o : BitVec 40) : Nat → Except DecodeError Instr
  | 0 =>
    match (bits o 23 2).toNat with
    | 0 => clear o 0xFFF87FE000 <| .ok (.cseqLd m (bits o 25 2) (bits o 0 13))
    | 1 => clear o 0xFFF87FE000 <| .ok (.cseqSt m (bits o 25 2) (bits o 0 13))
    | 2 => clear o 0x0F007FFFFF <| .ok (.cseqRope m (bits o 36 4) (bits o 27 5) (bits o 25 2))
    | _ => .error .reservedValue
  | 1 => clear o 0x00F9FFFFFF <| .ok (.ckv m (bits o 36 4) (bits o 32 4) (bits o 25 2))
  | 2 =>
    match (bits o 23 2).toNat with
    | 0 => clear o 0x0FFE7FFFFF <| .ok (.ckrelPage m (bits o 36 4))
    | 1 => clear o 0xFFF87FFFFF <| .ok (.ckrelWin m (bits o 25 2))
    | 2 => clear o 0xFF007FFFFF <| .ok (.ckrelTrunc m (bits o 27 5) (bits o 25 2))
    | _ => .error .reservedValue
  | 3 =>
    match (bits o 18 2).toNat with
    | 0 => clear o 0xFFFFF00000 <| .ok (.ckcfgLd m (bits o 13 5) (bits o 0 13))
    | 1 => clear o 0xFFFFF01FFF <| .ok (.ckcfgClr m (bits o 13 5))
    | _ => .error .reservedValue
  | 4 => clear o 0x0F07FF0000 <| .ok (.ckgath m (bits o 36 4) (bits o 27 5) (bits o 10 5) (bits o 5 5) (bits o 0 5) (o.getLsbD 15))
  | 8 => clear o 0x0F07FFFF80 <| (orReserved (RMode.ofCode (bits o 3 3)) fun rm => .ok (.cnbr m (bits o 36 4) (bits o 27 5) (bits o 0 2) (o.getLsbD 2) rm (o.getLsbD 6)))
  | 9 => clear o 0x0F07FFFFE0 <| (orReserved (RMode.ofCode (bits o 2 3)) fun rm => .ok (.cnbu m (bits o 36 4) (bits o 27 5) (o.getLsbD 0) (o.getLsbD 1) rm))
  | _ => .error .unassignedOpcode

/-- Row 0x2_ of the C-space opcode map (R80). -/
def decodeC2 (m : Marks) (o : BitVec 40) : Nat → Except DecodeError Instr
  | 0 => clear o 0x00FFF00000 <| .ok (.chalo m (bits o 36 4) (bits o 32 4) (bits o 0 6) (bits o 6 6) (bits o 12 8))
  | 1 => clear o 0x0FFF000000 <| .ok (.cmsg m (bits o 36 4) (bits o 0 14) (bits o 14 6) (o.getLsbD 20) (bits o 21 3))
  | _ => .error .unassignedOpcode

/-- Row 0x3_ of the C-space opcode map (R80). -/
def decodeC3 (m : Marks) (o : BitVec 40) : Nat → Except DecodeError Instr
  | 0 => clear o 0xFFF8000000 <| .ok (.cloop m (bits o 24 3) (bits o 0 24))
  | 1 => clear o 0xFFFFFFFFC0 <| .ok (.clbrk m (bits o 0 6))
  | 2 => clear o 0xFFFFFFFFFF <| .ok (.cend m)
  | _ => .error .unassignedOpcode

/-- The C-space opcode map (R80); every other opcode is unassigned (R82). -/
def decodeC (m : Marks) (o : BitVec 40) (opc : Nat) : Except DecodeError Instr :=
  match opc / 16 with
  | 0 => decodeC0 m o (opc % 16)
  | 1 => decodeC1 m o (opc % 16)
  | 2 => decodeC2 m o (opc % 16)
  | 3 => decodeC3 m o (opc % 16)
  | _ => .error .unassignedOpcode

/-- Row 0x0_ of the M-space opcode map (R81). -/
def decodeM0 (m : Marks) (o : BitVec 40) : Nat → Except DecodeError Instr
  | 0 => clear o 0xFFFFFFFFFF <| .ok (.mnop m)
  | 1 => clear o 0xFFFFFFFFFF <| .ok (.mlease m)
  | 2 => clear o 0xFFFFFFFFFF <| .ok (.mrel m)
  | 3 => clear o 0xC3FFFFFFFF <| .ok (.mfmt m (bits o 34 4))
  | 4 => clear o 0xC203FFFF00 <| .ok (.mbld m (bits o 34 4) (bits o 26 7) (bits o 0 8))
  | 5 => clear o 0xFE03FFFFFF <| .ok (.mbsel m (bits o 26 7))
  | 6 => clear o 0x0000040000 <| .ok (.mma m (bits o 38 2) (bits o 34 4) (o.getLsbD 33) (bits o 26 7) (bits o 23 3) (bits o 19 4) (bits o 10 8) (bits o 0 8) (o.getLsbD 8) (o.getLsbD 9))
  | 7 => clear o 0x3FFFFC0300 <| .ok (.mzero m (bits o 38 2) (bits o 10 8) (bits o 0 8))
  | 8 => clear o 0x01C0040000 <| (orReserved (RMode.ofCode (bits o 23 3)) fun rm => (orReserved (EType.ofCode (bits o 19 4)) fun ot => .ok (.mdrain m (bits o 38 2) (bits o 34 4) (o.getLsbD 33) (bits o 26 4) rm ot (bits o 10 8) (bits o 0 8) (o.getLsbD 8) (o.getLsbD 9))))
  | 9 => clear o 0xC3FFFC03FF <| .ok (.mscale m (bits o 34 4) (bits o 10 8))
  | _ => .error .unassignedOpcode

/-- Row 0x1_ of the M-space opcode map (R81). -/
def decodeM1 (m : Marks) (o : BitVec 40) : Nat → Except DecodeError Instr
  | 0 => clear o 0xFFF8000000 <| .ok (.mloop m (bits o 24 3) (bits o 0 24))
  | 1 => clear o 0xFFFFFFFFC0 <| .ok (.mlbrk m (bits o 0 6))
  | 2 => clear o 0xFFFFFFFFFF <| .ok (.mend m)
  | _ => .error .unassignedOpcode

/-- The M-space opcode map (R81); every other opcode is unassigned (R82). -/
def decodeM (m : Marks) (o : BitVec 40) (opc : Nat) : Except DecodeError Instr :=
  match opc / 16 with
  | 0 => decodeM0 m o (opc % 16)
  | 1 => decodeM1 m o (opc % 16)
  | _ => .error .unassignedOpcode

/-- The fields of a word in a space, before the checks of R17 and of reserved values. -/
def decodeFields (sp : Space) (w : W64) : Except DecodeError Instr :=
  let m := marksOf w
  let o := operandOf w
  let c := (opcodeOf w).toNat
  match sp with
  | .s => decodeS m o c
  | .v => decodeV m o c
  | .c => decodeC m o c
  | .m => decodeM m o c

/-- Decoding of a word in the space of the engine that fetched it (R70, R71). -/
def decode (sp : Space) (w : W64) : Except DecodeError Instr :=
  match decodeFields sp w with
  | .error e => .error e
  | .ok i =>
    if !(marksOf w).ok then .error .badMarks
    else if i.wellFormed then .ok i
    else .error .reservedValue

/-- DESIGN CHOICE (log 10): a table row's word does not record its space (R70). A word of more than 64 bits
names the space in bits 65 and 64 (0 S, 1 V, 2 C, 3 M); a word of at most 64 bits is read in the S space, else in V, C or M. -/
def tableSpaces (nbits w : Nat) : List Space :=
  if 64 < nbits then
    match w / 2 ^ 64 % 4 with
    | 0 => [.s]
    | 1 => [.v]
    | 2 => [.c]
    | _ => [.m]
  else [.s, .v, .c, .m]

/-- The first space of a list in which a word decodes. -/
def decodeFirst (w : W64) : List Space → Option (Space × Instr)
  | [] => none
  | sp :: rest =>
    match decode sp w with
    | .ok i => some (sp, i)
    | .error _ => decodeFirst w rest

/-- The instruction the decoder reads from a word numbered as the opcode table numbers it; the word is stored
little-endian, so its bits are those of the 64-bit word (R6, R14). -/
def decodeTableWord (nbits w : Nat) : Option Instr :=
  (decodeFirst (BitVec.ofNat 64 w) (tableSpaces nbits w)).map Prod.snd

/-! The encoder. -/

/-- A field placed at bit lo of the operand field. -/
def put {n : Nat} (lo : Nat) (x : BitVec n) : BitVec 40 := (x.setWidth 40) <<< lo

/-- A one-bit field. -/
def putB (lo : Nat) (b : Bool) : BitVec 40 := put lo (BitVec.ofBool b)

def VOp.toOperand (f : VOp) : BitVec 40 :=
  put 35 f.vd ||| put 30 f.va ||| put 25 f.vb ||| put 20 f.vc ||| put 16 f.ty.code ||| putB 15 f.ka ||| putB 14 f.kb |||
  putB 13 f.kc ||| put 10 f.rm.code ||| put 8 f.msel ||| put 0 f.sub

def VMemOp.toOperand (f : VMemOp) : BitVec 40 :=
  put 35 f.vq ||| put 30 f.va ||| putB 29 f.hasBase ||| putB 28 f.ka ||| putB 27 f.kq ||| putB 26 f.wide |||
  put 18 f.stride ||| put 0 f.offset

def VGatOp.toOperand (f : VGatOp) : BitVec 40 :=
  put 35 f.vq ||| put 30 f.va ||| putB 29 f.hasBase ||| putB 28 f.ka ||| putB 27 f.kq ||| putB 26 f.wide |||
  put 21 f.vi ||| putB 20 f.ki ||| put 16 f.ty.code ||| put 0 f.offset

def MoOp.toOperand (f : MoOp) : BitVec 40 :=
  put 34 f.d ||| put 28 f.base ||| put 24 f.lat ||| putB 23 f.sx ||| put 21 f.size ||| put 0 f.off

/-- The word of R14. -/
def word (m : Marks) (opc : BitVec 8) (o : BitVec 40) : W64 := m.wait ++ m.signal ++ opc ++ o

/-- The space and word of an instruction; an event has none. -/
def encode : Instr → Option (Space × W64)
  | .nop m => some (.s, word m 0x00 (0#40))
  | .add m d a b => some (.s, word m 0x01 (put 34 d ||| put 28 a ||| put 22 b))
  | .sub m d a b => some (.s, word m 0x02 (put 34 d ||| put 28 a ||| put 22 b))
  | .mul m d a b => some (.s, word m 0x03 (put 34 d ||| put 28 a ||| put 22 b))
  | .mulh m d a b => some (.s, word m 0x04 (put 34 d ||| put 28 a ||| put 22 b))
  | .mulhn m d a b => some (.s, word m 0x05 (put 34 d ||| put 28 a ||| put 22 b))
  | .div m d a b => some (.s, word m 0x06 (put 34 d ||| put 28 a ||| put 22 b))
  | .divn m d a b => some (.s, word m 0x07 (put 34 d ||| put 28 a ||| put 22 b))
  | .rem m d a b => some (.s, word m 0x08 (put 34 d ||| put 28 a ||| put 22 b))
  | .remn m d a b => some (.s, word m 0x09 (put 34 d ||| put 28 a ||| put 22 b))
  | .and m d a b => some (.s, word m 0x0A (put 34 d ||| put 28 a ||| put 22 b))
  | .or m d a b => some (.s, word m 0x0B (put 34 d ||| put 28 a ||| put 22 b))
  | .xor m d a b => some (.s, word m 0x0C (put 34 d ||| put 28 a ||| put 22 b))
  | .andn m d a b => some (.s, word m 0x0D (put 34 d ||| put 28 a ||| put 22 b))
  | .shl m d a b => some (.s, word m 0x0E (put 34 d ||| put 28 a ||| put 22 b))
  | .shr m d a b => some (.s, word m 0x0F (put 34 d ||| put 28 a ||| put 22 b))
  | .sha m d a b => some (.s, word m 0x10 (put 34 d ||| put 28 a ||| put 22 b))
  | .rotl m d a b => some (.s, word m 0x11 (put 34 d ||| put 28 a ||| put 22 b))
  | .min m d a b => some (.s, word m 0x12 (put 34 d ||| put 28 a ||| put 22 b))
  | .max m d a b => some (.s, word m 0x13 (put 34 d ||| put 28 a ||| put 22 b))
  | .minn m d a b => some (.s, word m 0x14 (put 34 d ||| put 28 a ||| put 22 b))
  | .maxn m d a b => some (.s, word m 0x15 (put 34 d ||| put 28 a ||| put 22 b))
  | .clz m d a => some (.s, word m 0x16 (put 34 d ||| put 28 a))
  | .ctz m d a => some (.s, word m 0x17 (put 34 d ||| put 28 a))
  | .popc m d a => some (.s, word m 0x18 (put 34 d ||| put 28 a))
  | .seq m d a b => some (.s, word m 0x19 (put 34 d ||| put 28 a ||| put 22 b))
  | .sne m d a b => some (.s, word m 0x1A (put 34 d ||| put 28 a ||| put 22 b))
  | .slt m d a b => some (.s, word m 0x1B (put 34 d ||| put 28 a ||| put 22 b))
  | .sltn m d a b => some (.s, word m 0x1C (put 34 d ||| put 28 a ||| put 22 b))
  | .sle m d a b => some (.s, word m 0x1D (put 34 d ||| put 28 a ||| put 22 b))
  | .slen m d a b => some (.s, word m 0x1E (put 34 d ||| put 28 a ||| put 22 b))
  | .sel m d a b c => some (.s, word m 0x1F (put 34 d ||| put 28 a ||| put 22 b ||| put 16 c))
  | .addi m d a imm => some (.s, word m 0x20 (put 34 d ||| put 28 a ||| put 0 imm))
  | .andi m d a imm => some (.s, word m 0x21 (put 34 d ||| put 28 a ||| put 0 imm))
  | .ori m d a imm => some (.s, word m 0x22 (put 34 d ||| put 28 a ||| put 0 imm))
  | .xori m d a imm => some (.s, word m 0x23 (put 34 d ||| put 28 a ||| put 0 imm))
  | .shli m d a sh => some (.s, word m 0x24 (put 34 d ||| put 28 a ||| put 0 sh))
  | .shri m d a sh => some (.s, word m 0x25 (put 34 d ||| put 28 a ||| put 0 sh))
  | .shai m d a sh => some (.s, word m 0x26 (put 34 d ||| put 28 a ||| put 0 sh))
  | .slti m d a imm => some (.s, word m 0x27 (put 34 d ||| put 28 a ||| put 0 imm))
  | .sltni m d a imm => some (.s, word m 0x28 (put 34 d ||| put 28 a ||| put 0 imm))
  | .li m d imm => some (.s, word m 0x29 (put 34 d ||| put 0 imm))
  | .lih m d a imm => some (.s, word m 0x2A (put 34 d ||| put 28 a ||| put 0 imm))
  | .muli m d a imm => some (.s, word m 0x2B (put 34 d ||| put 28 a ||| put 0 imm))
  | .extr m d a pos wm1 sx => some (.s, word m 0x2C (put 34 d ||| put 28 a ||| put 0 pos ||| put 6 wm1 ||| putB 12 sx))
  | .insr m d a pos wm1 => some (.s, word m 0x2D (put 34 d ||| put 28 a ||| put 0 pos ||| put 6 wm1))
  | .ld m o => some (.s, word m 0x30 (o.toOperand))
  | .lds m o => some (.s, word m 0x31 (o.toOperand))
  | .st m d base size off => some (.s, word m 0x32 (put 34 d ||| put 28 base ||| put 21 size ||| put 0 off))
  | .chk m a => some (.s, word m 0x33 (put 28 a))
  | .pref m hint base off => some (.s, word m 0x34 (put 34 hint ||| put 28 base ||| put 0 off))
  | .amo m d base src lat op scope place size => some (.s, word m 0x35 (put 34 d ||| put 28 base ||| put 22 src ||| put 12 lat ||| put 8 op ||| put 5 scope ||| put 3 place ||| put 0 size))
  | .cas m d base src src2 lat scope place size => some (.s, word m 0x36 (put 34 d ||| put 28 base ||| put 22 src ||| put 16 src2 ||| put 12 lat ||| put 5 scope ||| put 3 place ||| put 0 size))
  | .fence m => some (.s, word m 0x37 (0#40))
  | .fenceJob m => some (.s, word m 0x37 (put 8 1#4))
  | .phase m scope => some (.s, word m 0x38 (put 5 scope))
  | .pub m scope => some (.s, word m 0x39 (put 5 scope))
  | .acq m scope => some (.s, word m 0x3A (put 5 scope))
  | .ifence m => some (.s, word m 0x3B (0#40))
  | .cwb m base src => some (.s, word m 0x3C (put 28 base ||| put 22 src))
  | .cinv m base src => some (.s, word m 0x3D (put 28 base ||| put 22 src))
  | .cinvDiscard m base src => some (.s, word m 0x3D (put 28 base ||| put 22 src ||| put 8 1#4))
  | .iinv m base src => some (.s, word m 0x3E (put 28 base ||| put 22 src))
  | .beq m a b nul zero disp => some (.s, word m 0x40 (put 34 a ||| put 28 b ||| putB 27 nul ||| putB 26 zero ||| put 0 disp))
  | .bne m a b nul zero disp => some (.s, word m 0x41 (put 34 a ||| put 28 b ||| putB 27 nul ||| putB 26 zero ||| put 0 disp))
  | .blt m a b nul zero disp => some (.s, word m 0x42 (put 34 a ||| put 28 b ||| putB 27 nul ||| putB 26 zero ||| put 0 disp))
  | .bge m a b nul zero disp => some (.s, word m 0x43 (put 34 a ||| put 28 b ||| putB 27 nul ||| putB 26 zero ||| put 0 disp))
  | .bltn m a b nul zero disp => some (.s, word m 0x44 (put 34 a ||| put 28 b ||| putB 27 nul ||| putB 26 zero ||| put 0 disp))
  | .bgen m a b nul zero disp => some (.s, word m 0x45 (put 34 a ||| put 28 b ||| putB 27 nul ||| putB 26 zero ||| put 0 disp))
  | .bps m p nul disp => some (.s, word m 0x46 (put 34 p ||| putB 27 nul ||| put 0 disp))
  | .bpc m p nul disp => some (.s, word m 0x47 (put 34 p ||| putB 27 nul ||| put 0 disp))
  | .j m disp => some (.s, word m 0x48 (put 0 disp))
  | .jl m link disp => some (.s, word m 0x49 (put 34 link ||| put 0 disp))
  | .jr m a => some (.s, word m 0x4A (put 28 a))
  | .jlr m d a => some (.s, word m 0x4B (put 34 d ||| put 28 a))
  | .loop m a stages seglen => some (.s, word m 0x4C (put 28 a ||| put 14 stages ||| put 0 seglen))
  | .lbrk m a b zero disp => some (.s, word m 0x4D (put 34 a ||| put 28 b ||| putB 26 zero ||| put 0 disp))
  | .setp m p a b cond => some (.s, word m 0x4E (put 34 p ||| put 28 a ||| put 22 b ||| put 16 cond))
  | .push m e a => some (.s, word m 0x50 (put 34 e.code ||| put 28 a))
  | .waitf m d a b peek => some (.s, word m 0x51 (put 34 d ||| put 28 a ||| put 22 b ||| putB 16 peek))
  | .sigf m a => some (.s, word m 0x52 (put 28 a))
  | .rdf m d a => some (.s, word m 0x53 (put 34 d ||| put 28 a))
  | .rdq m d q b pop => some (.s, word m 0x54 (put 34 d ||| put 28 q ||| put 22 b ||| putB 16 pop))
  | .start m e a => some (.s, word m 0x55 (put 34 e.code ||| put 28 a))
  | .rendez m => some (.s, word m 0x56 (0#40))
  | .endJob m a => some (.s, word m 0x57 (put 28 a))
  | .launch m d a => some (.s, word m 0x58 (put 34 d ||| put 28 a))
  | .yield m d => some (.s, word m 0x59 (put 34 d))
  | .mbox m a => some (.s, word m 0x5A (put 28 a))
  | .mbrd m d mode => some (.s, word m 0x5B (put 34 d ||| put 16 mode))
  | .trap m imm => some (.s, word m 0x60 (put 0 imm))
  | .tret m => some (.s, word m 0x61 (0#40))
  | .getc m d cw => some (.s, word m 0x62 (put 34 d ||| put 0 cw))
  | .setc m a cw => some (.s, word m 0x63 (put 28 a ||| put 0 cw))
  | .setb m a cw => some (.s, word m 0x64 (put 28 a ||| put 0 cw))
  | .clrb m a cw => some (.s, word m 0x65 (put 28 a ||| put 0 cw))
  | .evt m a cls => some (.s, word m 0x66 (put 28 a ||| put 0 cls))
  | .park m f => some (.s, word m 0x67 (put 0 f))
  | .fpost m d a => some (.s, word m 0x70 (put 34 d ||| put 28 a))
  | .ftime m d => some (.s, word m 0x71 (put 34 d))
  | .ftimeUntil m d a => some (.s, word m 0x71 (put 34 d ||| put 28 a ||| put 16 1#6))
  | .fthr m d => some (.s, word m 0x72 (put 34 d))
  | .rgrp m a b => some (.s, word m 0x73 (put 28 a ||| put 22 b))
  | .rshrd m a b c => some (.s, word m 0x74 (put 28 a ||| put 22 b ||| put 16 c))
  | .laysel m a => some (.s, word m 0x75 (put 28 a))
  | .rasave m a => some (.s, word m 0x76 (put 28 a))
  | .raload m a => some (.s, word m 0x77 (put 28 a))
  | .vnop m => some (.v, word m 0x00 (0#40))
  | .vadd m f => some (.v, word m 0x01 (f.toOperand))
  | .vsub m f => some (.v, word m 0x02 (f.toOperand))
  | .vmul m f => some (.v, word m 0x03 (f.toOperand))
  | .vfma m f => some (.v, word m 0x04 (f.toOperand))
  | .vfms m f => some (.v, word m 0x05 (f.toOperand))
  | .vfnma m f => some (.v, word m 0x06 (f.toOperand))
  | .vmin m f => some (.v, word m 0x07 (f.toOperand))
  | .vmax m f => some (.v, word m 0x08 (f.toOperand))
  | .vabs m f => some (.v, word m 0x09 (f.toOperand))
  | .vneg m f => some (.v, word m 0x0A (f.toOperand))
  | .vcmp m f => some (.v, word m 0x0B (f.toOperand))
  | .vsel m f => some (.v, word m 0x0C (f.toOperand))
  | .vexp2 m f => some (.v, word m 0x10 (f.toOperand))
  | .vlog2 m f => some (.v, word m 0x11 (f.toOperand))
  | .vrcp m f => some (.v, word m 0x12 (f.toOperand))
  | .vrsq m f => some (.v, word m 0x13 (f.toOperand))
  | .vsqrt m f => some (.v, word m 0x14 (f.toOperand))
  | .vsin m f => some (.v, word m 0x15 (f.toOperand))
  | .vcos m f => some (.v, word m 0x16 (f.toOperand))
  | .vtanh m f => some (.v, word m 0x17 (f.toOperand))
  | .vsigm m f => some (.v, word m 0x18 (f.toOperand))
  | .vcvt m f => some (.v, word m 0x20 (f.toOperand))
  | .vqmx m f => some (.v, word m 0x21 (f.toOperand))
  | .vdqmx m f => some (.v, word m 0x22 (f.toOperand))
  | .vqgi m f => some (.v, word m 0x23 (f.toOperand))
  | .vscl m f => some (.v, word m 0x24 (f.toOperand))
  | .vpack m f => some (.v, word m 0x25 (f.toOperand))
  | .vunpk m f => some (.v, word m 0x26 (f.toOperand))
  | .viadd m f => some (.v, word m 0x30 (f.toOperand))
  | .visub m f => some (.v, word m 0x31 (f.toOperand))
  | .vimul m f => some (.v, word m 0x32 (f.toOperand))
  | .vimad m f => some (.v, word m 0x33 (f.toOperand))
  | .vand m f => some (.v, word m 0x34 (f.toOperand))
  | .vor m f => some (.v, word m 0x35 (f.toOperand))
  | .vxor m f => some (.v, word m 0x36 (f.toOperand))
  | .vshl m f => some (.v, word m 0x37 (f.toOperand))
  | .vshr m f => some (.v, word m 0x38 (f.toOperand))
  | .vsha m f => some (.v, word m 0x39 (f.toOperand))
  | .vimin m f => some (.v, word m 0x3A (f.toOperand))
  | .vimax m f => some (.v, word m 0x3B (f.toOperand))
  | .vicmp m f => some (.v, word m 0x3C (f.toOperand))
  | .viota m f => some (.v, word m 0x3D (f.toOperand))
  | .vpopc m f => some (.v, word m 0x3E (f.toOperand))
  | .vred m f => some (.v, word m 0x40 (f.toOperand))
  | .vscan m f => some (.v, word m 0x41 (f.toOperand))
  | .vperm m f => some (.v, word m 0x42 (f.toOperand))
  | .vslide m f => some (.v, word m 0x43 (f.toOperand))
  | .vbcst m f => some (.v, word m 0x44 (f.toOperand))
  | .vmovi m vd imm => some (.v, word m 0x45 (put 35 vd ||| put 0 imm))
  | .vmov m f => some (.v, word m 0x46 (f.toOperand))
  | .vzip m f => some (.v, word m 0x47 (f.toOperand))
  | .vuzp m f => some (.v, word m 0x48 (f.toOperand))
  | .vtrn m f => some (.v, word m 0x49 (f.toOperand))
  | .vld m f => some (.v, word m 0x50 (f.toOperand))
  | .vst m f => some (.v, word m 0x51 (f.toOperand))
  | .vgath m f => some (.v, word m 0x52 (f.toOperand))
  | .vscat m f => some (.v, word m 0x53 (f.toOperand))
  | .vqcfg m vd depth => some (.v, word m 0x54 (put 35 vd ||| put 0 depth))
  | .vdrop m vd => some (.v, word m 0x55 (put 35 vd))
  | .vrope m f => some (.v, word m 0x60 (f.toOperand))
  | .vsmxStep m f => some (.v, word m 0x61 (f.toOperand))
  | .vsmxNorm m f => some (.v, word m 0x61 (f.toOperand))
  | .vsmxScale m f => some (.v, word m 0x61 (f.toOperand))
  | .vdwc m f => some (.v, word m 0x62 (f.toOperand))
  | .vkst m f => some (.v, word m 0x63 (f.toOperand))
  | .vzcmp m f => some (.v, word m 0x64 (f.toOperand))
  | .vzexp m f => some (.v, word m 0x65 (f.toOperand))
  | .vmaskp m f => some (.v, word m 0x66 (f.toOperand))
  | .vwelf m f => some (.v, word m 0x67 (f.toOperand))
  | .vloop m stages count => some (.v, word m 0x70 (put 37 stages ||| put 0 count))
  | .vlbrk m f => some (.v, word m 0x71 (put 0 f))
  | .vend m => some (.v, word m 0x72 (0#40))
  | .cnop m => some (.c, word m 0x00 (0#40))
  | .cmap m gA addr => some (.c, word m 0x01 (put 36 gA ||| put 0 addr))
  | .cmapSt m gA addr => some (.c, word m 0x01 (put 36 gA ||| put 0 addr ||| put 13 1#1))
  | .cstep m gA dim delta => some (.c, word m 0x02 (put 36 gA ||| put 24 dim ||| put 0 delta))
  | .cstepOdo m gA => some (.c, word m 0x02 (put 36 gA ||| put 26 1#1))
  | .ccopy m gS gD a1 a2 lr => some (.c, word m 0x03 (put 36 gS ||| put 32 gD ||| putB 0 a1 ||| putB 1 a2 ||| putB 2 lr))
  | .cfill m gD imm a => some (.c, word m 0x04 (put 36 gD ||| put 0 imm ||| putB 16 a))
  | .cbind m gS q count => some (.c, word m 0x05 (put 36 gS ||| put 27 q ||| put 0 count))
  | .csink m gD q count => some (.c, word m 0x06 (put 36 gD ||| put 27 q ||| put 0 count))
  | .cunb m q p c => some (.c, word m 0x07 (put 27 q ||| putB 0 p ||| putB 1 c))
  | .cpeerTx m q core bank vP => some (.c, word m 0x08 (put 27 q ||| put 0 core ||| putB 6 bank ||| put 7 vP ||| put 12 1#1))
  | .cpeerRx m q core bank vP => some (.c, word m 0x08 (put 27 q ||| put 0 core ||| putB 6 bank ||| put 7 vP))
  | .czc m gA a => some (.c, word m 0x09 (put 36 gA ||| putB 0 a))
  | .cgath m gS gD q nm1 => some (.c, word m 0x0A (put 36 gS ||| put 32 gD ||| put 27 q ||| put 0 nm1))
  | .cscat m gS gD q nm1 => some (.c, word m 0x0B (put 36 gS ||| put 32 gD ||| put 27 q ||| put 0 nm1))
  | .cuse m gA count dead => some (.c, word m 0x0C (put 36 gA ||| put 0 count ||| putB 4 dead))
  | .cpref m gA l1 a => some (.c, word m 0x0D (put 36 gA ||| putB 0 l1 ||| putB 1 a))
  | .cseqLd m k addr => some (.c, word m 0x10 (put 25 k ||| put 0 addr))
  | .cseqSt m k addr => some (.c, word m 0x10 (put 25 k ||| put 0 addr ||| put 23 1#2))
  | .cseqRope m gA q k => some (.c, word m 0x10 (put 36 gA ||| put 27 q ||| put 25 k ||| put 23 2#2))
  | .ckv m gA gB k => some (.c, word m 0x11 (put 36 gA ||| put 32 gB ||| put 25 k))
  | .ckrelPage m gA => some (.c, word m 0x12 (put 36 gA))
  | .ckrelWin m k => some (.c, word m 0x12 (put 25 k ||| put 23 1#2))
  | .ckrelTrunc m q k => some (.c, word m 0x12 (put 27 q ||| put 25 k ||| put 23 2#2))
  | .ckcfgLd m k addr => some (.c, word m 0x13 (put 13 k ||| put 0 addr))
  | .ckcfgClr m k => some (.c, word m 0x13 (put 13 k ||| put 18 1#2))
  | .ckgath m gP q vV vK k a => some (.c, word m 0x14 (put 36 gP ||| put 27 q ||| put 10 vV ||| put 5 vK ||| put 0 k ||| putB 15 a))
  | .cnbr m gD q op a rm sat => some (.c, word m 0x18 (put 36 gD ||| put 27 q ||| put 0 op ||| putB 2 a ||| put 3 rm.code ||| putB 6 sat))
  | .cnbu m gD q a vec rm => some (.c, word m 0x19 (put 36 gD ||| put 27 q ||| putB 0 a ||| putB 1 vec ||| put 2 rm.code))
  | .chalo m gA gB mask f dil => some (.c, word m 0x20 (put 36 gA ||| put 32 gB ||| put 0 mask ||| put 6 f ||| put 12 dil))
  | .cmsg m gA die core bank port => some (.c, word m 0x21 (put 36 gA ||| put 0 die ||| put 14 core ||| putB 20 bank ||| put 21 port))
  | .cloop m stages count => some (.c, word m 0x30 (put 24 stages ||| put 0 count))
  | .clbrk m f => some (.c, word m 0x31 (put 0 f))
  | .cend m => some (.c, word m 0x32 (0#40))
  | .mnop m => some (.m, word m 0x00 (0#40))
  | .mlease m => some (.m, word m 0x01 (0#40))
  | .mrel m => some (.m, word m 0x02 (0#40))
  | .mfmt m g => some (.m, word m 0x03 (put 34 g))
  | .mbld m g slot off => some (.m, word m 0x04 (put 34 g ||| put 26 slot ||| put 0 off))
  | .mbsel m slot => some (.m, word m 0x05 (put 26 slot))
  | .mma m tile asrc aq slot prof fidx rows row0 z a => some (.m, word m 0x06 (put 38 tile ||| put 34 asrc ||| putB 33 aq ||| put 26 slot ||| put 23 prof ||| put 19 fidx ||| put 10 rows ||| put 0 row0 ||| putB 8 z ||| putB 9 a))
  | .mzero m tile rows row0 => some (.m, word m 0x07 (put 38 tile ||| put 10 rows ||| put 0 row0))
  | .mdrain m tile asrc aq gs rm ot rows row0 clr a => some (.m, word m 0x08 (put 38 tile ||| put 34 asrc ||| putB 33 aq ||| put 26 gs ||| put 23 rm.code ||| put 19 ot.code ||| put 10 rows ||| put 0 row0 ||| putB 8 clr ||| putB 9 a))
  | .mscale m g rows => some (.m, word m 0x09 (put 34 g ||| put 10 rows))
  | .mloop m stages count => some (.m, word m 0x10 (put 24 stages ||| put 0 count))
  | .mlbrk m f => some (.m, word m 0x11 (put 0 f))
  | .mend m => some (.m, word m 0x12 (0#40))
  | .flagUnitCycle _ => none
  | .remoteIncrement _ => none
  | .sResultLand _ _ => none
  | .wordCompletion _ _ => none
  | .ringFetch _ _ => none
  | .sFetch _ => none
  | .jobStart _ => none
  | .jobRetire _ => none
  | .phaseBarrierComplete _ => none
  | .waitfComplete _ => none
  | .parkWake _ => none
  | .watchdogExpiry _ => none
  | .trapEntry _ => none
  | .compositeRecordWrite _ => none
  | .preemptionLanding _ => none
  | .preemptSave _ => none
  | .launchResume _ _ => none
  | .translationRequest _ _ _ => none
  | .pageAnswerGrant _ _ _ => none
  | .pageAnswerDeny _ _ _ => none
  | .pageRequestTimeout _ _ => none
  | .hostLaunchWrite _ _ => none
  | .launchIssue _ => none
  | .launchAging _ _ => none
  | .agentFreeReport _ => none
  | .launchEnd _ _ => none
  | .zkill _ _ => none
  | .zpre _ _ => none
  | .shootdownGo _ _ => none
  | .shootdownDone _ => none
  | .jsctlSwap _ => none
  | .jstabInstall _ => none
  | .replicaDropDone _ => none
  | .patrolScrub _ _ => none
  | .rsdataAccess _ _ _ => none
  | .controlRegisterWrite _ _ _ => none
  | .mscRead _ _ _ _ _ => none
  | .mscMaskedWrite _ _ _ _ => none
  | .mscBankAluOp _ _ _ _ _ => none
  | .cirrusAppend _ _ => none
  | .gatewayRead _ _ _ => none
  | .hostMemRead _ _ _ => none
  | .hostMemWrite _ _ _ => none
  | .arrayGrantPass _ => none
  | .planeLoadComplete _ _ => none
  | .boundStreamElement _ _ => none
  | .peerLinkForm _ _ => none
  | .peerElementForward _ _ => none
  | .mailboxEntryVisible _ _ => none
  | .layoutInstall _ => none
  | .haloDelivery _ => none
  | .reshardCheck _ => none
  | .reshardStep _ _ => none
  | .reshardSkew _ => none
  | .reshardComplete _ => none
  | .flitArrival _ => none
  | .flitHeaderError _ _ => none
  | .throttleWindow _ => none
  | .ftSyncLost _ => none
  | .readRequest _ => none
  | .readResponse _ => none
  | .maskedWrite _ => none
  | .bankAluRequest _ => none
  | .acknowledgement _ => none
  | .entryRequest _ => none
  | .entryGrant _ => none
  | .entryRequestRetry _ => none
  | .flitEject _ _ => none
  | .message _ => none
  | .bulkWrite _ => none
  | .reduceRead _ _ _ => none
  | .collectiveControl _ => none
  | .collectiveStart _ _ => none
  | .collectiveResult _ _ => none
  | .collectiveDeadline _ _ => none
  | .powerManagementTick _ _ _ => none
  | .thermalShutdown _ => none
  | .bringUp _ => none
  | .ftimeUntilTargetReached _ => none
  | .ftSyncAchieved _ => none

end Sys2Proof
end

