-- ==== Sys2Proof/Machine/Operands.lean ====
section
/-! DEFINITION. Queue registers as operands (R172 to R175), the issue of a V, C or M word, and operations in flight (R18). -/

namespace Sys2Proof.Machine

/-! Queues. -/

def Bank.setQueue (k : Bank) (q : Nat) (v : Queue) : Bank := { k with queues := k.queues.set q v }
def Bank.modQueue (k : Bank) (q : Nat) (f : Queue → Queue) : Bank := k.setQueue q (f (k.queue q))

/-- The head slot's element, when it has arrived. -/
def Queue.head (q : Queue) : Option Elem :=
  match q.slots with
  | [] => none
  | x :: _ => x.data

/-- The head popped in a cycle. -/
def Queue.pop (q : Queue) (cyc : Nat) : Queue :=
  { q with slots := q.slots.drop 1, popCyc := cyc + 1, popCnt := if q.popCyc = cyc + 1 then q.popCnt + 1 else 1 }

/-- Slots that a push of this cycle finds taken: those popped this cycle by other words count (R175). -/
def Queue.occupied (q : Queue) (cyc : Nat) : Nat := q.slots.length + (if q.popCyc = cyc + 1 then q.popCnt else 0)

/-- The identifier of a slot that an issue point reserves in a cycle, and of one that an agent or an operation appends after issue:
slots of one cycle stand in the order of their issue points, whatever order they were reserved in (R173). -/
def issueSlot (cyc : Nat) (p : Point) : Nat := 16 * cyc + 2 * p.index
def agentSlot (n : Nat) : Nat := 2 * n + 1

/-- A slot was reserved in the same cycle by a later issue point. -/
def laterPoint (id : Nat) (x : Slot) : Bool := x.id % 2 == 0 && x.id / 16 == id / 16 && decide (id < x.id)

/-- A slot reserved at the tail; a push to a full queue of depth 1 takes the place of its single slot (R175). A slot of a later issue
point's in the same cycle comes behind it (R173). -/
def Queue.reserve (q : Queue) (id : Nat) : Queue :=
  let later := q.slots.filter (laterPoint id)
  if q.depth = 1 then (if later.isEmpty then { q with slots := [⟨id, none⟩] } else q)
  else { q with slots := q.slots.filter (fun x => !laterPoint id x) ++ ⟨id, none⟩ :: later }

/-- A slot filled at completion (R173). A slot that a later push replaced is gone. -/
def Queue.fill (q : Queue) (id : Nat) (e : Elem) : Queue :=
  { q with slots := q.slots.map (fun x => if x.id = id then { x with data := some e } else x) }

/-- An element that a push made after issue appends, reserved and filled at once (R175). -/
def Queue.append (q : Queue) (id : Nat) (e : Elem) : Queue := { q with slots := q.slots ++ [⟨agentSlot id, some e⟩] }

/-- A C or M operation that will push to a queue (R175). -/
def Work.pushesTo (w : Work) (q : Nat) : Bool :=
  match w with
  | .seqRope _ _ q' => q' == q
  | .kgath _ _ _ _ vK vV => vK == q || vV == q
  | .pushes items => items.any (fun x => x.q == q)
  | .pushesThen items _ => items.any (fun x => x.q == q)
  | .bind _ q' .. => q' == q
  | .peer tx q' _ _ _ => !tx && q' == q
  | .mdrain _ _ _ (some q') _ _ _ _ _ _ => q' == q
  | _ => false

def Bank.pushInFlight (k : Bank) (q : Nat) : Bool := k.ops.any (fun o => o.todo.pushesTo q)

/-- What R174 and R175 answer an issue. -/
inductive QRes where
  | ok
  | stall
  | trap (cause q : Nat)
  deriving DecidableEq, Repr

/-- The other V issue point has not yet issued every V word before this one, as of the cycle's start (R175). -/
def Bank.otherBehind (k : Bank) (p : Point) : Bool :=
  match p with
  | .va => decide (k.veSeen < k.vaDyn)
  | .ve => decide (k.vaSeen < k.veDyn)
  | _ => false

/-- A read of a queue's head (R174, R175). -/
def Bank.readRes (k : Bank) (p : Point) (q : Nat) : QRes :=
  match (k.queue q).slots with
  | x :: _ => if x.data.isSome then .ok else .stall
  | [] => if (k.queue q).prod != .none || k.otherBehind p || k.pushInFlight q then .stall else .trap 0x09 q

/-- A push at issue (R175). `popped` says that this word pops the same queue, whose slot it may take. A push into a queue that is
full only because another word popped it in this cycle stalls, as VLD 3 of R178's example does in cycle 22; so the access side traps
only after the execute side's turn of the cycle. -/
def Bank.pushRes (k : Bank) (cyc : Nat) (p : Point) (q : Nat) (popped : Bool) : QRes :=
  let x := k.queue q
  let n := x.occupied cyc - (if popped then 1 else 0)
  if n < x.depth then .ok
  else if x.cons != .none || k.otherBehind p then .stall
  else if x.depth = 1 then .ok
  else if x.slots.length < x.depth || (p == .va && k.veDue) then .stall
  else .trap 0x08 q

/-- The first answer that is not ok. DESIGN CHOICE (log 73): a stall comes before a trap, and of two traps that of a source comes first. -/
def qAll (rs : List QRes) : QRes :=
  if rs.any (fun r => r == .stall) then .stall
  else match rs.find? (fun r => r != .ok) with
    | some r => r
    | none => .ok

/-- The distinct queues of a list of sources. -/
def dedup : List Nat → List Nat
  | [] => []
  | x :: t => if t.contains x then dedup t else x :: dedup t

/-- A queue that some source field names with its keep bit clear is popped, once (R174). -/
def poppedQueues (srcs : List (Nat × Bool)) : List Nat := dedup ((srcs.filter (fun x => !x.2)).map (fun x => x.1))

/-- The queue rules for a word's sources (queue, keep) and destinations (R174, R175). -/
def Bank.queueRes (k : Bank) (cyc : Nat) (p : Point) (srcs : List (Nat × Bool)) (dsts : List Nat) : QRes :=
  let pops := poppedQueues srcs
  qAll ((dedup (srcs.map (fun x => x.1))).map (k.readRes p) ++ dsts.map (fun q => k.pushRes cyc p q (pops.contains q)))

/-- The head of a queue as the word reads it. -/
def Bank.headOf (k : Bank) (q : Nat) : Elem := ((k.queue q).head).getD 0

/-- Pops, then pushes' slots, in the cycle of issue (R174). -/
def Bank.takeSlots (k : Bank) (cyc : Nat) (pops : List Nat) (slots : List (Nat × Nat)) : Bank :=
  let k := pops.foldl (fun k q => k.modQueue q (fun x => x.pop cyc)) k
  slots.foldl (fun k p => k.modQueue p.1 (fun x => x.reserve p.2)) k

/-! Operations. -/

/-- The layout active for a launch on a die (R403). -/
def Die.layout (d : Die) (seq : Nat) : Option (BitVec 1024) :=
  match d.layouts.find? (fun e => e.seq == seq) with
  | some e => e.desc
  | none => none

/-- The layout a word of bank b reads at issue. -/
def State.layoutOf (s : State) (b : Nat) : Option (BitVec 1024) := (s.die (bankDie b)).layout (s.bank b).seq

/-- An operation forked by the word of the focus (R18, R352). -/
def State.startOp (s : State) (m : Marks) (lat : Nat) (todo : Work) (effs : List Eff) : State :=
  let (id, s) := s.newId
  s.modBank s.focus.bank (fun k => { k with
    ops := k.ops ++ [⟨id, s.focus.point, s.focus.pos, m.signal, s.cycle, s.cycle + lat, todo, effs, s.layoutOf s.focus.bank, false⟩] })

/-- A word that completes in its issue cycle (R18). -/
def State.doneE (s : State) (m : Marks) : State :=
  s.modBank s.focus.bank (fun k => k.signalDone s.cycle s.focus.point m.signal)

/-- The slots that the word of the focus reserves in its destination queues. -/
def State.slotIds (s : State) (dsts : List Nat) : List (Nat × Nat) := dsts.map (fun q => (q, issueSlot s.cycle s.focus.point))

/-- The slot a word reserved in a queue. -/
def slotOf (slots : List (Nat × Nat)) (q : Nat) : Nat :=
  match slots.find? (fun p => p.1 == q) with | some p => p.2 | none => 0

/-- The issue of a V, C or M word at the focus. It stalls while `ready` is false or its queues make it wait (R175); it waits
on its flag (R20); it faults with a cause and value, or by R175 with the queue's number, making no consume (R23); or it
consumes, pops, reserves its slots, makes its at-issue increment, leaves its position, and runs its body. The body gets
the bank as it stood, to read heads from, and the slots. DESIGN CHOICE (log 73): a check's fault comes before a queue trap of R175. -/
def State.issueE (s : State) (m : Marks) (ready : Bool) (srcs : List (Nat × Bool)) (dsts : List Nat)
    (fault : Option (Nat × W64)) (body : Bank → List (Nat × Nat) → State → State) : Out :=
  let b := s.focus.bank
  let p := s.focus.point
  let k := s.bank b
  let q := k.queueRes s.cycle p srcs dsts
  let ready := ready && q != .stall
  match k.gate s.cycle p m.wait ready with
  | .stay k' => .next (s.setBank b k')
  | .go k' =>
    match fault, q with
    | some (c, v), _ => .next (s.faultE b p c v s.focus.pos)
    | none, .trap c n => .next (s.faultE b p c (BitVec.ofNat 64 n) s.focus.pos)
    | none, _ =>
      let slots := s.slotIds dsts
      let k'' := (((k'.takeSlots s.cycle (poppedQueues srcs) slots).signalIssue s.cycle p m.signal).advE p)
      let k'' := { k'' with idleSince := s.cycle, lastPoint := k''.lastPoint.set p.index (s.cycle + 1) }
      .next (body k slots (s.setBank b k'').spend)

/-- A word of no queue operand that completes at issue. -/
def State.plainE (s : State) (m : Marks) (ready : Bool) (fault : Option (Nat × W64)) (f : State → State) : Out :=
  s.issueE m ready [] [] fault (fun _ _ s => (f s).doneE m)

/-- What an operation writes at completion. -/
def Bank.applyEff (k : Bank) (e : Eff) : Bank :=
  match e with
  | .fill q slot x => k.modQueue q (fun y => y.fill slot x)
  | .mask i v => if i % 4 = 0 then k else { k with masks := k.masks.set (i % 4) v }
  | .map g v => { k with maps := k.maps.set g v }
  | .seq i v => { k with seqSlots := k.seqSlots.set i v }
  | .unbindCons q => k.modQueue q (fun y => { y with cons := .none })
  | .unbindProd q => k.modQueue q (fun y => { y with prod := .none })
  | .fallback _ => k

/-- A mask register: m0 reads as all ones (R177). -/
def Bank.maskReg (k : Bank) (i : Nat) : Mask := if i % 4 = 0 then BitVec.ofNat 512 (ones 512) else k.masks.get 0 (i % 4)

/-- A tensor-map register (R179). -/
def Bank.mapReg (k : Bank) (g : Nat) : Rec := k.maps.get 0 g

/-- The effects of an operation as it ends: it frees a consumer binding that no other operation in flight shares (R172). -/
def Bank.endEffs (k : Bank) (o : Op) : List Eff :=
  o.effs.filter (fun e => match e with
    | .unbindCons _ => !k.ops.any (fun x => x.id != o.id && x.effs.contains e)
    | _ => true)

/-- What a FENCE waits for is over: the memory accesses in flight, and with .job every operation issued before it, whose
identifiers are smaller (R108). -/
def Bank.fenced (k : Bank) (job : Bool) (before : Nat) : Bool :=
  k.pend.all (fun p => p.landed || !p.mem) && (!job || k.ops.all (fun o => decide (before ≤ o.id)))

/-- A blocked FENCE completes once nothing it awaits is left. -/
def State.wakeFence (s : State) (b : Nat) : State :=
  match (s.bank b).blocked with
  | some ⟨.fence job before, _, _⟩ => if (s.bank b).fenced job before then s.unblock b none else s
  | _ => s

/-- The end of an operation: its results are written, its increment is made, and it is gone (R18). A FENCE may have waited for it. -/
def State.finishOp (s : State) (b : Nat) (o : Op) : State :=
  (s.modBank b (fun k =>
    let k := (k.endEffs o).foldl (fun k e => k.applyEff e) k
    let k := { k with held := k.held ++ o.effs.filterMap (fun (e : Eff) => match e with | .fallback v => some (v, o.pos) | _ => none) }
    ({ k with ops := k.ops.filter (fun x => x.id != o.id) }).signalDone s.cycle o.point o.signal)).wakeFence b

end Sys2Proof.Machine
end

