-- ==== Sys2Proof/Machine/Waits.lean ====
section
/-! DEFINITION. Blocking S words that wait in the issue of the bank: WAITF (R112), PARK (R129), RDQ (R115) and EVT (R128). -/

namespace Sys2Proof.Machine

/-! WAITF and PARK. -/

/-- A waiting word of S was evaluated in this cycle and its condition did not hold (R20). -/
def Bank.judgeS (k : Bank) (cyc : Nat) : Bank :=
  { k with waiters := k.waiters.map (fun w => if w.point = .s then { w with judged := some cyc } else w) }

/-- Step 2 of R20 for the WAITF or PARK that stands on S, at its rank (R112, R129): `done` is its completion. It is evaluated once a cycle,
after the words ranked before it. -/
def State.pollFlag (s : State) (b f n : Nat) (done : Nat → State → State) : State :=
  let k := s.bank b
  match k.waiterOf .s with
  | some w =>
    if k.judgedAt s.cycle .s || k.overtakes s.cycle .s f w.rank then s
    else if k.condHolds 1 n f then done w.rank s
    else s.modBank b (fun k => k.judgeS s.cycle)
  | none => s

/-- S consumes n from a flag at a rank. -/
def Bank.consumeS (k : Bank) (cyc f n rank : Nat) : Bank := ((k.dropWaiter .s).judgeBefore cyc .s f rank).consume cyc f n

/-- The blocked WAITF of a bank (R112). -/
def State.pollWaitf (s : State) (b : Nat) : State :=
  match (s.bank b).blocked with
  | some ⟨.waitf d f n peek, _, _⟩ =>
    s.pollFlag b f n (fun rank s =>
      (s.modBank b (fun k => if peek then k.dropWaiter .s else k.consumeS s.cycle f n rank)).unblock b
        (some (d, BitVec.ofNat 64 ((s.bank b).flag f))))
  | _ => s

/-- Every issue point of a bank issues no earlier than a cycle. -/
def Bank.issueFrom (k : Bank) (cyc : Nat) : Bank :=
  { k with nextIssue := (List.range 5).foldl (fun m i => m.set i (max (m.get 0 i) cyc)) k.nextIssue }

/-- The PARK of a bank (R129): when it has waited, all four streams resume from the next cycle. -/
def State.pollPark (s : State) (b : Nat) : State :=
  match (s.bank b).blocked with
  | some ⟨.park f, _, since⟩ =>
    s.pollFlag b f 1 (fun rank s =>
      ((s.modBank b (fun k => k.consumeS s.cycle f 1 rank)).unblock b none).modBank b (fun k =>
        if since = s.cycle then k else k.issueFrom (s.cycle + 1)))
  | _ => s

/-! RDQ (R115). -/

def Bank.waitsRdq (k : Bank) : Bool := match k.blocked with | some ⟨.rdq .., _, _⟩ => true | _ => false

/-- The execute side has still to issue or not in this cycle: RDQ takes its place after it (R115). -/
def Bank.veBefore (k : Bank) (cyc : Nat) : Bool :=
  k.veDue || k.waiters.any (fun w => w.point == .ve && w.tried != some cyc && w.judged != some cyc && k.contends cyc .ve)

/-- A waiting RDQ: it reads the head once there is one, and traps when nothing can bring one, with its consume made (R23). -/
def State.pollRdq (s : State) (b : Nat) : State :=
  let k := s.bank b
  match k.blocked with
  | some ⟨.rdq d q word pop, _, _⟩ =>
    match (k.queue q).slots with
    | [] =>
      if (k.queue q).prod != .none || k.pushInFlight q then s
      else s.trapS b ⟨0x09, BitVec.ofNat 64 q⟩
    | x :: _ =>
      match x.data with
      | none => s
      | some e =>
        let s := if pop then s.modBank b (fun k => k.modQueue q (fun x => x.pop s.cycle)) else s
        s.unblock b (some (d, BitVec.ofNat 64 (e.toNat >>> (64 * word))))
  | _ => s

/-! EVT (R128). -/

/-- Free entries of the host event ring of 64. DEDUCED (log 22): W = R is an empty ring, so it holds 63. -/
def Hub.evFree (h : Hub) : Nat :=
  let w := h.reg 0x20050
  63 - (fld w 0 6 + 64 - fld w 6 6) % 64

/-- One 64-byte entry written at the write index. -/
def State.evEntry (s : State) (pkg : Nat) (v : Nat) : State :=
  let h := s.hub pkg
  let w := fld (h.reg 0x20050) 0 6
  let a := fld (h.reg 0x20048) 12 36 * 4096 + 64 * w
  (s.hostWrite a 64 v).modHub pkg (fun h => h.setReg 0x20050 (putFld (h.reg 0x20050) 0 6 (w + 1)))

/-- A waiting EVT: its event is accepted once the ring has room for it, and for the record at FAREA with class 1. -/
def State.pollEvt (s : State) (b : Nat) : State :=
  let k := s.bank b
  let pkg := pkgOf (bankDie b)
  match k.blocked with
  | some ⟨.evt record entry, _, _⟩ =>
    if (s.hub pkg).evFree < (if record then 5 else 1) then s else
    let s := s.evEntry pkg entry
    let s := if record then
        let rec256 := (s.core (bankCore b)).sp.load (fld (k.cw cwFAREA) 8 11 * 256) 256
        (List.range 4).foldl (fun (s : State) i => s.evEntry pkg ((rec256 >>> (512 * i)) % 2 ^ 512)) s
      else s
    s.unblock b none
  | _ => s

/-- The look of a blocked word of S at what it waits for, in S's turn: RDQ comes after the execute side of the cycle (R115). -/
def State.pollS (s : State) (b : Nat) : State :=
  match (s.bank b).blocked with
  | some ⟨.waitf .., _, _⟩ => s.pollWaitf b
  | some ⟨.park _, _, _⟩ => s.pollPark b
  | some ⟨.rdq .., _, _⟩ => if (s.bank b).veBefore s.cycle then s else s.pollRdq b
  | some ⟨.evt .., _, _⟩ => s.pollEvt b
  | _ => s

/-- S stands in a word that looks again in S's turn. -/
def Bank.polls (k : Bank) : Bool :=
  match k.blocked with
  | some ⟨.waitf .., _, _⟩ | some ⟨.park _, _, _⟩ | some ⟨.rdq .., _, _⟩ | some ⟨.evt .., _, _⟩ => true
  | _ => false

end Sys2Proof.Machine
end

