-- ==== Sys2Proof/Machine/Fetch.lean ====
section
/-! DEFINITION. Instruction fetch: the instruction cache (R170, R148), the rings (R26, R178), what an issue point needs
before it may issue (R13, R93, R159), words that are passed or nullified (R133, R138, R178, R219), and loop boundaries of
the ring engines (R219, R253, R294). The answer is the word's instruction, or the state when no word issues. -/

namespace Sys2Proof.Machine

/-- The 64-bit word of an instruction (R14); events have none. -/
def wordOf (i : Instr) : W64 :=
  match encode i with
  | some (_, w) => w
  | none => 0

/-- TCAUSE 0x01, with the word as TVAL (R71, R146). -/
def illegal (i : Instr) : Trap := ⟨0x01, wordOf i⟩
/-- TCAUSE 0x02, with the word as TVAL (R146). -/
def privilege (i : Instr) : Trap := ⟨0x02, wordOf i⟩

/-! The instruction cache. -/

/-- The cache key of a 64-byte line: domain lines by address, local lines apart. -/
def icKey : Tgt → Option Nat
  | .sp k off => some (2 ^ 60 + k * 2 ^ 20 + off / 64)
  | .shm c off => some (2 ^ 61 + c * 2 ^ 22 + off / 64)
  | .mem pa _ _ => some (pa / 64)
  | _ => none

/-- A line refilled from home or from local memory; refills bypass the L1 (R170). -/
def State.icRefill (s : State) (b : Nat) (t : Tgt) (key : Nat) : State × ICLine :=
  match t with
  | .sp k off =>
    (s, ⟨key, BitVec.ofNat 512 ((s.core k).sp.load (off / 64 * 64) 64), BitVec.ofNat 8 ((s.core k).sp.marksAt (off / 64 * 8) 8), s.cycle⟩)
  | .shm c off =>
    (s, ⟨key, BitVec.ofNat 512 ((s.cluster c).shm.load (off / 64 * 64) 64), BitVec.ofNat 8 ((s.cluster c).shm.marksAt (off / 64 * 8) 8), s.cycle⟩)
  | .mem pa _ _ =>
    let sh := pa / 64 % 4
    let (s, data, marks, stamp) := s.physReadLine b (pa / 256) (ones 64 <<< (64 * sh)) 0 false
    (s, ⟨key, BitVec.ofNat 512 (data.toNat >>> (512 * sh)), BitVec.ofNat 8 (marks.toNat >>> (8 * sh)), stamp⟩)
  | _ => (s, ⟨key, 0, 0, 0⟩)

/-- A bank may fetch from a line of the instruction cache: one of a remote home was read there after the bank's acquire stamp, though
the partner bank refilled it (R344, R369). -/
def State.icHit (s : State) (b : Nat) (t : Tgt) (l : ICLine) : Bool :=
  match t with
  | .mem pa _ _ => decide (hostBase ≤ pa) || paDie pa == bankDie b || decide ((s.bank b).stamp < l.stamp)
  | _ => true

/-- What a fetch brings. -/
inductive Fetched where
  | word (w : W64) (bad : Bool)
  | trap (t : Trap)
  | page (root : Nat)
  deriving DecidableEq, Repr

/-- The word at an address, through the instruction cache: 256 sets of 4 ways, the oldest line of a set leaving
(DESIGN CHOICE, log 11). A line that held a bad word is not kept (R148). Shared memory is single-copy, so its words are
not kept either (DEDUCED, log 19: IINV skips that window, R108). -/
def State.fetchWord (s : State) (b : Nat) (a : W64) : State × Fetched :=
  if 2 ^ 48 ≤ a.toNat then (s, .trap ⟨0x05, a⟩)
  else if a.toNat % 8 ≠ 0 then (s, .trap ⟨0x04, a⟩)
  else
    let (s, t) := s.resolve b a.toNat 8 false false
    match t with
    | .absent root _ => (s, if (s.bank b).sv then .trap ⟨0x06, a⟩ else .page root)
    | _ =>
      match icKey t with
      | none => (s, .trap ⟨0x05, a⟩)
      | some key =>
        let kc := bankCore b
        let (s, l) := match (s.core kc).ic.find? (fun l => l.line == key && s.icHit b t l) with
          | some l => (s, l)
          | none =>
            let (s, l) := s.icRefill b t key
            let ic : List ICLine := (s.core kc).ic.filter (fun x => x.line != key)
            let set : List ICLine := ic.filter (fun x => x.line % 256 == key % 256)
            let ic : List ICLine := if set.length < 4 then ic else match set.head? with
              | some v => ic.filter (fun x => x.line != v.line)
              | none => ic
            ((match t with | .shm .. => s | _ => s.modCore kc (fun c => { c with ic := ic ++ [l] })), l)
        let i := a.toNat / 8 % 8
        let bad := l.marks.getLsbD i
        let s := if bad then s.modCore kc (fun c => { c with ic := c.ic.filter (fun x => x.line != key) }) else s
        (s, .word (BitVec.ofNat 64 (l.data.toNat >>> (64 * i))) bad)

/-! Readiness. -/

/-- The job on a bank runs and no page wait, freeze or PARK holds its streams (R129, R390, R394). -/
def Bank.running (k : Bank) : Bool :=
  (match k.job with | some j => j.phase == .running | none => false) && k.parked.isEmpty && k.freeze.isNone && !k.parkHolds

/-- An issue point of a running job may issue in a cycle. In the cycle in which a fault is detected, the issue points that have not
themselves faulted still issue (R390). -/
def Bank.pointRuns (k : Bank) (cyc : Nat) (p : Point) : Bool :=
  match k.freeze with
  | none => k.running
  | some fr => fr.at_ == cyc && fr.point != some p && fr.more.all (fun e => e.1 != p) && ({ k with freeze := none } : Bank).running

/-- The issue point may issue in this cycle: one word a cycle, and not beside the partner's word (R13, R159). -/
def State.pointFree (s : State) (b : Nat) (p : Point) : Bool :=
  decide ((s.bank b).nextIssue.get 0 p.index ≤ s.cycle) && (s.bank b).lastPoint.get 0 p.index != s.cycle + 1 &&
  (s.bank (partner b)).lastPoint.get 0 p.index != s.cycle + 1

/-- S may try to issue. -/
def State.sReady (s : State) (b : Nat) : Bool :=
  let k := s.bank b
  k.pointRuns s.cycle .s && k.blocked.isNone && s.pointFree b .s && !k.held93 s.cycle

/-- A ring issue point may move. A fault stops the engines, and a pre-emption stops them outside their loops (R146, R223, R255). -/
def State.eReady (s : State) (b : Nat) (p : Point) : Bool :=
  (s.bank b).pointRuns s.cycle p && (s.bank b).engRuns p

/-- A turn in which the issue point cannot issue: a word that waits there takes no part in step 2 of R20. -/
def State.miss (s : State) (b : Nat) (p : Point) : State := s.modBank b (fun k => k.missed s.cycle p)

/-- The issue point's cycle used up. -/
def State.useCycle (s : State) (b : Nat) (p : Point) : State :=
  s.modBank b (fun k => { k with nextIssue := k.nextIssue.set p.index (s.cycle + 1) })

/-- What an issue turn comes to: a state with no word, or an instruction to run in a state. -/
inductive Issue where
  | quiet (s : State)
  | run (i : Instr) (s : State)
  deriving DecidableEq, Repr

/-- The S word at pc is nullified: by an untaken .n branch, or by its segment (R133, R138). -/
def Bank.nullified (k : Bank) : Bool :=
  decide (0 < k.nullS) || (match k.segmentOf with
    | some g => !(k.cw cwLSTAT).getLsbD (6 + g)
    | none => false)

/-- The turn of S. A blocked word looks again at what it waits for, and RDQ issues after the execute side of the cycle (R115). DESIGN CHOICE
(log 74): a nullified word takes the cycle of its own bank's issue point alone, so the partner may issue in it (R133, R159). -/
def State.turnS (s : State) (b : Nat) : Issue :=
  let k := s.bank b
  if k.pointRuns s.cycle .s && k.blocked.isSome then
    .quiet (s.pollS b)
  else if !s.sReady b then .quiet (s.miss b .s) else
  if k.nullified then .quiet ((s.useCycle b .s).modBank b (fun k => { (k.advance none) with nullS := k.nullS - 1 })) else
  let (s, f) := match k.fetched.find? (fun x => x.1 == k.pc.toNat) with
    | some (_, w, bad) => (s.modBank b (fun k => { k with fetched := k.fetched.filter (fun x => x.1 != k.pc.toNat) }), Fetched.word w bad)
    | none => s.fetchWord b k.pc
  let s := { s with focus := ⟨b, .s, 0, 0⟩ }
  match f with
  | .trap t => .quiet ((s.useCycle b .s).trapS b t)
  | .page root => .quiet (s.parkFor b 0 k.pc.toNat false root)
  | .word w bad =>
    if bad then .quiet (s.trapS b ⟨0x16, k.pc⟩) else
    match decode .s w with
    | .error _ => .quiet (s.trapS b ⟨0x01, w⟩)
    | .ok (.rdq m d q a pop) => if k.veBefore s.cycle then .quiet s else .run (.rdq m d q a pop) s
    | .ok i => .run i s

/-! Ring engines. -/

/-- The opcode of a word. -/
def opcodeOf (w : W64) : Nat := fld w 40 8

/-- The side of a V word, by its opcode alone (R178). -/
def isAccess (w : W64) : Bool := decide (0x50 ≤ opcodeOf w) && decide (opcodeOf w ≤ 0x53)

/-- The opcodes of the loop word, break and end of each engine (R218, R252, R293). -/
def loopOpcode : Engine → Nat | .v => 0x70 | .c => 0x30 | .m => 0x10
def breakOpcode : Engine → Nat | .v => 0x71 | .c => 0x31 | .m => 0x11
def endOpcode : Engine → Nat | .v => 0x72 | .c => 0x32 | .m => 0x12

/-- The loop control words of each engine. -/
def loopCSel : Engine → Nat | .v => cwVLOOPC | .c => cwCLOOPC | .m => cwMLOOPC
def loopSSel : Engine → Nat | .v => cwVLSTAT | .c => cwCLSTAT | .m => cwMLSTAT

/-- Scratchpad word w lies in the region of another ring of the bank: words fetched from an overlap are undefined (R181). -/
def Bank.otherRing (k : Bank) (e : Engine) (w : Nat) : Bool :=
  [Engine.v, .c, .m].any (fun x => x != e && decide (ringBase (k.ring x) / 8 ≤ w) && decide (w < ringBase (k.ring x) / 8 + ringN (k.ring x)))

/-- The word at a ring position is undefined: something other than PUSH and the preload was the last to write it, or it lies in an
overlap of two rings (R26, R181). -/
def State.ringSpoilt (s : State) (b : Nat) (p : Point) (pos : Nat) : Bool :=
  let w := ringAddr ((s.bank b).ring (Point.engine p)) pos / 8
  !(s.core (bankCore b)).ringed.contains w || (s.bank b).otherRing (Point.engine p) w

/-- The word in the scratchpad at a ring position, with its marker; one that PUSH or a preload did not write is undefined (R26). -/
def State.storedWord (s : State) (b : Nat) (p : Point) (pos : Nat) : W64 × Bool :=
  let a := ringAddr ((s.bank b).ring (Point.engine p)) pos
  (if s.ringSpoilt b p pos then s.freeWord 64 (128 + p.index) else BitVec.ofNat 64 ((s.core (bankCore b)).sp.load a 8),
   (s.core (bankCore b)).sp.marked a 8)

/-- The word at a ring position, fetched ahead or from the scratchpad, with its marker. -/
def State.ringWord (s : State) (b : Nat) (p : Point) (pos : Nat) : W64 × Bool :=
  match (s.bank b).ringBuf.find? p.index with
  | some (q, x, bad) => if q = pos then (x, bad) else s.storedWord b p pos
  | none => s.storedWord b p pos

/-- Words that an issue point at a position may fetch: one that S pushed in this cycle is fetched from the next (R26), and one that S
pushed behind an access of its own once that has been performed (R355). -/
def State.fetchable (s : State) (b : Nat) (p : Point) : Nat :=
  let e := Point.engine p
  let k := s.bank b
  let ring := k.ring e
  let n := ringAhead ring (k.pointPos p) - (if k.pushed.get 0 e.code.toNat = s.cycle + 1 then 1 else 0)
  match k.heldFrom.find? e.code.toNat with
  | some q => min n (ringAhead (putFld ring 16 16 q) (k.pointPos p))
  | none => n

/-- The active mask of a pass of a ring loop; passes count from 1, and an issue point in pass 0 has not entered. -/
def RLoop.mask (l : RLoop) (pass : Nat) : Nat :=
  match l.masks.find? (fun x => x.1 == pass) with
  | some (_, m) => m.toNat
  | none => 0

def RLoop.setPass (l : RLoop) (p : Point) (n : Nat) : RLoop := if p = .va then { l with passA := n } else { l with passE := n }

/-- The segment of a ring position in a loop's body. -/
def RLoop.segment (l : RLoop) (pos n2 : Nat) : Option Nat :=
  let i := (pos + n2 - l.loopPos) % n2
  if 1 ≤ i ∧ i ≤ l.body then some ((i - 1) / (l.body / l.stages)) else none

/-- The mask of the next pass, decided by the first side to reach its boundary (R138, R219, R223): stage 0 starts an
iteration while some are left and no stop was asked for. The model's choice (log 63): where the execute side is ahead of the access
side, stage 0 goes off at the first boundary that neither side has crossed; R223 speaks of the access side alone. -/
def Bank.openPass (k : Bank) (e : Engine) (l : RLoop) (pass : Nat) : Bank × RLoop × Nat :=
  match l.masks.find? (fun x => x.1 == pass) with
  | some (_, m) => (k, l, m.toNat)
  | none =>
    let c := k.cw (loopCSel e)
    let n := fld c 0 24
    let stop := l.stop || k.preempting
    let l := if k.preempting then { l with preempt := true } else l
    let on := decide (0 < n) && !stop
    let act := (2 * l.mask (pass - 1) + (if on then 1 else 0)) % 2 ^ l.stages
    let k := if on then
        (let k := k.putCw (loopCSel e) 0 24 (n - 1)
         if e = .c then k else k.putCw (loopCSel e) 24 24 (fld c 24 24 + 1))
      else k
    let oldest := if e == .v then min l.passA l.passE else l.passE
    (k, { l with masks := (l.masks.filter (fun x => decide (oldest ≤ x.1))) ++ [(pass, BitVec.ofNat 8 act)] }, act)

/-- ALEAD is recorded when a pre-emption has stopped V outside a loop: the positions by which the access side leads (R222, R223). The
model's choice (log 63): a word may issue while it lies 32 positions beyond the execute side's next one (R178), and the access side then
stands one further, so that the lead, which R222 states as 0 to 32, is recorded as 33. -/
def Bank.noteLead (k : Bank) : Bank :=
  if k.preempting && k.vloop.isNone then k.putCw cwVLSTAT 27 6 (k.vaDyn - k.veDyn) else k

/-- An issue point leaves the loop after pass `pass` (R219). When every side has left, ACT clears and the loop is gone; a
loop left by pre-emption with iterations to go stays at its loop word with PRE set (R223, R255). -/
def Bank.leaveLoop (k : Bank) (e : Engine) (p : Point) (l : RLoop) (pass : Nat) : Bank :=
  let n2 := 2 * ringN (k.ring e)
  let after := (l.loopPos + l.body + 2) % n2
  let l := { (l.setPass p pass) with ended := some pass }
  let k := (k.setEngLoop e (some l)).moveTo p after
  if e == .v && l.passA != l.passE then k else
  let left := decide (0 < fld (k.cw (loopCSel e)) 0 24)
  let resume := l.preempt && left && !(k.cw (loopSSel e)).getLsbD 1
  let k := ((k.putCw (loopSSel e) 0 1 0).putCw (loopSSel e) 6 8 0).putCw (loopSSel e) 2 1 (if resume then 1 else 0)
  let k := k.setEngLoop e none
  (if resume then ({ (k.putCw (ringSel e) 0 16 l.loopPos) with vaPos := (if e = Engine.v then l.loopPos else k.vaPos) }).fixHP e
   else k.fixHP e).noteLead

/-- An issue point crosses a pass boundary, or leaves the loop when no stage is live (R219). -/
def Bank.crossPass (k : Bank) (e : Engine) (p : Point) (l : RLoop) : Bank :=
  let pass := l.passOf p + 1
  let (k, l, act) := k.openPass e l pass
  if act ≠ 0 then
    let k := if p = .va then k else k.putCw (loopSSel e) 6 8 act
    (k.setEngLoop e (some (l.setPass p pass))).moveTo p ((l.loopPos + 1) % (2 * ringN (k.ring e)))
  else k.leaveLoop e p l pass

/-- The access side may cross into the next pass: not before the execute side has issued or nullified every VLBRK of the
pass (R220). A body without VLBRK does not hold it. -/
def State.accessMayCross (s : State) (b : Nat) (l : RLoop) : Bool :=
  let k := s.bank b
  let n2 := 2 * ringN (k.ring .v)
  let hasBrk := (List.range l.body).filter (fun i => opcodeOf (s.ringWord b .va ((l.loopPos + 1 + i) % n2)).1 == 0x71)
  match hasBrk.getLast? with
  | none => true
  | some i => decide (l.passA < l.passE) ||
      (l.passA == l.passE && decide (i + 1 < (k.pointPos .ve + n2 - l.loopPos) % n2))

/-- The turn again after a word that takes no cycle at this point. -/
def State.again (s : State) (b : Nat) (p : Point) : State := { s with agenda := .issue b p :: s.agenda }

/-- A word of this side: it is nullified in an inactive segment, faults, or runs. DESIGN CHOICE (log 75): a word in an inactive segment is
nullified whether or not it carries a poison marker. -/
def State.turnOwn (s : State) (b : Nat) (p : Point) (w : W64) (bad : Bool) (pos : Nat) (seg : Option Nat) (l : Option RLoop) : Issue :=
  let e := Point.engine p
  let k := s.bank b
  let off := match l, seg with
    | some l, some g => !(l.mask (l.passOf p)).testBit g
    | _, _ => false
  if !s.pointFree b p then .quiet (s.miss b p) else
  if off then .quiet ((s.useCycle b p).modBank b (fun k => k.advE p)) else
  if bad then .quiet (s.faultE b p 0x16 (BitVec.ofNat 64 (ringAddr (k.ring e) pos)) pos) else
  let idx := match l, seg with
    | some l, some g => l.k0 + l.passOf p - 1 - g
    | _, _ => 0
  match decode p.space w with
  | .error _ => .quiet (s.faultE b p 0x01 w pos)
  | .ok i => .run i { s with focus := ⟨b, p, pos, idx⟩ }

/-- The access side at the loop word of the loop the execute side has issued: it enters the body, or passes a loop of no
iteration whole (R219, R220). -/
def Bank.enterLoop (k : Bank) (l : RLoop) : Bank :=
  if l.mask 1 = 0 then (k.advE .va).leaveLoop .v .va l 1 else (k.setEngLoop .v (some { l with passA := 1 })).advE .va

/-- An execute-side word that the access side does not pass before it has issued: a VLOOP, whose loop the access side then
enters, and a VQCFG or VDROP (R211, R220). -/
def Bank.holdsAccess (k : Bank) (p : Point) (w : W64) : Bool :=
  p == .va && (opcodeOf w == 0x70 || ((opcodeOf w == 0x54 || opcodeOf w == 0x55) && decide (k.veDyn ≤ k.vaDyn)))

/-- The end word of a loop at an issue point in its body: the next pass, or the exit (R219). It takes no cycle on V and C, and MEND
takes one (R282). -/
def State.loopEnd (s : State) (b : Nat) (p : Point) (l : RLoop) : State :=
  let s := s.modBank b (fun k => k.crossPass (Point.engine p) p l)
  if p = .m then s.useCycle b p else s.again b p

/-- The end word at the issue point whose word it is: it is decoded, and an illegal one faults (R71, R218, R252, R293). -/
def State.turnEnd (s : State) (b : Nat) (p : Point) (w : W64) (bad : Bool) (pos : Nat) (l : RLoop) : Issue :=
  if !s.pointFree b p then .quiet s else
  if bad then .quiet (s.faultE b p 0x16 (BitVec.ofNat 64 (ringAddr ((s.bank b).ring (Point.engine p)) pos)) pos) else
  match decode p.space w with
  | .error _ => .quiet (s.faultE b p 0x01 w pos)
  | .ok i => if opcodeOf w = endOpcode (Point.engine p) then .run i { s with focus := ⟨b, p, pos, 0⟩ } else .quiet (s.loopEnd b p l)

/-- The execute side has had a turn of this cycle (R178). -/
def State.takesTurn (s : State) (b : Nat) (p : Point) : State :=
  if p = .ve then s.modBank b (fun k => { k with veDue := false }) else s

/-- The turn of V access, V execute, C or M. -/
def State.turnE (s : State) (b : Nat) (p : Point) : Issue :=
  let e := Point.engine p
  let s := s.takesTurn b p
  let k := s.bank b
  -- the access side neither issues nor passes a word more than 32 positions beyond the execute side (R178)
  if !s.eReady b p || (p == .va && decide (k.veDyn + 32 < k.vaDyn)) then .quiet (s.miss b p) else
  let ring := k.ring e
  let pos := k.pointPos p
  if s.fetchable b p = 0 then .quiet s else
  let (w, bad) := s.ringWord b p pos
  let own := if p = .va then isAccess w else !(e == .v && isAccess w)
  match k.engLoop e with
  | some l =>
    if l.ended = some (l.passOf p) then
      -- this side has left the loop and runs on beyond it
      (if own then s.turnOwn b p w bad pos none none
       else if k.holdsAccess p w then .quiet s
       else .quiet ((s.modBank b (fun k => k.advE p)).again b p))
    else if pos = (l.loopPos + l.body + 1) % (2 * ringN ring) then
      (if p = .va then .quiet (if s.accessMayCross b l then s.loopEnd b p l else s)
       else s.turnEnd b p w bad pos l)
    else if p = .va && pos == l.loopPos then .quiet ((s.modBank b (fun k => k.enterLoop l)).again b p)
    else if own then s.turnOwn b p w bad pos (l.segment pos (2 * ringN ring)) (some l)
    else if k.holdsAccess p w then .quiet s
    else .quiet ((s.modBank b (fun k => k.advE p)).again b p)
  | none =>
    if own then s.turnOwn b p w bad pos none none
    else if k.holdsAccess p w then .quiet s
    else .quiet ((s.modBank b (fun k => k.advE p)).again b p)

/-- The turn of an issue point. -/
def State.turn (s : State) (b : Nat) (p : Point) : Issue :=
  match p with
  | .s => s.turnS b
  | _ => s.turnE b p

/-! Placing a word (the host's question of one instruction). -/

/-- A job for a word to run in: the whole scratchpad is its range. -/
def probeJob : Job :=
  { seq := 1, jidx := 0, tag := 1, pkg := 0, phase := .running, record := BitVec.ofNat 512 (127 * 2 ^ 338), launchRec := 0,
    submitter := none, paired := false, det := false }

/-- A bank whose other two rings lie clear of the ring of an engine, so that its words are not those of an overlap (R181): where they would
share a word, they become rings of 32 words below it, or past its end. -/
def Bank.ringsApart (k : Bank) (e : Engine) : Bank :=
  let ring := k.ring e
  if !k.otherRing e (ringAddr ring (ringRP ring) / 8) then k else
  let at_ := if 512 ≤ ringBase ring then 0 else (ringBase ring + 8 * ringN ring + 255) / 256
  let place (k : Bank) (x : Engine) (n : Nat) : Bank := k.setCw (ringSel x) (putFld (putFld (k.ring x) 48 4 0) 52 11 (at_ + n))
  let others := [Engine.v, .c, .m].filter (fun x => x != e)
  match others with
  | x :: y :: _ => place (place k x 0) y 1
  | _ => k

/-- The state with a word where an issue point of bank 0 of core 0 of die 0 fetches next, a job live there, and that point's
turn next. S fetches it at its pc, and the other engines at the read pointer of their ring. -/
def State.placeWord (s : State) (sp : Space) (w : W64) : State :=
  let k := s.bank 0
  let p : Point := match sp with
    | .s => .s
    | .v => if isAccess w then .va else .ve
    | .c => .c
    | .m => .m
  let k := { k with job := some (k.job.getD probeJob), parked := [], freeze := none, stopped := false, blocked := none,
                    nextIssue := [], pend := [], nullS := 0, sloop := none, targets := [], fetched := [], preempt := false,
                    pushed := [], heldFrom := [], ringBuf := [], waiters := [], veDue := false }
  match p with
  | .s =>
    let s := s.setBank 0 k
    { (s.modCore 0 (fun c => { c with sp := c.sp.write k.pc.toNat 8 w.toNat false, ic := [] })) with agenda := .issue 0 p :: s.agenda }
  | _ =>
    let e := Point.engine p
    let ring := k.ring e
    let ring := putFld (putFld ring 16 16 (ringRP ring + 1)) 32 16 (ringRP ring)
    let k := { (k.setCw (ringSel e) ring) with vaPos := ringRP (k.ring .v), vaDyn := k.veDyn }
    let k := (k.setEngLoop e none).ringsApart e
    let s := s.setBank 0 k
    { (s.modCore 0 (fun c => { c with
        sp := c.sp.write (ringAddr ring (ringRP ring)) 8 w.toNat false, ringed := insertNat c.ringed (ringAddr ring (ringRP ring) / 8) })) with
      agenda := .issue 0 p :: s.agenda }

end Sys2Proof.Machine
end

