-- ==== Sys2Proof/Machine/Flags.lean ====
section
/-! DEFINITION. Comparisons (R100, R130, R136) and the flag unit (R20, R21, R22). -/

namespace Sys2Proof.Machine

/-- The six comparisons of the B-form branches and SETP, in code order: eq, ne, lt, ge, ltn, gen (R130, R136). -/
def compareS (c : Nat) (x y : W64) : Bool :=
  match c with
  | 0 => x == y
  | 1 => x != y
  | 2 => x.slt y
  | 3 => !x.slt y
  | 4 => x.ult y
  | _ => !x.ult y

/-- A Boolean as 0 or 1. -/
def flagWord (c : Bool) : W64 := if c then 1 else 0

/-- TVAL of a flag overflow (R21). -/
def overflowVal (i : Incr) : W64 :=
  BitVec.ofNat 64 (i.flag + (if i.remote then 64 else i.point.index * 256))

/-- Step 1 of R20 for one increment of bank b: the flag counts, or the increment is dropped and the overflow taken on the
path of its signaller (R21). A signal of mode 0b11 sets its CEVT bit (R155). -/
def State.applyIncr (s : State) (b : Nat) (i : Incr) : State :=
  let k := s.bank b
  let k := if i.event then k.setCw cwCEVT (k.cw cwCEVT ||| BitVec.ofNat 64 (2 ^ i.flag)) else k
  if k.flag i.flag < 0xFFFF then s.setBank b (k.setFlag i.flag (k.flag i.flag + 1))
  else
    let s := s.setBank b k
    if i.remote then s.freezeBy b none 0x0A (overflowVal i) 0
    else match i.point with
      | .s => s.freezeBy b (some .s) 0x0A (overflowVal i) 0
      | p => s.faultE b p 0x0A (overflowVal i) (k.pointPos p)

/-- Local increments in the order S, V access, V execute, C, M, then remote ones in arrival order (R20). -/
def incrOrder (is : List Incr) : List Incr :=
  (is.filter (fun i => !i.remote && i.point == .s)) ++ (is.filter (fun i => !i.remote && i.point == .va)) ++
  (is.filter (fun i => !i.remote && i.point == .ve)) ++ (is.filter (fun i => !i.remote && i.point == .c)) ++
  (is.filter (fun i => !i.remote && i.point == .m)) ++ (is.filter (fun i => i.remote))

/-- An increment applies in a cycle: it is due, and an S store issued before an increment of S was made has been performed (R355). The
model holds such an increment until no S store issued before it is outstanding (DEDUCED, log 89). -/
def Bank.applies (k : Bank) (cyc : Nat) (i : Incr) : Bool :=
  decide (i.due ≤ cyc) && !(i.point == .s && !i.remote && k.pend.any (fun p => !p.landed && decide (p.issued < i.due) &&
    (match p.page with | some (.store ..) => true | _ => false)))

/-- Step 1 of R20: the increments that are due. -/
def State.flagUnit (s : State) (b : Nat) : State :=
  let k := s.bank b
  let due := k.incs.filter (k.applies s.cycle)
  let s := s.setBank b { k with incs := k.incs.filter (fun i => !k.applies s.cycle i) }
  (incrOrder due).foldl (fun s i => s.applyIncr b i) s

end Sys2Proof.Machine
end

