-- ==== Sys2Proof/Machine/ScalarFlow.lean ====
section
/-! DEFINITION. S control flow: branches and jumps behind two delay slots (R130 to R135), predicates (R136), the S hardware
loop (R137 to R140), CHK (R144), TRAP (R156) and the return from a trap (R157). -/

namespace Sys2Proof.Machine

/-- The address of the S word. -/
def State.here (s : State) : W64 := (s.bank s.focus.bank).pc

/-- A trap of a word of opcodes 0x40 to 0x4B: two targets are pending, or an S loop is active (R134, R139). -/
def State.jumpTrap (s : State) (i : Instr) : Option Trap :=
  let k := s.bank s.focus.bank
  if k.targets.length = 2 ∨ k.loopAct then some (illegal i) else none

/-- The end of a branch: its target is scheduled, or, untaken with .n, its two slots are nullified (R132, R133). -/
def State.branchDone (s : State) (m : Marks) (taken nul : Bool) (target : W64) : State :=
  s.modBank s.focus.bank (fun k =>
    { ((k.advance (if taken then some target else none)).signalDone s.cycle .s m.signal) with
      nullS := if !taken && nul then 2 else k.nullS })

/-- A B-form compare branch (R130): poisoned operands trap (R145). -/
def State.compareBranch (s : State) (i : Instr) (m : Marks) (c : Nat) (a b : SReg) (nul zero : Bool) (disp : BitVec 26) : Out :=
  let k := s.focus.bank
  let regs := if zero then [a.toNat] else [a.toNat, b.toNat]
  s.issueS m true (firstTrap [s.jumpTrap i, s.poisonTrap k regs]) (fun s =>
    let y := if zero then 0 else s.sVal k b.toNat
    s.branchDone m (compareS c (s.sVal k a.toNat) y) nul (s.here + 8 * disp.signExtend 64))

def execBeq (m : Marks) (a b : SReg) (nul zero : Bool) (disp : BitVec 26) (s : State) : Out :=
  s.compareBranch (.beq m a b nul zero disp) m 0 a b nul zero disp
def execBne (m : Marks) (a b : SReg) (nul zero : Bool) (disp : BitVec 26) (s : State) : Out :=
  s.compareBranch (.bne m a b nul zero disp) m 1 a b nul zero disp
def execBlt (m : Marks) (a b : SReg) (nul zero : Bool) (disp : BitVec 26) (s : State) : Out :=
  s.compareBranch (.blt m a b nul zero disp) m 2 a b nul zero disp
def execBge (m : Marks) (a b : SReg) (nul zero : Bool) (disp : BitVec 26) (s : State) : Out :=
  s.compareBranch (.bge m a b nul zero disp) m 3 a b nul zero disp
def execBltn (m : Marks) (a b : SReg) (nul zero : Bool) (disp : BitVec 26) (s : State) : Out :=
  s.compareBranch (.bltn m a b nul zero disp) m 4 a b nul zero disp
def execBgen (m : Marks) (a b : SReg) (nul zero : Bool) (disp : BitVec 26) (s : State) : Out :=
  s.compareBranch (.bgen m a b nul zero disp) m 5 a b nul zero disp

/-- A branch on a predicate (R130): predicates carry no poison (R145). -/
def State.predBranch (s : State) (i : Instr) (m : Marks) (p : BitVec 3) (want nul : Bool) (disp : BitVec 26) : Out :=
  s.issueS m true (s.jumpTrap i) (fun s =>
    s.branchDone m (s.readP s.focus.bank p.toNat == want) nul (s.here + 8 * disp.signExtend 64))

def execBps (m : Marks) (p : BitVec 3) (nul : Bool) (disp : BitVec 26) (s : State) : Out :=
  s.predBranch (.bps m p nul disp) m p true nul disp
def execBpc (m : Marks) (p : BitVec 3) (nul : Bool) (disp : BitVec 26) (s : State) : Out :=
  s.predBranch (.bpc m p nul disp) m p false nul disp

def execJ (m : Marks) (disp : BitVec 34) (s : State) : Out :=
  s.issueS m true (s.jumpTrap (.j m disp)) (fun s => s.branchDone m true false (s.here + 8 * disp.signExtend 64))

/-- A jump that writes a link, A + 24, unless the link field is 0 (R131). -/
def State.linkDone (s : State) (m : Marks) (link : SReg) (target : W64) : State :=
  if link = 0 then s.branchDone m true false target
  else s.pendS m (.reg link.toNat) (s.here + 24) false 1 (some target)

def execJl (m : Marks) (link : SReg) (disp : BitVec 34) (s : State) : Out :=
  s.issueS m true (s.jumpTrap (.jl m link disp)) (fun s => s.linkDone m link (s.here + 8 * disp.signExtend 64))

/-- The traps of a jump through s[a]: a poisoned target (R145), a target that is not a multiple of 8 (R131). -/
def State.targetTraps (s : State) (i : Instr) (a : SReg) : Option Trap :=
  let k := s.focus.bank
  firstTrap [s.jumpTrap i, s.poisonTrap k [a.toNat], trapIf (fld (s.sVal k a.toNat) 0 3 != 0) 0x04 (s.sVal k a.toNat)]

def execJr (m : Marks) (a : SReg) (s : State) : Out :=
  let target := s.sVal s.focus.bank a.toNat
  s.issueS m true (s.targetTraps (.jr m a) a) (fun s => s.branchDone m true false target)

/-- JLR reads s[a] before it writes d (R131). -/
def execJlr (m : Marks) (d a : SReg) (s : State) : Out :=
  let target := s.sVal s.focus.bank a.toNat
  s.issueS m true (s.targetTraps (.jlr m d a) a) (fun s => s.linkDone m d target)

/-- LOOP (R137, R138): the count comes from LOOPC.ITER when LSTAT.PRE = 1, and the count register is then not read. The
first pass boundary follows at once. -/
def execLoop (m : Marks) (a : SReg) (stages : BitVec 3) (seglen : BitVec 14) (s : State) : Out :=
  let b := s.focus.bank
  let pre := ((s.bank b).cw cwLSTAT).getLsbD 2
  s.issueS m true
    (firstTrap [(if !(s.bank b).targets.isEmpty || (s.bank b).loopAct then some (illegal (.loop m a stages seglen)) else none),
      (if pre then none else s.poisonTrap b [a.toNat])])
    (fun s =>
      let n := if pre then fld ((s.bank b).cw cwLOOPC) 0 32 else fld (s.sVal b a.toNat) 0 32
      let st := stages.toNat + 1
      let l : SLoop := ⟨s.here + 8, st, seglen.toNat, s.here + BitVec.ofNat 64 (8 + 8 * st * seglen.toNat), none, false, s.here⟩
      s.modBank b (fun k =>
        let lstat := BitVec.ofNat 64 (1 + stages.toNat * 8 + seglen.toNat * 2 ^ 14)
        let k := { ((k.setCw cwLSTAT lstat).setCw cwLOOPC (BitVec.ofNat 64 n)) with sloop := some l }
        (k.passBoundary l).signalDone s.cycle .s m.signal))

/-- LBRK (R140): taken when x = y, it stops stage 0 from the next boundary and names the exit target. -/
def execLbrk (m : Marks) (a b : SReg) (zero : Bool) (disp : BitVec 26) (s : State) : Out :=
  let k := s.focus.bank
  let regs := if zero then [a.toNat] else [a.toNat, b.toNat]
  s.issueS m true
    (firstTrap [(if (s.bank k).targets.length = 2 ∨ !(s.bank k).loopAct then some (illegal (.lbrk m a b zero disp)) else none),
      s.poisonTrap k regs])
    (fun s =>
      let y := if zero then 0 else s.sVal k b.toNat
      let target := s.here + 8 * disp.signExtend 64
      let s := if s.sVal k a.toNat == y then s.modBank k (fun x =>
          { (x.putCw cwLSTAT 1 1 1) with sloop := x.sloop.map (fun l => { l with stop := true, target := some target }) }) else s
      s.doneS m)

/-- SETP (R136): conditions 6 and 7 read no register. -/
def execSetp (m : Marks) (p : BitVec 3) (a b : SReg) (cond : BitVec 3) (s : State) : Out :=
  let k := s.focus.bank
  let regs := if cond.toNat < 6 then [a.toNat, b.toNat] else []
  s.issueS m true (s.poisonTrap k regs) (fun s =>
    let v := if cond = 6 then true else if cond = 7 then false else compareS cond.toNat (s.sVal k a.toNat) (s.sVal k b.toNat)
    s.pendS m (.pred p.toNat v) 0 false 1 none)

/-- CHK (R144): a poisoned register traps, and nothing else happens. -/
def execChk (m : Marks) (a : SReg) (s : State) : Out :=
  s.issueS m true (s.poisonTrap s.focus.bank [a.toNat]) (fun s => s.doneS m)

/-- TRAP (R156): its own step of R132 is done, then the request 0x14 is taken at the word that follows. It waits for an access whose page is
missing, which lands first (R147 step 2). -/
def execTrap (m : Marks) (imm : BitVec 28) (s : State) : Out :=
  s.issueS m (!(s.bank s.focus.bank).unperformed) none (fun s =>
    let s := s.doneS m
    s.takeRequest s.focus.bank ⟨0x14, imm.setWidth 64⟩ s.here)

/-- The status fault of TRET: a delay-slot state that no trap saves (R157). -/
def badEstat (e : W64) : Bool :=
  let d := fld e 16 2
  let k := fld e 18 2
  d == 3 || k == 3 || (d == 0 && k != 0) || (decide (0 < d) && k == 0) || (d == 2 && k != 1)

/-- The state TRET restores (R157): view, pending targets, stopped streams, and a word at EPC that skips its WAIT. -/
def Bank.returnTrap (k : Bank) (cyc : Nat) : Bank :=
  let e := k.cw cwESTAT
  let d := fld e 16 2
  let x := fld e 18 2
  let ts : List Target := (if 1 ≤ d then [⟨k.cw cwEPEND0, x⟩] else []) ++ (if d = 2 then [⟨k.cw cwEPEND1, x + 1⟩] else [])
  { (k.setCw cwSTAT (putFld (k.cw cwSTAT) 0 3 (fld e 0 3))) with
    targets := ts, pc := k.cw cwEPC, stopped := false, skipWait := e.getLsbD 20, fetched := [],
    nextIssue := k.nextIssue.set 0 (cyc + 4) }

end Sys2Proof.Machine
end

