-- ==== Sys2Proof/Machine/ScalarMem.lean ====
section
/-! DEFINITION. S memory words: loads, stores, prefetch (R95 to R99, R103), speculative loads (R143), atomics (R104 to
R106), fences, phases and cache maintenance (R107, R108, R33), with page requests (R98) and message windows (R451, R452). -/

namespace Sys2Proof.Machine

/-- The bound of an L code (R74). -/
def latency (l : BitVec 4) : Nat :=
  match l.toNat with
  | 0 => 1 | 1 => 2 | 2 => 3 | 3 => 4 | 4 => 6 | 5 => 8 | 6 => 12 | 7 => 16 | 8 => 24 | 9 => 32 | 10 => 48 | 11 => 64
  | 12 => 96 | 13 => 128 | 14 => 192 | _ => 256

/-- The effective address of an MO-form word (R95). -/
def moAddr (base : W64) (off : BitVec 21) : W64 := base + off.signExtend 64

/-! Message windows (R451, R452). -/

/-- The destination fields of a window address: the key of its open packet. -/
def winKey (die off : Nat) : Nat := die * 2 ^ 10 + off / 2 ^ 11 % 2 ^ 10
/-- Reserved bits [39:21] and [10:7]. -/
def winReserved (off : Nat) : Bool := off / 2 ^ 21 != 0 || off / 2 ^ 7 % 16 != 0

/-- A window store that may not append: a fifth packet, or more than 4,096 bytes (R452). -/
def Bank.winFull (k : Bank) (key n : Nat) : Bool :=
  match k.openPkts.find? (fun p => p.key == key) with
  | some p => decide (4096 < p.data.length + n)
  | none => decide (4 ≤ k.openPkts.length)

/-- The open packet of a key discarded. -/
def Bank.winDrop (k : Bank) (key : Nat) : Bank := { k with openPkts := k.openPkts.filter (fun p => p.key != key) }

/-- The next packet number of a die toward another (R439). -/
def State.takeNum (s : State) (d dst : Nat) : Nat × State :=
  let num := (s.die d).pktNext.get 0 dst
  (num % 4096, s.modDie d (fun x => { x with pktNext := x.pktNext.set dst ((num + 1) % 4096) }))

/-- A packet of `len` bytes of a kind, with an entry request first when it has two or more flits (R440, R448). -/
def Pkt.make (d dst num kind offset aux len bank srcBank seq : Nat) (coll : Option CollMsg) (stage : PktStage) : Pkt :=
  { kind := if kind == 2 || (kind == 8 || kind == 9) && decide (64 < len) then 6 else kind,
    src := d, dst := dst, num := num, offset := offset, aux := aux, len := len, data := [], mask := 0, bank := bank,
    srcBank := srcBank, seq := seq, retryAt := none, granted := false, body := kind, stage := stage, coll := coll, marks := 0 }

/-- A packet of a kind leaves die d, with the poison markers of its words (R439). -/
def State.offer (s : State) (d dst kind offset aux : Nat) (data : List Byte) (bank srcBank seq : Nat) (coll : Option CollMsg) (marks : Nat) :
    State :=
  let (num, s) := s.takeNum d dst
  { s with pkts := s.pkts ++ [{ (Pkt.make d dst num kind offset aux data.length bank srcBank seq coll .source) with data := data, marks := marks }] }

/-- The bank that a message key names (R453). -/
def keyBank (key : Nat) : Nat := bankOf (key / 2 ^ 10) (key / 16 % 64) (key / 8 % 2)

/-- A message packet (kind 8) leaves for its destination bank and port (R453, R454). -/
def State.sendMessage (s : State) (b key : Nat) (data : List Byte) (marks : Nat) : State :=
  s.offer (bankDie b) (key / 2 ^ 10) 8 0 (key % 8) data (keyBank key) b (s.bank b).seq none marks

/-- A message packet whose bytes have still to be read takes its number and its place in the order of its port (R454). -/
def State.formMessage (s : State) (b key len : Nat) : Nat × State :=
  let (num, s) := s.takeNum (bankDie b) (key / 2 ^ 10)
  (num, { s with pkts := s.pkts ++ [Pkt.make (bankDie b) (key / 2 ^ 10) num 8 0 (key % 8) len (keyBank key) b (s.bank b).seq none .forming] })

/-- The packet that a CMSG of a bank is forming. -/
def Pkt.formedBy (p : Pkt) (b dst num : Nat) : Bool := p.stage == .forming && p.srcBank == b && p.dst == dst && p.num == num

/-- The bytes of a window store appended with their markers, and the packet closed and sent when address bit 6 is set (R452). -/
def State.winAppend (s : State) (b die off : Nat) (data : List Byte) (marks : Nat) : State :=
  let key := winKey die off
  let old : OpenPkt := ((s.bank b).openPkts.find? (fun p => p.key == key)).getD ⟨key, [], 0⟩
  let pkt : OpenPkt := ⟨key, old.data ++ data, old.marks ||| (marks <<< (old.data.length / 8))⟩
  let s := s.modBank b (fun k => { (k.winDrop key) with openPkts := (k.winDrop key).openPkts ++ [pkt] })
  if off / 64 % 2 = 1 then (s.modBank b (fun k => k.winDrop key)).sendMessage b key pkt.data pkt.marks else s

/-! Issue-time checks (R98). -/

/-- The traps of a load (wr false) or a store or atomic of n bytes at ea, in the order of R98, and those of the uncached
targets (R423, R451, R458). `plain` is false for atomics. -/
def State.accessTrap (s : State) (i : Instr) (b : Nat) (ea : W64) (n : Nat) (wr plain : Bool) : Option Trap :=
  if 2 ^ 48 ≤ ea.toNat then some ⟨0x05, ea⟩
  else if ea.toNat % n ≠ 0 then some ⟨0x04, ea⟩
  else
    let k := s.bank b
    match (s.resolve b ea.toNat n wr false).2 with
    | .gap => some ⟨0x05, ea⟩
    | .ro => some ⟨0x05, ea⟩
    | .ctl _ off => if k.sv || (if off < 0x8000 then !wr else (ctlFunction off).isNone) then none else some (privilege i)
    | .win die off =>
      if wr && plain && n == 8 && !winReserved off && !k.winFull (winKey die off) 8 then none else some ⟨0x0B, ea⟩
    | .red die _ => if wr || die != bankDie b then some ⟨0x0B, ea⟩ else none
    | _ => none

/-- A window store that would open a fifth packet, or take one beyond 4,096 bytes, discards the open packet of its key (R452). -/
def State.dropOnTrap (s : State) (b : Nat) (ea : W64) (n : Nat) : State :=
  match (s.resolve b ea.toNat n true false).2 with
  | .win die off =>
    if n == 8 && !winReserved off && (s.bank b).winFull (winKey die off) 8 then s.modBank b (fun k => k.winDrop (winKey die off)) else s
  | _ => s

/-! Performing an access. -/

/-- What an access came to: a value and whether it is bad, or a page that is missing. -/
inductive SRes where
  | ok (v : Nat) (bad : Bool)
  | absent (root : Nat) (here : Bool)
  deriving DecidableEq, Repr

def signExtendBytes (n v : Nat) : W64 := BitVec.ofInt 64 (signed (8 * n) v)

/-- The new value of an AMO of n bytes (R104). -/
def amoOp (op n old x : Nat) : Nat :=
  let w := 8 * n
  match op with
  | 0 => (old + x) % 2 ^ w
  | 1 => old &&& x
  | 2 => old ||| x
  | 3 => old ^^^ x
  | 4 => if signed w x < signed w old then x else old
  | 5 => if signed w old < signed w x then x else old
  | 6 => if x < old then x else old
  | 7 => if old < x then x else old
  | 8 => x
  | _ => addF old x

/-- Where an atomic to cached memory is performed (R105). -/
inductive Placement where
  | l1 | home | promoted
  deriving DecidableEq, Repr

def placementOf (pa : Nat) (leaf : W64) (paged : Bool) (override scope : Nat) : Placement :=
  let pl := if override ≠ 0 then override else if paged then fld leaf 4 2 else 2
  if hostBase ≤ pa then .home
  else if pl = 1 then (if scope = 0 then .l1 else .promoted)
  else .home

/-- The issuing core's dirty bytes of a line written back, and the line dropped (R106). The copies of a remote line that the die holds go
too, so that the core's later reads find what the home performs (R343, R356). -/
def State.dropLine (s : State) (b pa : Nat) : State :=
  let c := bankCore b
  let s := match l1Find (s.core c).l1 (pa / 64) with
    | some l => s.notePlain c l
    | none => s
  let s := s.l1CleanWhere c (fun l => l.line == pa / 64)
  let s := s.modCore c (fun x => { x with l1 := x.l1.filter (fun l => l.line != pa / 64) })
  if hostBase ≤ pa || paDie pa == bankDie b then s else s.modDie (bankDie b) (fun d => d.dropCopies (pa / 256))

/-- An atomic of n bytes that has written, recorded against plain stores of other cores to the same bytes in its phase: those that follow,
and those that stand dirty in another L1 (R106). -/
def State.raceAtomic (s : State) (b pa n : Nat) : State :=
  (s.noteRace (bankCore b) (pa / 8) (ones n <<< (pa % 8)) false).spoilLines (bankCore b) (pa / 64) (BitVec.ofNat 64 (ones n <<< (pa % 64))) true

/-- The bytes of an aligned access that other cores wrote by plain stores in the same phase: they stand dirty in their L1s, or have left
them (R106). -/
def State.plainBytes (s : State) (k pa n : Nat) : Nat :=
  let m := ones n <<< (pa % 64)
  let left := s.racedBytes k (pa / 64) m true
  let there := s.cores.foldl (fun (x : Nat) c => if c.1 = k then x else
    match l1Find c.2.l1 (pa / 64) with
    | some l => x ||| (l.dirty &&& l.plain).toNat
    | none => x) 0
  (left ||| (there &&& m)) >>> (pa % 64)

/-- The value an atomic writes, undefined in the bytes that race with plain stores (R9, R106). -/
def State.racedValue (s : State) (k pa n v : Nat) : Nat :=
  let m := s.plainBytes k pa n
  if m = 0 then v else
  (mergeBits (BitVec.ofNat 64 v) (s.freeWord 64 199) (BitVec.ofNat 64 (expand m 8))).toNat

/-- An atomic read and write at the home: the new value is written when the read is good and there is one. -/
def State.homeAtomic (s : State) (pa n : Nat) (f : Nat → Option Nat) : State × Nat × Bool :=
  if hostBase ≤ pa then
    let a := pa - hostBase
    let old := s.hostMem.load a n
    let bad := s.hostMem.marked a n
    match (if bad then none else f old) with
    | some v => ({ s with hostMem := s.hostMem.write a n v false }, old, bad)
    | none => (s, old, bad)
  else
    let (d, old, bad) := (s.die (paDie pa)).aluRead (paOff pa) n
    let d := match (if bad then none else f old) with
      | some v => (d.noteWrite (paOff pa / 256) (ones n <<< (paOff pa % 256))).write (paOff pa) n v false
      | none => d
    (s.setDie (paDie pa) d, old, bad)

/-- PROMO.COUNT and one more, saturating (R126). -/
def Bank.promote (k : Bank) : Bank :=
  k.putCw cwPROMO 0 32 (min 0xFFFFFFFF (fld (k.cw cwPROMO) 0 32 + 1))

/-- An atomic at its target (R105, R106). -/
def State.atomic (s : State) (b : Nat) (t : Tgt) (n place scope : Nat) (f : Nat → Option Nat) : State × Nat × Bool :=
  match t with
  | .mem pa leaf paged =>
    let k := bankCore b
    let g := fun (old : Nat) => (f old).map (s.racedValue k pa n)
    match placementOf pa leaf paged place scope with
    | .l1 =>
      let (s, old, bad) := s.l1Read b pa n 0 false 2
      (match (if bad then none else g old) with
       | some v => ((s.l1Store b pa n v false false 2).raceAtomic b pa n, old, bad)
       | none => (s, old, bad))
    | p =>
      let s := if p = .promoted then (s.dropLine b pa).modBank b Bank.promote else s.dropLine b pa
      let (s, old, bad) := s.homeAtomic pa n g
      (if !bad && (f old).isSome then s.raceAtomic b pa n else s, old, bad)
  | .ctl die off =>
    let old := fld (s.ctlRead die off) (8 * (off % 8)) (8 * n)
    (match f old with
     | some v => (s.ctlStore die off n v, old, false)
     | none => (s, old, false))
  | t =>
    let (s, old, bad) := s.readTgt b t n 0 false
    match (if bad then none else f old) with
    | some v => (s.writeTgt b t n v false, old, bad)
    | none => (s, old, bad)

/-- An S access performed (R99, R103, R106). -/
def State.perform (s : State) (b : Nat) (a : SAccess) : State × SRes :=
  let (s, t) := s.resolve b a.addr.toNat a.bytes a.writes false
  match t with
  | .absent root here => (s, .absent root here)
  | t =>
    match a with
    | .load _ n sx =>
      let (s, v, bad) := match t with
        | .ctl die off =>
          (s.afterCtl (ctlReadEvent die off), fld (s.ctlRead die off) (8 * (off % 8)) (8 * n), false)
        | .red die off => s.reduceRead die (s.bank b).seq off n
        | t => s.readTgt b t n 0 false
      (s, .ok (if sx then (signExtendBytes n v).toNat else v) bad)
    | .store _ n data mark =>
      (match t with
       | .ctl die off => s.ctlStore die off n (data.toNat % 256 ^ n)
       | .win die off => s.winAppend b die off (leBytes 8 data.toNat) (if mark then 1 else 0)
       | t => s.writeTgt b t n (data.toNat % 256 ^ n) mark, .ok 0 false)
    | .amo _ n op x place scope =>
      let (s, old, bad) := s.atomic b t n place scope (fun old => some (amoOp op n old (x.toNat % 256 ^ n)))
      (s, .ok old bad)
    | .cas _ n x y place scope =>
      let (s, old, bad) := s.atomic b t n place scope
        (fun old => if old = x.toNat % 256 ^ n then some (y.toNat % 256 ^ n) else none)
      (s, .ok old bad)

/-- The destination of a result. -/
def destOf (d : Option Nat) : Dest := match d with | some n => .reg n | none => .none

/-- A store or atomic of the bank issued before word id has still to be performed, because its page is missing, and writes bytes that an
access above the local window names: by address, or at home (R356). -/
def State.behindStore (s : State) (b id : Nat) (a : SAccess) : Bool :=
  let lies := fun (x n y m : Nat) => decide (x < y + m) && decide (y < x + n)
  let pa := fun (a : SAccess) => match (s.resolve b a.addr.toNat a.bytes false false).2 with
    | .mem pa _ _ => some pa
    | _ => none
  decide (2 ^ 24 ≤ a.addr.toNat) && (s.bank b).pend.any (fun p => !p.landed && decide (p.id < id) && (match p.page with
    | some x => x.writes && (lies a.addr.toNat a.bytes x.addr.toNat x.bytes ||
        (match pa a, pa x with | some u, some v => lies u a.bytes v x.bytes | _, _ => false))
    | none => false))

/-- An S word whose access has still to be performed: its page is missing, or it stands behind a store that waits for its own (R98). -/
def State.waitAccess (s : State) (m : Marks) (d : Option Nat) (a : SAccess) (lam : Nat) : Nat × State :=
  let (id, s) := s.newId
  (id, s.modBank s.focus.bank (fun k => { (k.advance none) with
    pend := k.pend ++ [⟨id, destOf d, 0, false, s.cycle, s.cycle + lam, m.signal, false, some a, none, true⟩] }))

/-- A memory word after its checks (R98): performed, it lands or completes; on a missing page the bank parks and the word waits, or, for a
page that is not present in the supervisor view, lands poisoned, with a value the manual does not give, and traps with TCAUSE 0x06 at the
next word. -/
def State.memWord (s : State) (m : Marks) (d : Option Nat) (ea : W64) (a : SAccess) (lam : Nat) : State :=
  let b := s.focus.bank
  if s.behindStore b s.nextId a then (s.waitAccess m d a lam).2 else
  let (s, r) := s.perform b a
  match r with
  | .ok v bad =>
    (match d with
     | some n => s.pendMem m n (BitVec.ofNat 64 v) bad lam
     | none => s.doneS m)
  | .absent root here =>
    if (s.bank b).sv && !here then
      (match d with
       | some n => s.pendMem { m with signal := 0 } n (s.freeWord 64 136) true lam
       | none => s.modBank b (fun k => k.advance none)).freezeBy b (some .s) 0x06 ea 0
    else
      let (id, s) := s.waitAccess m d a lam
      s.parkFor b id ea.toNat a.writes root

/-- LD (R103). -/
def execLd (m : Marks) (o : MoOp) (s : State) : Out :=
  let b := s.focus.bank
  let ea := moAddr (s.sVal b o.base.toNat) o.off
  let n := 2 ^ o.size.toNat
  s.issueS m true (firstTrap [s.poisonTrap b [o.base.toNat], s.accessTrap (.ld m o) b ea n false true])
    (fun s => s.memWord m (some o.d.toNat) ea (.load ea n o.sx) (latency o.lat))

/-- The bytes at an address lie in a message window, or in the reduce aperture of another die: R451 and R458 give these TCAUSE 0x0B. -/
def State.noSpeculation (s : State) (b : Nat) (ea : W64) (n : Nat) : Bool :=
  match (s.resolve b ea.toNat n false false).2 with
  | .win .. => true
  | .red die _ => die != bankDie b
  | _ => false

/-- LDS (R143): whatever would trap LD, or make a page request, lands the effective address poisoned; but a message window, for which
R451 names LDS, and another die's reduce aperture, for which R458 gives the cause on S, are TCAUSE 0x0B (DEDUCED, log 79). -/
def execLds (m : Marks) (o : MoOp) (s : State) : Out :=
  let b := s.focus.bank
  let ea := moAddr (s.sVal b o.base.toNat) o.off
  let n := 2 ^ o.size.toNat
  let bad := s.sBad b o.base.toNat
  let trap := s.accessTrap (.lds m o) b ea n false true
  s.issueS m true (if bad || ea.toNat % n != 0 || !s.noSpeculation b ea n then none else trap) (fun s =>
    if bad || trap.isSome then s.pendMem m o.d.toNat ea true (latency o.lat)
    else if s.behindStore b s.nextId (.load ea n o.sx) then (s.waitAccess m (some o.d.toNat) (.load ea n o.sx) (latency o.lat)).2
    else match s.perform b (.load ea n o.sx) with
      | (s, .ok v bad) => s.pendMem m o.d.toNat (BitVec.ofNat 64 v) bad (latency o.lat)
      | (s, .absent ..) => s.pendMem m o.d.toNat ea true (latency o.lat))

/-- ST (R103): a poisoned data register marks the words it touches (R91). -/
def execSt (m : Marks) (d base : SReg) (size : BitVec 2) (off : BitVec 21) (s : State) : Out :=
  let b := s.focus.bank
  let ea := moAddr (s.sVal b base.toNat) off
  let n := 2 ^ size.toNat
  let poison := s.poisonTrap b [base.toNat]
  s.issueTrap m true (firstTrap [poison, s.accessTrap (.st m d base size off) b ea n true true])
    (fun s => if poison.isNone && ea.toNat % n == 0 then s.dropOnTrap b ea n else s)
    (fun s => s.memWord m none ea (.store ea n (s.sVal b d.toNat) (s.sBad b d.toNat)) 0)

/-- PREF (R103): the line of a valid address outside the local window whose page is present; otherwise nothing. -/
def execPref (m : Marks) (hint : BitVec 6) (base : SReg) (off : BitVec 21) (s : State) : Out :=
  s.issueS m true none (fun s =>
    let b := s.focus.bank
    let ea := moAddr (s.sVal b base.toNat) off
    let s := if ea.toNat < 0x1000000 then s else
      match s.resolve b ea.toNat 1 false false with
      | (s', .mem pa _ _) =>
        if hint = 0 then (s'.l1Fill b (pa / 64) (ones 64) 0 false).1
        else if hostBase ≤ pa then s'
        else s'.modDie (paDie pa) (fun d => (d.readLine (paOff pa / 256) 0 false).1)
      | _ => s
    s.doneS m)

/-- AMO (R104 to R106). -/
def execAmo (m : Marks) (d base src : SReg) (lat op : BitVec 4) (scope : BitVec 3) (place size : BitVec 2) (s : State) : Out :=
  let b := s.focus.bank
  let ea := s.sVal b base.toNat
  let n := 2 ^ size.toNat
  s.issueS m true (firstTrap [s.poisonTrap b [base.toNat, src.toNat],
      s.accessTrap (.amo m d base src lat op scope place size) b ea n true false])
    (fun s => s.memWord m (some d.toNat) ea (.amo ea n op.toNat (s.sVal b src.toNat) place.toNat scope.toNat) (latency lat))

/-- CAS (R104 to R106). -/
def execCas (m : Marks) (d base src src2 : SReg) (lat : BitVec 4) (scope : BitVec 3) (place size : BitVec 2) (s : State) : Out :=
  let b := s.focus.bank
  let ea := s.sVal b base.toNat
  let n := 2 ^ size.toNat
  s.issueS m true (firstTrap [s.poisonTrap b [base.toNat, src.toNat, src2.toNat],
      s.accessTrap (.cas m d base src src2 lat scope place size) b ea n true false])
    (fun s => s.memWord m (some d.toNat) ea (.cas ea n (s.sVal b src.toNat) (s.sVal b src2.toNat) place.toNat scope.toNat) (latency lat))

/-! Fences (R108). -/

def State.fenceS (s : State) (m : Marks) (job : Bool) : Out :=
  s.issueS m true none (fun s => (s.blockS m (.fence job s.nextId)).wakeFence s.focus.bank)

def execFence (m : Marks) (s : State) : Out := s.fenceS m false
def execFenceJob (m : Marks) (s : State) : Out := s.fenceS m true

/-! Publish and acquire (R108, R359, R360). -/

/-- The publish step: every dirty byte of the core's L1 is written back and acknowledged; core scope publishes nothing. -/
def State.publish (s : State) (b scope : Nat) : State :=
  if scope = 0 then s else (s.l1CleanWhere (bankCore b) (fun _ => true)).modCore (bankCore b) (fun c => { c with phaseAt := s.cycle })

/-- The acquire step: every clean byte homed outside the core is invalidated, and a scope wider than the die sets the
bank's acquire stamp (R344). -/
def State.acquire (s : State) (b scope : Nat) : State :=
  if scope = 0 then s else
  let s := s.modCore (bankCore b) (fun c =>
    { c.l1Map (fun l => l.dropClean (BitVec.ofNat 64 (ones 64))) with phaseAt := s.cycle })
  if 3 ≤ scope then s.modBank b (fun k => { k with stamp := s.cycle }) else s

/-- PUB (R108): a store or atomic of the bank that waits for its page is performed before it completes (R359). -/
def execPub (m : Marks) (scope : BitVec 3) (s : State) : Out :=
  s.issueS m true none (fun s =>
    if scope ≠ 0 ∧ (s.bank s.focus.bank).writeWaits then s.blockS m (.publishing scope.toNat false)
    else (s.publish s.focus.bank scope.toNat).doneS m)
def execAcq (m : Marks) (scope : BitVec 3) (s : State) : Out :=
  s.issueS m true none (fun s => (s.acquire s.focus.bank scope.toNat).doneS m)

/-! Phases (R33, R363). -/

/-- The launch of a job, at its package (R374). -/
def State.launchOf (s : State) (seq : Nat) : Option Launch :=
  (s.hub (seq / 2 ^ 21)).launches.find? (fun l => l.seq == seq && l.phase != .ended)

/-- The number of PHASEs of a level that member j of a launch has issued; a member that has retired counts as having
issued every later one (R33). -/
def State.phaseReached (s : State) (seq j level n : Nat) : Bool :=
  s.banks.any (fun p => match p.2.job with
    | some job => job.seq == seq && job.jidx == j && decide (n ≤ p.2.phases.get 0 level)
    | none => false) ||
  (match s.launchOf seq with
   | some l => l.jobs.any (fun q => q.jidx == j && (q.phase == .retired || q.phase == .killed ||
       (match q.kept with | some x => decide (n ≤ x.phases.get 0 level) | none => false)))
   | none => false)

/-- The members of bank b's instance at a level have all issued their n-th PHASE (R33). -/
def State.phaseComplete (s : State) (b level : Nat) : Bool :=
  let k := s.bank b
  let n := k.phases.get 0 level
  match k.job with
  | none => true
  | some j =>
    if level = 0 then true
    else if level = 5 then
      (List.range (fld j.launchRec 48 16 + 1)).all (fun x => s.phaseReached j.seq x level n)
    else
      let w := k.cw (cwDOM + level - 1)
      if !w.getLsbD 63 then true
      else (List.range (fld w 20 21)).all (fun x => s.phaseReached j.seq (fld w 41 20 * fld w 20 21 + x) level n)

/-- The end of a PHASE: the acquire step, and PAR toggles at the levels cluster to box (R108). -/
def State.phaseEnd (s : State) (b level : Nat) : State :=
  let s := s.acquire b level
  let s := if 1 ≤ level ∧ level ≤ 4 then
      s.modBank b (fun k => k.setCw (cwDOM + level - 1) (k.cw (cwDOM + level - 1) ^^^ BitVec.ofNat 64 (2 ^ 61))) else s
  s.unblock b none

/-- A PHASE at which a bank waits, evaluated. -/
def State.wakePhase (s : State) (b : Nat) : State :=
  match (s.bank b).blocked with
  | some ⟨.phase level, _, _⟩ => if s.phaseComplete b level then s.phaseEnd b level else s
  | _ => s

/-- The arrival of a bank at a PHASE: its publish step, and one more PHASE of the level (R33, R108). -/
def State.arrive (s : State) (b level : Nat) : State :=
  (s.publish b level).modBank b (fun k => { k with phases := k.phases.set level (k.phases.get 0 level + 1) })

/-- PHASE (R33, R108): a store or atomic of the bank that waits for its page is performed before its publish step (R359). -/
def execPhase (m : Marks) (scope : BitVec 3) (s : State) : Out :=
  s.issueS m true none (fun s =>
    let b := s.focus.bank
    let level := scope.toNat
    if scope ≠ 0 ∧ (s.bank b).writeWaits then s.blockS m (.publishing level true)
    else ((s.arrive b level).blockS m (.phase level)).wakePhase b)

/-- A PUB or PHASE that waits for an access to be performed goes on once there is none left (R359). -/
def State.wakePublish (s : State) (b : Nat) : State :=
  match (s.bank b).blocked with
  | some ⟨.publishing scope phase, sig, t⟩ =>
    if (s.bank b).writeWaits then s
    else if phase then ((s.arrive b scope).modBank b (fun k => { k with blocked := some ⟨.phase scope, sig, t⟩ })).wakePhase b
    else (s.publish b scope).unblock b none
  | _ => s

/-! Cache maintenance (R108). -/

/-- The physical ranges of a paged entry's bytes from lo up to hi, page by page; a page that is not present is skipped. -/
def State.pageRanges (s : State) (b lo hi : Nat) : Nat → State × List (Nat × Nat)
  | 0 => (s, [])
  | fuel + 1 =>
    if hi ≤ lo then (s, []) else
    let next := min hi ((lo / 2 ^ 16 + 1) * 2 ^ 16)
    let (s, r) := match s.resolve b lo 1 false false with
      | (s', .mem pa _ _) => (s', [(pa, next - lo)])
      | _ => (s, [])
    let (s, rest) := State.pageRanges s b next hi fuel
    (s, r ++ rest)

/-- The cached physical ranges of n bytes from domain address a of a direct entry, which may span the offset spaces of several dies (R331):
of each die's space the HBM part, where the die is present. A LOCAL entry names the issuer's own die. -/
def State.directRanges (s : State) (b : Nat) (isLocal : Bool) (a n : Nat) : Nat → List (Nat × Nat)
  | 0 => []
  | fuel + 1 =>
    if n = 0 then [] else
    let k := min n (2 ^ 42 - a % 2 ^ 42)
    let die := if isLocal then bankDie b else paDie a
    (if s.diePresent (bankDie b) die && decide (paOff a < 2 ^ 36) then [(die * 2 ^ 42 + paOff a, min k (2 ^ 36 - paOff a))] else []) ++
      State.directRanges s b isLocal (a + k) (n - k) fuel

/-- The cached physical ranges of [ea, ea + len) under the job's aperture; every other byte is skipped (R108). -/
def State.physRanges (s : State) (b ea len : Nat) : State × List (Nat × Nat) :=
  (s.bank b).apertures.foldl (fun (acc : State × List (Nat × Nat)) e =>
    if !apValid e then acc else
    let lo := max ea (apBase e)
    let hi := min (ea + len) (apBase e + 2 ^ apSize e)
    if hi ≤ lo then acc
    else if apPaged e then
      let (s, r) := acc.1.pageRanges b lo hi ((hi - lo) / 2 ^ 16 + 2)
      (s, acc.2 ++ r)
    else (acc.1, acc.2 ++ acc.1.directRanges b (apLocal e) (apTarget e + (lo - apBase e)) (hi - lo) 40)) (s, [])

/-- The bytes of a line that lie in any of the ranges. -/
def rangesMask (rs : List (Nat × Nat)) (line : Nat) : BitVec 64 :=
  rs.foldl (fun m r => m ||| lineMask line r.1 r.2) 0

/-- The same, in whole aligned words of 8 bytes: a write-back never carries part of a stored word (R353). -/
def wordsMask (rs : List (Nat × Nat)) (line : Nat) : BitVec 64 :=
  BitVec.ofNat 64 (expand (someWords (rangesMask rs line).toNat 8) 8)

/-- Dirty bytes of the ranges written back; the lines stay valid and those bytes become clean. -/
def State.writeBackRanges (s : State) (k : Nat) (rs : List (Nat × Nat)) : State :=
  let ls := (s.core k).l1.map (fun l => { l with dirty := l.dirty &&& wordsMask rs l.line })
  let s := ls.foldl (fun s l => (s.notePlain k l).l1Drain (k / 64) l) s
  s.modCore k (fun c => { c with l1 := c.l1.map (fun l => l.cleaned (l.dirty &&& wordsMask rs l.line)) })

/-- A range word: base must not be poisoned (R90), and nothing else traps. -/
def State.rangeWord (s : State) (m : Marks) (base src : SReg) (f : State → Nat → Nat → State) : Out :=
  let b := s.focus.bank
  s.issueS m true (s.poisonTrap b [base.toNat]) (fun s =>
    let len := (s.sVal b src.toNat).toNat
    (if len = 0 then s else f s (s.sVal b base.toNat).toNat len).doneS m)

def execCwb (m : Marks) (base src : SReg) (s : State) : Out :=
  s.rangeWord m base src (fun s ea len =>
    let b := s.focus.bank
    let (s, rs) := s.physRanges b ea len
    s.writeBackRanges (bankCore b) rs)

/-- CINV and CINV.discard of nonzero length also set the acquire stamp (R108, R344). -/
def State.invalidate (s : State) (ea len : Nat) (discard : Bool) : State :=
  let b := s.focus.bank
  let (s, rs) := s.physRanges b ea len
  let s := s.modCore (bankCore b) (fun c => c.l1Map (fun l =>
    if discard then l.dropAll (rangesMask rs l.line) else l.dropClean (rangesMask rs l.line)))
  s.modBank b (fun k => { k with stamp := s.cycle })

def execCinv (m : Marks) (base src : SReg) (s : State) : Out :=
  s.rangeWord m base src (fun s ea len => s.invalidate ea len false)
def execCinvDiscard (m : Marks) (base src : SReg) (s : State) : Out :=
  s.rangeWord m base src (fun s ea len => s.invalidate ea len true)

/-- IINV (R108): lines of the ranges, and of the job's scratchpad range. -/
def execIinv (m : Marks) (base src : SReg) (s : State) : Out :=
  s.rangeWord m base src (fun s ea len =>
    let b := s.focus.bank
    let k := bankCore b
    let (s, rs) := s.physRanges b ea len
    let sp := match (s.bank b).job with
      | some j =>
        let lo := max ea j.spBase
        let hi := min (ea + len) (j.spBase + j.spSize)
        if lo < hi then [(lo, hi)] else []
      | none => []
    s.modCore k (fun c => { c with ic := c.ic.filter (fun l =>
      !(if 2 ^ 60 ≤ l.line then sp.any (fun r => decide (r.1 / 64 ≤ l.line % 2 ^ 20) && decide (l.line % 2 ^ 20 ≤ (r.2 - 1) / 64))
        else rangesMask rs l.line != 0)) }))

/-- IFENCE (R108): words fetched ahead are discarded; in a delay slot it is illegal (R134). -/
def execIfence (m : Marks) (s : State) : Out :=
  let k := s.bank s.focus.bank
  s.issueS m true (if !k.targets.isEmpty then some (illegal (.ifence m)) else none)
    (fun s => (s.modBank s.focus.bank (fun k => { k with fetched := [] })).doneS m)

end Sys2Proof.Machine
end

