-- ==== Sys2Proof/Machine/ScalarSys.lean ====
section
/-! DEFINITION. Control words (R120 to R127, R150 to R154, R159, R176, R180, R181, R222, R248, R254, R296, R318, R404, R410,
R416, R450, R454) and the four words that reach them: GETC, SETC, SETB, CLRB (R122). -/

namespace Sys2Proof.Machine

/-! What a control word reads as. -/

/-- The core is its cluster's communication master (R124, R314). -/
def State.isMaster (s : State) (b : Nat) : Bool :=
  fld ((s.die (bankDie b)).reg 0x100028) (2 * (coreOnDie b / 4)) 2 == coreOnDie b % 4

/-- COREID (R124). -/
def State.coreId (s : State) (b : Nat) : W64 :=
  BitVec.ofNat 64 (coreOnDie b + b % 2 * 64 + (if s.isMaster b then 128 else 0) + bankDie b * 256)

/-- CAPS (R424). -/
def capsWord : W64 := BitVec.ofNat 64 (0x0801 + Config.capsStep.toNat * 2 ^ 16 + Config.capsHead.toNat * 2 ^ 24)

/-- One queue's group of a QSTAT word (R176). -/
def Queue.stat (q : Queue) : Nat :=
  q.arrived + (q.depth - 1) * 16 +
  (match q.prod with | .none => 0 | .stream => 1 | .peer => 2) * 256 +
  (match q.cons with | .none => 0 | .sink => 1 | .peer => 2 | .m => 3) * 1024 + q.reserved * 4096

def Bank.qstat (k : Bank) (i : Nat) : W64 :=
  BitVec.ofNat 64 (packElems 16 ((List.range 4).map (fun j => (k.queue (4 * i + j)).stat)))

/-- The bank is parked, by PARK or by a page request (R129, R394). -/
def Bank.isParked (k : Bank) : Bool :=
  !k.parked.isEmpty || (match k.blocked with | some ⟨.park _, _, _⟩ => true | _ => false)

/-- A re-shard of the launch is in flight on the die (R404, R414). -/
def Die.reshardOf (d : Die) (seq : Nat) : Option Reshard := d.reshards.find? (fun r => r.seq == seq)
def Die.resharding (d : Die) (seq : Nat) : Bool :=
  match d.reshardOf seq with | some r => r.inflight | none => false

/-- A re-shard of the launch is in flight on some die. -/
def State.reshardLive (s : State) (seq : Nat) : Bool := s.dies.any (fun p => p.2.resharding seq)

/-- LAYST (R404). -/
def State.layst (s : State) (b : Nat) : W64 :=
  let d := s.die (bankDie b)
  let seq := (s.bank b).seq
  let lid := match d.layout seq with | some x => fld x 448 16 + 2 ^ 16 | none => 0
  let lsip := (s.hub (seq / 2 ^ 21)).installs.any (fun i => i.bank == b)
  BitVec.ofNat 64 (lid + (if s.reshardLive seq then 2 ^ 17 else 0) + (if lsip then 2 ^ 18 else 0))

/-- RSSTAT (R416). -/
def State.rsstat (s : State) (b : Nat) : W64 :=
  match (s.die (bankDie b)).reshardOf (s.bank b).seq with
  | none => 0
  | some r => BitVec.ofNat 64 ((if r.done then 1 else 0) + (if r.late then 2 else 0) + (if r.skew then 4 else 0) + r.step % 2 ^ 15 * 8)

/-- Reassembly entries charged to a bank (R450): its read responses, messages and bulk writes. -/
def State.rasmLive (s : State) (b : Nat) : Nat :=
  ((s.die (bankDie b)).rasm.filter (fun e => e.bank == b && (e.kind == 1 || e.kind == 8 || e.kind == 9))).length

/-- Mailbox entries of the bank's launch (R318). -/
def State.mailCount (s : State) (b : Nat) : Nat :=
  ((s.cluster (bankCluster b)).mail.filter (fun e => e.seq == (s.bank b).seq)).length

/-- A control word as GETC reads it. -/
def State.readCw (s : State) (b sel : Nat) : W64 :=
  let k := s.bank b
  let w := k.cw sel
  if sel = cwSTAT then putFld w 4 1 (b % 2)
  else if sel = cwCTXB then putFld (putFld w 0 1 (b % 2)) 2 1 (if (s.bank (partner b)).isParked then 1 else 0)
  else if sel = 0x011 then s.coreId b
  else if sel = 0x012 then capsWord
  else if sel = 0x013 then BitVec.ofNat 64 (s.cycle - (s.die (bankDie b)).born)
  else if 0x050 ≤ sel ∧ sel ≤ 0x057 then k.qstat (sel - 0x050)
  else if sel = cwMSTAT then s.mstat b
  else if sel = cwMBCFG then putFld w 7 4 (s.mailCount b)
  else if sel = 0x062 then s.layst b
  else if sel = 0x063 then s.rsstat b
  else if sel = cwRASTAT then putFld w 1 6 (s.rasmLive b)
  else w

/-! What a write may change. -/

/-- Access in a view: absent, read-only or writable (R121 and the later tables). -/
inductive View where
  | absent | ro | rw
  deriving DecidableEq, Repr

/-- The views of a selector: job first, supervisor second. -/
def cwView (sel : Nat) : View × View :=
  if sel = 0x000 ∨ sel = 0x00A then (.ro, .rw)
  else if sel = 0x006 ∨ sel = 0x007 then (.absent, .ro)
  else if sel ≤ 0x00C then (.absent, .rw)
  else if 0x010 ≤ sel ∧ sel ≤ 0x013 then (.ro, .ro)
  else if sel = 0x014 then (.rw, .rw)
  else if sel = 0x015 then (.absent, .rw)
  else if 0x040 ≤ sel ∧ sel ≤ 0x043 then (.ro, .ro)
  else if 0x050 ≤ sel ∧ sel ≤ 0x057 then (.ro, .ro)
  else if sel = 0x05F ∨ sel = 0x062 ∨ sel = 0x063 then (.ro, .ro)
  else if sel = 0x064 then (.absent, .ro)
  else (.rw, .rw)

def Bank.view (k : Bank) (sel : Nat) : View := if k.sv then (cwView sel).2 else (cwView sel).1

def bitsOf (lo w : Nat) : Nat := ones w <<< lo

/-- The bits of a writable control word that an instruction may change. -/
def cwWritable (sel : Nat) : Nat :=
  match sel with
  | 0x000 => bitsOf 0 3
  | 0x001 => bitsOf 0 5 ||| bitsOf 16 5
  | 0x002 | 0x003 | 0x004 | 0x005 => bitsOf 3 45
  | 0x008 => bitsOf 3 2
  | 0x009 => bitsOf 8 11
  | 0x00B | 0x00C => bitsOf 0 64
  | 0x014 | 0x020 => bitsOf 0 32
  | 0x015 => bitsOf 0 24
  | 0x021 | 0x05B | 0x05E => bitsOf 2 1
  | 0x030 | 0x031 | 0x032 => bitsOf 0 32 ||| bitsOf 48 15
  | 0x058 | 0x05D => bitsOf 0 48
  | 0x059 => bitsOf 2 1 ||| bitsOf 27 6
  | 0x05A => bitsOf 0 24
  | 0x05C => bitsOf 0 1 ||| bitsOf 6 42
  | 0x060 => bitsOf 0 7
  | 0x061 => bitsOf 0 6
  | _ => if 0x068 ≤ sel ∧ sel ≤ 0x06F then bitsOf 0 30 else 0

/-- The bits cleared by writing 1 (R154). -/
def cwW1c (sel : Nat) : Nat := if sel = 0x00A then bitsOf 0 64 else 0

/-- The reserved bits, at which no 1 may be directed (R122). -/
def cwReserved (sel : Nat) : Nat :=
  match sel with
  | 0x000 | 0x008 => bitsOf 5 59
  | 0x001 => bitsOf 5 11 ||| bitsOf 21 43
  | 0x002 | 0x003 | 0x004 | 0x005 => bitsOf 0 3 ||| bitsOf 48 16
  | 0x009 => bitsOf 0 8 ||| bitsOf 19 45
  | 0x014 | 0x020 => bitsOf 32 32
  | 0x015 | 0x05A => bitsOf 24 40
  | 0x021 => bitsOf 28 36
  | 0x058 | 0x05D => bitsOf 48 16
  | 0x059 => bitsOf 33 31
  | 0x05B | 0x05E => bitsOf 27 37
  | 0x05C => bitsOf 1 5 ||| bitsOf 48 16
  | 0x060 => bitsOf 11 53
  | 0x061 => bitsOf 9 55
  | _ => if 0x068 ≤ sel ∧ sel ≤ 0x06F then bitsOf 43 21 else 0

/-- The engine whose ring or loop words a selector is. -/
def cwEngine (sel : Nat) : Option Engine :=
  match sel with
  | 0x030 | 0x058 | 0x059 => some .v
  | 0x031 | 0x05A | 0x05B | 0x061 => some .c
  | 0x032 | 0x05D | 0x05E => some .m
  | _ => none

/-- A ring word with RP and WP reduced and HP at the new RP (R180, R181). -/
def ringNormal (w : W64) : W64 :=
  let n2 := 2 * ringN w
  putFld (putFld (putFld w 0 16 (ringRP w % n2)) 16 16 (ringWP w % n2)) 32 16 (ringRP w % n2)

/-- The conditions of R181 on a ring word, for a job's range. -/
def Bank.ringOk (k : Bank) (w : W64) : Bool :=
  let size := fld w 48 4
  decide (size ≤ 8) && fld w 52 11 % 2 ^ size == 0 && k.inRange (ringBase w) (8 * ringN w) &&
  decide (ringAhead w (ringRP w) ≤ ringN w)

/-- The ring of a receive port (R454): its bytes, and the conditions of a write. -/
def portBytes (w : W64) : Nat := 4096 * 2 ^ fld w 7 3
def portBase (w : W64) : Nat := fld w 10 7 * 4096
def Bank.portOk (k : Bank) (w : W64) : Bool :=
  decide (fld w 7 3 < 7) && portBase w % portBytes w == 0 && k.inRange (portBase w) (portBytes w)

/-- The three ways to write a control word. -/
inductive CwOp where
  | set | orBits | clear
  deriving DecidableEq, Repr

/-- The word after a write of x, field by field (R122). -/
def cwNew (op : CwOp) (sel : Nat) (old x : W64) : W64 :=
  let want := match op with | .set => x | .orBits => old ||| x | .clear => old &&& ~~~x
  let w := BitVec.ofNat 64 (cwWritable sel)
  let c := BitVec.ofNat 64 (cwW1c sel)
  let v := (old &&& ~~~w) ||| (want &&& w)
  match op with
  | .clear => v
  | _ => v &&& ~~~(x &&& c)

/-- A write is refused with TCAUSE 0x0B (R122, R139, R181, R254, R392, R410, R454). -/
def State.cwRefused (s : State) (b : Nat) (op : CwOp) (sel : Nat) (x : W64) : Bool :=
  let k := s.bank b
  let v := cwNew op sel (k.cw sel) x
  x.toNat &&& cwReserved sel != 0 ||
  (match cwEngine sel with | some e => !k.idleE e | none => false) ||
  ((sel == 0x020 || sel == 0x021) && k.loopAct) ||
  ((sel == 0x030 || sel == 0x031 || sel == 0x032) && !k.ringOk (ringNormal v)) ||
  (sel == 0x009 && !k.inRange (fld v 8 11 * 256) 256) ||
  (decide (0x068 ≤ sel) && decide (sel ≤ 0x06F) && !k.portOk v)

/-- The write done. A ring word moves its engine's issue points to the new RP. -/
def Bank.writeCw (k : Bank) (op : CwOp) (sel : Nat) (x : W64) : Bank :=
  let v := cwNew op sel (k.cw sel) x
  if sel = 0x030 ∨ sel = 0x031 ∨ sel = 0x032 then
    let v := ringNormal v
    let k := { (k.setCw sel v) with ringBuf := [] }
    if sel = 0x030 then { k with vaPos := ringRP v, vaDyn := k.veDyn } else k
  else k.setCw sel v

/-- MBCFG is the master core's alone (R318). -/
def State.cwForbidden (s : State) (b sel : Nat) (write : Bool) : Bool :=
  (match (s.bank b).view sel with | .absent => true | .ro => write | .rw => false) || (sel == cwMBCFG && !s.isMaster b)

/-- GETC (R122): the word as it stands at issue. -/
def execGetc (m : Marks) (d : SReg) (cw : BitVec 12) (s : State) : Out :=
  let b := s.focus.bank
  s.issueS m true (if s.cwForbidden b cw.toNat false then some (privilege (.getc m d cw)) else none)
    (fun s => s.resultS m d (s.readCw s.focus.bank cw.toNat) false 2)

/-- A control-word write (R122): the view, the poison of its source (R90), and the refusals, in this order (DESIGN CHOICE, log 72). -/
def State.writeWord (s : State) (i : Instr) (m : Marks) (op : CwOp) (a : SReg) (cw : BitVec 12) : Out :=
  let b := s.focus.bank
  let sel := cw.toNat
  let x := s.sVal b a.toNat
  s.issueS m true
    (firstTrap [(if s.cwForbidden b sel true then some (privilege i) else none), s.poisonTrap b [a.toNat],
      trapIf (s.cwRefused b op sel x) 0x0B (BitVec.ofNat 64 sel)])
    (fun s => (s.modBank b (fun k => k.writeCw op sel x)).doneS m)

def execSetc (m : Marks) (a : SReg) (cw : BitVec 12) (s : State) : Out := s.writeWord (.setc m a cw) m .set a cw
def execSetb (m : Marks) (a : SReg) (cw : BitVec 12) (s : State) : Out := s.writeWord (.setb m a cw) m .orBits a cw
def execClrb (m : Marks) (a : SReg) (cw : BitVec 12) (s : State) : Out := s.writeWord (.clrb m a cw) m .clear a cw

end Sys2Proof.Machine
end

