-- ==== Sys2Proof/Machine/Launch.lean ====
section
/-! DEFINITION. Launches before they issue: the launch record (R375), acceptance (R374), the checks of the job records, ring
images, aperture tables and layouts (R332, R376 to R379, R401), and placement (R382 to R385). -/

namespace Sys2Proof.Machine

/-! Fields of the launch record (R375). -/

def lrPrio (r : Rec) : Nat := fld r 0 3
def lrDet (r : Rec) : Bool := r.getLsbD 3
def lrGang (r : Rec) : Bool := r.getLsbD 4
def lrLayb (r : Rec) : Bool := r.getLsbD 5
def lrColl (r : Rec) : Bool := r.getLsbD 7
def lrClj (r : Rec) : Nat := fld r 8 4
def lrCld (r : Rec) : Nat := fld r 12 5
def lrDpk (r : Rec) : Nat := fld r 17 4
def lrMscb (r : Rec) : Nat := fld r 24 8
def lrShm (r : Rec) : Nat × Nat := (fld r 32 6, fld r 32 6 + fld r 38 6 + 1)
def lrShmv (r : Rec) : Bool := r.getLsbD 44
def lrJobs (r : Rec) : Nat := fld r 48 16 + 1
def lrJtab (r : Rec) : Nat := fld r 64 48
def lrLayout (r : Rec) : Nat := fld r 128 48
def lrStaddr (r : Rec) : Nat := fld r 192 48

/-- The instance sizes a, b and c of R376, an unused level counting as 1. -/
def lrA (r : Rec) : Nat := max 1 (lrClj r)
def lrB (r : Rec) : Nat := lrA r * max 1 (lrCld r)
def lrC (r : Rec) : Nat := lrB r * max 1 (lrDpk r)

/-- Reserved fields and values of the launch record, which acceptance refuses with code 0x02 (R374, R379). DEDUCED (log 21):
a field value outside the range its row states counts as reserved. -/
def launchReserved (r : Rec) : Bool :=
  fld r 21 3 != 0 || fld r 45 3 != 0 || fld r 112 16 != 0 || fld r 176 16 != 0 || fld r 240 16 != 0 || fld r 354 2 != 0 ||
  fld r 448 64 != 0 || decide (16 < lrCld r) || decide (8 < lrDpk r) || decide (192 < lrMscb r) ||
  (!lrLayb r && lrLayout r != 0) || lrJtab r % 64 != 0 || lrStaddr r % 64 != 0

/-! Acceptance (R374). -/

/-- A SEQ that has been assigned (R375, R379). -/
def State.assigned (s : State) (seq : Nat) : Bool :=
  decide (1 ≤ seq % 2 ^ 21) && decide (seq % 2 ^ 21 ≤ (s.hub (seq / 2 ^ 21)).accepts)

/-- The next acceptance count: numbers whose launch has not ended are skipped. -/
def Hub.nextCount (h : Hub) (n : Nat) : Nat → Nat
  | 0 => n
  | fuel + 1 => if h.launches.any (fun l => l.seq % 2 ^ 21 == n % 0x1FFFFF + 1) then h.nextCount (n + 1) fuel else n

/-- Zenith accepts a record, with a free queue entry at hand: the state and the SEQ, or code 0x02. -/
def State.accept (s : State) (pkg : Nat) (r : Rec) (submitter : Option Nat) : State × Option Nat :=
  if launchReserved r then (s, none) else
  let h := s.hub pkg
  let n := h.nextCount h.accepts (h.launches.length + 1)
  let seq := pkg * 2 ^ 21 + (n % 0x1FFFFF + 1)
  let dep := fun (i : Nat) => r.getLsbD (352 + i) && !s.assigned (fld r (288 + 32 * i) 32)
  let l : Launch := {
    seq := seq, record := r, submitter := submitter,
    apt := (match submitter with | some b => (s.bank b).apertures | none => []),
    accepted := s.cycle, since := s.cycle, level := lrPrio r, phase := .queued, jobs := [],
    code := if dep 0 || dep 1 then 0x0B else 0, nd := false, retired := 0, exit := 0, ejidx := 0, issuedAt := 0 }
  (s.modHub pkg (fun h => { h with accepts := n + 1, launches := h.launches ++ [l] }), some seq)

/-! Reads and writes by Zenith: host-physical addresses for a host's launch, and the submitting job's aperture for a
job's (R375), at home. -/

/-- The memory address Zenith reaches, if any. No page request is made (R378). -/
def State.zenithPa (s : State) (l : Launch) (a : Nat) (wr : Bool) : State × Option Nat :=
  match l.submitter with
  | none => (s, some (s.hostPa a))
  | some b =>
    if a < 0x1000000 ∨ 2 ^ 48 ≤ a then (s, none) else
    match s.translate l.apt b a wr with
    | (s, .pa pa leaf paged) => (match s.target b pa leaf paged with
      | .mem pa _ _ => (s, some pa)
      | _ => (s, none))
    | (s, _) => (s, none)

/-- n bytes read for a launch, or none where they cannot be read (R378). -/
def State.zenithRead (s : State) (l : Launch) (a n : Nat) : Nat → State × Option Nat
  | 0 => (s, some 0)
  | fuel + 1 =>
    if n = 0 then (s, some 0) else
    let k := min n (64 - a % 64)
    match s.zenithPa l a false with
    | (s, none) => (s, none)
    | (s, some pa) =>
      match s.homeLoad pa k with
      | (s, _, true) => (s, none)
      | (s, v, false) =>
        match State.zenithRead s l (a + k) (n - k) fuel with
        | (s, none) => (s, none)
        | (s, some w) => (s, some (v + 256 ^ k * w))

/-- 64 bytes written at home for a launch; an address that cannot be written takes nothing (DEDUCED, log 21). -/
def State.zenithWrite (s : State) (l : Launch) (a data : Nat) : State :=
  match s.zenithPa l a true with
  | (s, some pa) => s.physWrite (paDie pa) pa 64 data false 3
  | (s, none) => s

/-! Job records (R377, R378). -/

def jrEntry (r : Rec) : Nat := fld r 0 48
def jrPlen (r : Rec) : Nat := fld r 48 5
def jrPair (r : Rec) : Bool := r.getLsbD 54
def jrPinv (r : Rec) : Bool := r.getLsbD 55
def jrParam (r : Rec) : Nat := fld r 64 48
def jrTvec (r : Rec) : Nat := fld r 128 48
def jrRimg (r : Rec) : Nat := fld r 192 48
def jrApt (r : Rec) : Nat := fld r 256 48
def jrFarea (r : Rec) : Nat := fld r 320 11 * 256
def jrSpLo (r : Rec) : Nat := fld r 331 7 * 4096
def jrSpHi (r : Rec) : Nat := jrSpLo r + (fld r 338 7 + 1) * 4096
/-- The pinned bank's key. -/
def jrPin (r : Rec) : Nat := bankOf (fld r 370 14) (fld r 384 6) (fld r 390 1)

/-- Code 0x02 of a job record: reserved bits, and a parameter length above 16. -/
def jobReserved (r : Rec) : Bool :=
  fld r 56 8 != 0 || fld r 112 16 != 0 || fld r 176 16 != 0 || fld r 240 16 != 0 || fld r 304 16 != 0 || fld r 369 1 != 0 ||
  fld r 391 121 != 0 || decide (16 < jrPlen r)

/-- Code 0x08 of a job record: alignment (R377), the scratchpad range (R165), and the initial FAREA (R392). -/
def jobBroken (r : Rec) : Bool :=
  jrEntry r % 8 != 0 || jrParam r % 8 != 0 || jrRimg r % 64 != 0 || jrApt r % 64 != 0 || decide (524288 < jrSpHi r) ||
  decide (jrFarea r < jrSpLo r) || decide (jrSpHi r < jrFarea r + 256)

/-- A ring word of an image breaks R181 for the job's range. -/
def ringBroken (r : Rec) (w : W64) : Bool :=
  let v := ringNormal w
  let k := fld w 48 4
  decide (8 < k) || fld w 52 11 % 2 ^ k != 0 || decide (ringBase w < jrSpLo r) || decide (jrSpHi r < ringBase w + 8 * ringN w) ||
  decide (ringN w < ringAhead v (ringRP v))

/-- Words that a ring image holds for a ring. -/
def ringPreloaded (w : W64) : Nat := let v := ringNormal w; ringAhead v (ringRP v)

/-- An entry of an aperture table that breaks R332 by itself. -/
def apBroken (e : BitVec 128) : Bool :=
  let n := apSize e
  fld e 11 10 != 0 || fld e 48 16 != 0 || decide (1 < fld e 1 2) || decide (n < 21) || decide (47 < n) ||
  apBase e % 2 ^ n != 0 || decide (apBase e < 0x1000000) || decide (2 ^ 48 < apBase e + 2 ^ n) ||
  (if apPaged e then apRO e || apLocal e || fld e 109 19 != 0
   else fld e 99 29 != 0 || apTarget e % 2 ^ n != 0 || (apLocal e && fld e 85 14 != 0))

/-- Two ranges that overlap. -/
def apOverlap (e f : BitVec 128) : Bool :=
  decide (apBase e < apBase f + 2 ^ apSize f) && decide (apBase f < apBase e + 2 ^ apSize e)

/-- Some two entries of a list overlap. -/
def apClash : List (BitVec 128) → Bool
  | [] => false
  | e :: t => t.any (apOverlap e) || apClash t

/-- The 256 entries of an aperture table. -/
def apTable (v : Nat) : List (BitVec 128) := (unpackElems 128 256 v).map (fun x => BitVec.ofNat 128 x)

def apTableBroken (es : List (BitVec 128)) : Bool :=
  let v := es.filter apValid
  v.any apBroken || apClash v

/-- The codes of a job record by itself (R377, R379). -/
def jobCodes (r : Rec) : List Nat := (if jobReserved r then [0x02] else []) ++ (if jobBroken r then [0x08] else [])

/-- The checks of one job's images: its codes (R378, R379). -/
def State.checkJob (s : State) (l : Launch) (r : Rec) : State × List Nat :=
  let (s, apt) := s.zenithRead l (jrApt r) 4096 65
  let codes := (match apt with | some v => if apTableBroken (apTable v) then [0x05] else [] | none => [0x05])
  let (s, par) := s.zenithRead l (jrParam r) (8 * min 16 (jrPlen r)) 4
  let codes := codes ++ (match par with | some _ => [] | none => [0x08])
  match s.zenithRead l (jrRimg r) 64 2 with
  | (s, none) => (s, codes ++ [0x08])
  | (s, some v) =>
    let ws := (unpackElems 64 3 v).map (fun x => BitVec.ofNat 64 x)
    if v / 2 ^ 192 != 0 || ws.any (ringBroken r) then (s, codes ++ [0x08]) else
    let n := 8 * (ws.foldl (fun n w => n + ringPreloaded w) 0)
    let (s, img) := s.zenithRead l (jrRimg r + 64) n (n / 64 + 2)
    (s, codes ++ (match img with | some _ => [] | none => [0x08]))

/-! Layout descriptors (R400 to R402). -/

abbrev Desc := BitVec 1024

def ldExt (x : Desc) (i : Nat) : Nat := fld x (32 * i) 32
def ldBlk (x : Desc) (i : Nat) : Nat := fld x (128 + 32 * i) 32
def ldOrg (x : Desc) : Nat → Nat | 0 => fld x 224 4 | 1 => fld x 228 5 | _ => fld x 233 5
def ldN (x : Desc) : Nat → Nat | 0 => fld x 238 4 + 1 | 1 => fld x 242 5 + 1 | _ => fld x 247 5 + 1
def ldType (x : Desc) : Option EType := EType.fromNat (fld x 252 4)
/-- The torus axis of width, height or time. -/
def ldAx (x : Desc) (i : Nat) : Nat := fld x (256 + 2 * i) 2
def ldHal (x : Desc) (i : Nat) : Nat := fld x (264 + 8 * i) 8
def ldWrap (x : Desc) (i : Nat) : Bool := x.getLsbD (288 + i)
def ldHeads (x : Desc) : Nat := fld x 296 16
def ldHpd (x : Desc) : Nat := fld x 312 16
def ldSplit (x : Desc) : Nat := fld x 328 16
def ldSbase (x : Desc) : Nat := fld x 352 48
def ldDbase (x : Desc) : Nat := fld x 400 48
def ldDies (x : Desc) : Nat := ldN x 0 * ldN x 1 * ldN x 2
def ldEsize (x : Desc) : Nat := match ldType x with | some t => t.esize | none => 1
def ldTok (x : Desc) : Nat := ldExt x 3 * ldExt x 2 * ldExt x 1
def ldTpart (x : Desc) : Nat := ldTok x / ldSplit x
def ldRow (x : Desc) : Nat := ldExt x 0 / ldHeads x * ldEsize x

/-- Validity (R401), with the domain's extents. -/
def Desc.valid (x : Desc) (dims : Nat × Nat × Nat) : Bool :=
  let block := ldBlk x 2 * ldBlk x 1 * ldBlk x 0 * ldExt x 0 * ldEsize x
  let head := ldHpd x * ldTpart x * ldRow x
  fld x 262 2 == 0 && fld x 291 5 == 0 && fld x 344 8 == 0 && fld x 464 560 == 0 &&
  (decide (fld x 252 4 ≤ 4) || (decide (6 ≤ fld x 252 4) && decide (fld x 252 4 ≤ 10))) &&
  [0, 1, 2, 3].all (fun i => ldExt x i != 0) && [0, 1, 2].all (fun i => ldBlk x i != 0) &&
  [0, 1, 2].all (fun a => [0, 1, 2].any (fun i => ldAx x i == a)) &&
  [0, 1, 2].all (fun i => ldExt x (i + 1) == ldBlk x i * ldN x (ldAx x i)) &&
  decide (ldOrg x 0 + ldN x 0 ≤ dims.1) && decide (ldOrg x 1 + ldN x 1 ≤ dims.2.1) && decide (ldOrg x 2 + ldN x 2 ≤ dims.2.2) &&
  [0, 1, 2].all (fun i => decide (ldHal x i ≤ ldBlk x i)) &&
  ldHeads x != 0 && ldHpd x != 0 && ldSplit x != 0 && ldExt x 0 % ldHeads x == 0 && ldRow x % 32 == 0 && ldHeads x % ldHpd x == 0 &&
  ldHeads x / ldHpd x * ldSplit x == ldDies x && ldTok x % ldSplit x == 0 &&
  ldSbase x % 256 == 0 && ldDbase x % 256 == 0 && decide (ldSbase x + block ≤ 2 ^ 36) && decide (ldDbase x + head ≤ 2 ^ 36) &&
  (decide (ldSbase x + block ≤ ldDbase x) || decide (ldDbase x + head ≤ ldSbase x))

/-- The dies of a layout's range, in position order. -/
def Desc.dies (x : Desc) : List Nat :=
  (List.range (ldDies x)).map (fun i =>
    dieAt (ldOrg x 0 + i % ldN x 0) (ldOrg x 1 + i / ldN x 0 % ldN x 1) (ldOrg x 2 + i / (ldN x 0 * ldN x 1)))

/-! Placement (R382 to R385). -/

/-- Insertion by a key. -/
def insertBy (key : Nat → Nat) (x : Nat) : List Nat → List Nat
  | [] => [x]
  | y :: t => if key x ≤ key y then x :: y :: t else y :: insertBy key x t
def sortBy (key : Nat → Nat) : List Nat → List Nat
  | [] => []
  | x :: t => insertBy key x (sortBy key t)

/-- The dies of a launch's box that are present, in ascending index. -/
def State.boxDies (s : State) (d0 : Nat) (r : Rec) : List Nat :=
  let (ox, oy, oz) := (fld r 356 4, fld r 360 5, fld r 365 5)
  let (nx, ny, nz) := (fld r 370 4 + 1, fld r 374 5 + 1, fld r 379 5 + 1)
  ((List.range (nx * ny * nz)).map (fun i => (ox + i % nx, oy + i / nx % ny, oz + i / (nx * ny)))).filterMap (fun p =>
    if p.1 < 16 ∧ p.2.1 < 32 ∧ p.2.2 < 32 ∧ s.diePresent d0 (dieAt p.1 p.2.1 p.2.2) then some (dieAt p.1 p.2.1 p.2.2) else none)

/-- What placement sees: the launch's record, its jobs' records, each bank's paired job or none, each cluster's and die's
room, the candidate dies of each die instance, and the packages that have stopped. -/
structure PlaceEnv where
  lrec : Rec
  jobs : List Rec
  occupied : SMap Bool
  shmTaken : List (Nat × Nat × Nat)
  mscFree : SMap Nat
  levels : SMap Nat
  masters : SMap W64
  box : List Nat
  layout : List Nat
  stopped : List Nat
  deriving Repr

/-- A placement so far: banks given to jobs, and the dies used. -/
structure Plan where
  spots : List (Nat × Nat)
  taken : SMap Bool
  dies : List Nat
  deriving Repr

def PlaceEnv.job (v : PlaceEnv) (j : Nat) : Rec := (v.jobs[j]?).getD 0

/-- The pinned jobs of the launch, with their banks (R383). -/
def PlaceEnv.pins (v : PlaceEnv) : List (Nat × Nat) :=
  (v.jobs.zipIdx).filterMap (fun p => if jrPinv p.1 then some (p.2, jrPin p.1) else none)

/-- A bank kept for a pinned job of the launch other than job j, as paired or not (log 67). -/
def PlaceEnv.pinned (v : PlaceEnv) (j b : Nat) : Option Bool :=
  (v.pins.find? (fun p => p.2 == b && p.1 != j)).map (fun p => jrPair (v.job p.1))

/-- The job on a bank, as paired or not. -/
def PlaceEnv.occ (v : PlaceEnv) (p : Plan) (b : Nat) : Option Bool := (p.taken.find? b).or (v.occupied.find? b)

/-- Job j fits on a bank: it is empty, and its partner is empty or paired like it (R385), and no other job of the launch is pinned where
it would be in the way (R383). A stopped package takes none (R428). -/
def PlaceEnv.fits (v : PlaceEnv) (p : Plan) (b j : Nat) : Bool :=
  let other := fun (b : Nat) => (v.occ p b).or (v.pinned j b)
  !v.stopped.contains (pkgOf (bankDie b)) && (other b).isNone && (match other (partner b) with | none => true | some q => q && jrPair (v.job j))

/-- The banks a job may take in a cluster, in order (R382 to R384, R314). -/
def PlaceEnv.banks (v : PlaceEnv) (p : Plan) (cl j : Nat) : List Nat :=
  let r := v.job j
  let pair := jrPair r
  let master := 4 * cl + fld (v.masters.get 0 (cl / 16)) (2 * (cl % 16)) 2
  let cores := ((List.range 4).map (fun i => 4 * cl + i)).filter (fun c => !(lrColl v.lrec && c == master))
  if jrPinv r then (if bankCluster (jrPin r) = cl then [jrPin r] else [])
  else if lrColl v.lrec && j % lrA v.lrec == 0 then
    if pair then [2 * master, 2 * master + 1] else [2 * master]
  else if !pair then cores.map (fun c => 2 * c)
  else if lrDet v.lrec then cores.map (fun c => 2 * c) ++ cores.map (fun c => 2 * c + 1)
  else
    let mates := (cores.flatMap (fun c => [2 * c, 2 * c + 1])).filter (fun b => (v.occ p (partner b)).isSome)
    mates ++ cores.map (fun c => 2 * c)

def PlaceEnv.placeJob (v : PlaceEnv) (p : Plan) (cl j : Nat) : Option Plan :=
  match (v.banks p cl j).find? (fun b => v.fits p b j) with
  | some b => some { p with spots := p.spots ++ [(j, b)], taken := p.taken.set b (jrPair (v.job j)) }
  | none => none

def foldOpt {α β : Type} (f : β → α → Option β) : β → List α → Option β
  | b, [] => some b
  | b, a :: t => match f b a with
    | some b' => foldOpt f b' t
    | none => none

/-- The shared-memory range of the launch is free in a cluster (R382). -/
def PlaceEnv.shmFree (v : PlaceEnv) (cl : Nat) : Bool :=
  !lrShmv v.lrec || !v.shmTaken.any (fun t => t.1 == cl && decide ((lrShm v.lrec).1 < t.2.2) && decide (t.2.1 < (lrShm v.lrec).2))

/-- The jobs of a cluster instance. -/
def PlaceEnv.members (v : PlaceEnv) (ci : Nat) : List Nat := (List.range (lrA v.lrec)).map (fun i => ci * lrA v.lrec + i)

/-- The cluster instances still to be placed that a pin ties to a cluster (R383). -/
def PlaceEnv.owed (v : PlaceEnv) (p : Plan) (cl : Nat) : List Nat :=
  ((v.pins.filter (fun x => bankCluster x.2 == cl && !p.spots.any (fun y => y.1 == x.1))).map (fun x => x.1 / lrA v.lrec)).foldl insertNat []

/-- A cluster instance in the lowest-numbered cluster of a die with room for it, and for the instances that pins tie to that cluster. -/
def PlaceEnv.placeCluster (v : PlaceEnv) (die : Nat) (p : Plan) (ci : Nat) : Option Plan :=
  (List.range 16).findSome? (fun c =>
    let cl := die * 16 + c
    let put := fun (p : Plan) (js : List Nat) => foldOpt (fun p j => v.placeJob p cl j) p js
    if !v.shmFree cl then none else
    match put p (v.members ci) with
    | none => none
    | some q => if (put q ((v.owed q cl).flatMap v.members)).isSome then some q else none)

/-- Whole cores that are free on a die. -/
def PlaceEnv.wholeCores (v : PlaceEnv) (p : Plan) (die : Nat) : Nat :=
  ((List.range 64).filter (fun c => (v.occ p (bankOf die c 0)).isNone && (v.occ p (bankOf die c 1)).isNone)).length

/-- The order of preference among dies (R382, R384). -/
def PlaceEnv.prefer (v : PlaceEnv) (p : Plan) (ds : List Nat) : List Nat :=
  if lrDet v.lrec then sortBy (fun d => d) ds
  else sortBy (fun d => v.levels.get 0 d * 2 ^ 24 + (64 - v.wholeCores p d) * 2 ^ 16 + d) ds

/-- A die instance: its cluster instances on one die, or, with no die level, one cluster instance (R382). -/
def PlaceEnv.placeDie (v : PlaceEnv) (ds : List Nat) (p : Plan) (di : Nat) : Option Plan :=
  let n := max 1 (lrCld v.lrec)
  let js := (List.range (lrB v.lrec)).map (fun i => di * lrB v.lrec + i)
  let ds := match js.find? (fun j => jrPinv (v.job j)) with
    | some j => ds.filter (fun d => d == bankDie (jrPin (v.job j)))
    | none => ds
  let ds := match v.layout with
    | [] => ds
    | l => ds.filter (fun d => l[di]? == some d)
  let kept := fun (d : Nat) => v.pins.any (fun x => x.1 / lrB v.lrec != di && bankDie x.2 == d)
  (v.prefer p ds).findSome? (fun d =>
    if (lrCld v.lrec != 0 && (p.dies.contains d || kept d)) || decide (v.mscFree.get 192 d < lrMscb v.lrec) then none
    else match foldOpt (v.placeCluster d) p ((List.range n).map (fun i => di * n + i)) with
      | some p' => some { p' with dies := p'.dies ++ [d] }
      | none => none)

/-- A package instance: its die instances on one package that the launch does not use. -/
def PlaceEnv.placePackage (v : PlaceEnv) (p : Plan) (pi : Nat) : Option Plan :=
  let n := max 1 (lrDpk v.lrec)
  let dis := (List.range n).map (fun i => pi * n + i)
  if lrDpk v.lrec = 0 then foldOpt (v.placeDie v.box) p dis else
  let pkgs := (v.box.map pkgOf).foldl insertNat []
  pkgs.findSome? (fun k =>
    if p.dies.any (fun d => pkgOf d == k) || v.pins.any (fun x => x.1 / lrC v.lrec != pi && pkgOf (bankDie x.2) == k) then none
    else foldOpt (v.placeDie (v.box.filter (fun d => pkgOf d == k))) p dis)

/-- The whole placement: every job has a bank, or there is none. -/
def PlaceEnv.place (v : PlaceEnv) : Option (List (Nat × Nat)) :=
  match foldOpt v.placePackage ⟨[], [], []⟩ (List.range (lrJobs v.lrec / lrC v.lrec)) with
  | some p => some p.spots
  | none => none

/-- Launches that hold room on the device: live, being pre-empted, or pre-empted. -/
def Launch.holds (l : Launch) : Bool := l.phase == .live || l.phase == .preempting || l.phase == .preempted

/-- A job that still has its bank, or, pre-empted, its shared-memory range. -/
def Place.holds (p : Place) : Bool := p.phase == .placed || p.phase == .running || p.phase == .saved

/-- Every launch of the domain that holds room. -/
def State.holders (s : State) : List Launch := s.hubs.flatMap (fun h => h.2.launches.filter Launch.holds)

/-- The budget a launch holds on each die it uses, and its ranges in each cluster. -/
def Launch.diesUsed (l : Launch) : List Nat := ((l.jobs.filter Place.holds).map (fun p => bankDie p.bank)).foldl insertNat []
/-- The dies whose MSC budget a launch holds: a pre-empted launch keeps its shared-memory ranges alone (R388; DEDUCED, log 21). -/
def Launch.diesHeld (l : Launch) : List Nat :=
  ((l.jobs.filter (fun p => p.phase == .placed || p.phase == .running)).map (fun p => bankDie p.bank)).foldl insertNat []
def Launch.clustersUsed (l : Launch) : List Nat := ((l.jobs.filter Place.holds).map (fun p => bankCluster p.bank)).foldl insertNat []

/-- The surroundings of a placement: as they stand less the banks of some launches, or an empty box (R379, R386). -/
def State.placeEnv (s : State) (l : Launch) (jobs : List Rec) (layout : List Nat) (empty : Bool) (less : List Nat) : PlaceEnv :=
  let hs := if empty then [] else s.holders
  let box := s.boxDies (pkgDie (l.seq / 2 ^ 21) 0) l.record
  { lrec := l.record, jobs := jobs,
    occupied := if empty then [] else s.banks.filterMap (fun p => match p.2.job with
      | some j => if less.contains j.seq then none else some (p.1, j.paired)
      | none => none),
    shmTaken := hs.flatMap (fun h => if lrShmv h.record then
      h.clustersUsed.map (fun c => (c, (lrShm h.record).1, (lrShm h.record).2)) else []),
    mscFree := hs.foldl (fun m h => if less.contains h.seq then m else
      h.diesHeld.foldl (fun m d => m.set d (m.get 192 d - lrMscb h.record)) m) [],
    levels := s.dies.map (fun p => (p.1, p.2.level)),
    masters := s.dies.map (fun p => (p.1, p.2.reg 0x100028)),
    box := box, layout := layout,
    stopped := if empty then [] else (s.hubs.filter (fun (h : Nat × Hub) => h.2.stopped)).map (fun (h : Nat × Hub) => h.1) }

/-- The placement of a launch now. In determinism mode it is the one an empty box gives, once all of it is free (R384). -/
def State.planNow (s : State) (l : Launch) (jobs : List Rec) (layout : List Nat) (less : List Nat) : Option (List (Nat × Nat)) :=
  let now := s.placeEnv l jobs layout false less
  if lrDet l.record then
    match (s.placeEnv l jobs layout true []).place with
    | none => none
    | some sp =>
      let free := sp.all (fun x => now.fits ⟨[], [], []⟩ x.2 x.1 && now.shmFree (bankCluster x.2) &&
        decide (lrMscb l.record ≤ now.mscFree.get 192 (bankDie x.2)))
      if free then some sp else none
  else now.place

/-! The checks of a launch (R376, R378, R379, R383). -/

/-- Each instance of n jobs has its pins in one unit. -/
def pinsSplit (n : Nat) (key : Nat → Nat) (pins : List (Nat × Nat)) : Bool :=
  pins.any (fun p => pins.any (fun q => p.1 / n == q.1 / n && key p.2 != key q.2))

def hasRepeat : List Nat → Bool
  | [] => false
  | x :: t => t.contains x || hasRepeat t

/-- The pins of a launch break R383 or R314. -/
def State.pinsBad (s : State) (l : Launch) (jobs : List Rec) (layout : List Nat) : Bool :=
  let r := l.record
  let pins := (jobs.zipIdx).filterMap (fun p => if jrPinv p.1 then some (p.2, jrPin p.1) else none)
  let box := s.boxDies (pkgDie (l.seq / 2 ^ 21) 0) r
  pins.any (fun p => !box.contains (bankDie p.2)) || hasRepeat (pins.map (fun p => p.2)) ||
  pinsSplit (lrA r) bankCluster pins || pinsSplit (lrB r) bankDie pins || pinsSplit (lrC r) (fun b => pkgOf (bankDie b)) pins ||
  (lrColl r && pins.any (fun p => p.1 % lrA r == 0 &&
    coreOnDie p.2 % 4 != fld ((s.die (bankDie p.2)).reg 0x100028) (2 * (coreOnDie p.2 / 4)) 2)) ||
  (!layout.isEmpty && pins.any (fun p => layout[p.1 / lrB r]? != some (bankDie p.2)))

/-- The job records of a launch, in order; one that cannot be read is none. -/
def State.jobRecords (s : State) (l : Launch) : Nat → State × List (Option Rec)
  | 0 => (s, [])
  | n + 1 =>
    let (s, rs) := s.jobRecords l n
    match s.zenithRead l (lrJtab l.record + 64 * n) 64 2 with
    | (s, some v) => (s, rs ++ [some (BitVec.ofNat 512 v)])
    | (s, none) => (s, rs ++ [none])

/-- What the checks found: the job records, the layout, and the codes. -/
structure Checked where
  jobs : List Rec
  desc : Option Desc
  codes : List Nat
  deriving Repr

/-- The checks of a launch that its placement needs; no image of its jobs is read (R380). A launch whose shape or pins are wrong has no
place to look for; a job whose record cannot be read counts as paired, which fits where any job does (DESIGN CHOICE, log 67). -/
def State.checkLaunch (s : State) (l : Launch) : State × Checked :=
  let r := l.record
  let n := lrJobs r
  let shape := n % lrC r != 0 || decide (8 < lrA r) || decide (128 < lrB r)
  let codes := (if l.code ≠ 0 then [l.code] else []) ++ (if shape then [0x04] else []) ++
    (if lrShmv r && decide (64 < (lrShm r).2) then [0x08] else [])
  let (s, recs) := s.jobRecords l n
  let codes := codes ++ recs.flatMap (fun r => match r with | some j => jobCodes j | none => [0x08])
  let jobs : List Rec := recs.map (fun r => r.getD (BitVec.ofNat 512 (2 ^ 54)))
  let (s, desc, codes) := if !lrLayb r then (s, none, codes) else
    match s.zenithRead l (lrLayout r) 128 3 with
    | (s, none) => (s, none, codes ++ [0x06])
    | (s, some v) =>
      let x : Desc := BitVec.ofNat 1024 v
      let ok := lrLayout r % 128 == 0 && x.valid ((s.die (pkgDie (l.seq / 2 ^ 21) 0)).dims) && ldDies x == n / lrB r &&
        x.dies.all (fun d => (s.boxDies (pkgDie (l.seq / 2 ^ 21) 0) r).contains d)
      (s, some x, if ok then codes else codes ++ [0x06])
  let layout := match desc with | some x => if codes.contains 0x06 then [] else Desc.dies x | none => []
  let codes := codes ++ (if s.pinsBad l jobs layout then [0x07] else [])
  let fits := codes.contains 0x04 || codes.contains 0x07 || (s.placeEnv l jobs layout true []).place.isSome
  let codes := if fits then codes else codes ++ [0x03]
  (s, ⟨jobs, desc, codes⟩)

/-- The images of a launch's jobs, read as it issues (R380): the codes. -/
def State.checkImages (s : State) (l : Launch) (jobs : List Rec) : State × List Nat :=
  jobs.foldl (fun (a : State × List Nat) j => let (s, c) := a.1.checkJob l j; (s, a.2 ++ c)) (s, [])

end Sys2Proof.Machine
end

