-- ==== Sys2Proof/Machine/Box.lean ====
section
/-! DEFINITION. Accesses of the engines: what one block reaches (R96, R165, R209, R232), tensor maps (R224 to R227), layout
coordinates (R228, R402), zero-compressed regions (R229), and the box of a map as a stream of bytes (R226). -/

namespace Sys2Proof.Machine

/-! Tensor maps (R224). -/

def mapBase (r : Rec) : Nat := fld r 0 48
def mapType (r : Rec) : EType := (EType.fromNat (fld r 48 4)).getD .fp32
def mapRank (r : Rec) : Nat := fld r 52 2 + 1
def mapZf (r : Rec) : Bool := r.getLsbD 54
def mapLayc (r : Rec) : Bool := r.getLsbD 55
def mapUse (r : Rec) : Nat := fld r 56 4
def mapDead (r : Rec) : Bool := r.getLsbD 60
def mapZc (r : Rec) : Bool := r.getLsbD 61
def mapPgm (r : Rec) : Bool := r.getLsbD 62
/-- Extent, box size and cursor of dimension d; above the rank they are 1, 1 and 0 (R225). -/
def mapExt (r : Rec) (d : Nat) : Nat := if d < mapRank r then fld r (64 + 32 * d) 32 else 1
def mapStride (r : Rec) (d : Nat) : Int := if d = 0 then 0 else signed 40 (fld r (152 + 40 * d) 40)
def mapBox (r : Rec) (d : Nat) : Nat := fld r (312 + 12 * d) 12 + 1
def mapPos (r : Rec) (d : Nat) : Int := signed 32 (fld r (360 + 32 * d) 32)
def mapZbm (r : Rec) : Nat := fld r 488 24
def setPos (r : Rec) (d : Nat) (v : Int) : Rec := putFld r (360 + 32 * d) 32 (wrap 32 v)

/-- Elements that travel together: the pair of a byte for the 4-bit types, the group of .i3 (R39, R225). -/
def atomOf : EType → Nat
  | .e2m1 | .i4 => 2
  | .i3 => 32
  | _ => 1

/-- The rules of R225 for one dimension. -/
def mapDimOk (r : Rec) (d : Nat) : Bool :=
  let es := (mapType r).esize
  if d < mapRank r then d == 0 || mapStride r d % (es : Int) == 0
  else fld r (64 + 32 * d) 32 == 0 && (d == 0 || fld r (152 + 40 * d) 40 == 0) && fld r (312 + 12 * d) 12 == 0 &&
    fld r (360 + 32 * d) 32 == 0

/-- A valid map (R225). -/
def mapValid (r : Rec) : Bool :=
  let t := mapType r
  !r.getLsbD 63 && decide (fld r 48 4 < 13) && (List.range 4).all (mapDimOk r) && mapBase r % t.esize == 0 &&
  mapExt r 0 % atomOf t == 0 && mapPos r 0 % (atomOf t : Int) == 0 && mapBox r 0 % atomOf t == 0 &&
  (if mapZc r then mapBase r % 64 == 0 else mapZbm r == 0) && (!mapLayc r || (mapRank r == 4 && decide (mapBase r < 2 ^ 42))) &&
  (!mapPgm r || decide (2 ≤ mapRank r))

/-- Elements and bytes of the box (R226). -/
def boxCount (r : Rec) : Nat := mapBox r 0 * mapBox r 1 * mapBox r 2 * mapBox r 3
def boxBytes (r : Rec) : Nat := boxCount r / atomOf (mapType r) * (mapType r).esize

/-- Some element of the box is out of bounds. -/
def boxOut (r : Rec) : Bool :=
  (List.range 4).any (fun d => decide (mapPos r d < 0) || decide ((mapExt r d : Int) < mapPos r d + (mapBox r d : Int)))

/-- The whole box is checked first: an element out of bounds faults when ZF is clear (R226). -/
def boxFaults (r : Rec) : Bool := !mapZf r && boxOut r

/-- Advance (R227): dimension d and those above it. -/
def advanceFrom (r : Rec) (d : Nat) : Nat → Rec
  | 0 => r
  | fuel + 1 =>
    let p := signed 32 (wrap 32 (mapPos r d + (mapBox r d : Int)))
    let r' := setPos r d p
    if p < (mapExt r d : Int) ∨ d + 1 = mapRank r then r' else advanceFrom (setPos r d 0) (d + 1) fuel

def advanceMap (r : Rec) : Rec := advanceFrom r 0 4

/-! Places (R226, R228). -/

/-- Where a run of bytes lies: at a virtual address, or at an offset on a die (layout coordinates). -/
inductive Loc where
  | ea (a : Nat)
  | die (d off : Nat)
  deriving DecidableEq, Repr

def Loc.plus : Loc → Nat → Loc
  | .ea a, n => .ea ((a + n) % 2 ^ 64)
  | .die d o, n => .die d (o + n)

/-- The address a fault reports. -/
def Loc.value : Loc → W64
  | .ea a => BitVec.ofNat 64 a
  | .die d o => BitVec.ofNat 64 (d * 2 ^ 42 + o)

def Loc.low : Loc → Nat
  | .ea a => a
  | .die _ o => o

/-- The die on which global coordinates w, h, t lie (R402). -/
def ldOwner (x : Desc) (w h t : Nat) : Nat :=
  let c := fun a => ldOrg x a +
    (if ldAx x 0 = a then w / ldBlk x 0 else if ldAx x 1 = a then h / ldBlk x 1 else t / ldBlk x 2)
  dieAt (c 0) (c 1) (c 2)

/-- Bytes of one row of the box, along dimension 0. -/
def rowBytes (r : Rec) : Nat := mapBox r 0 / atomOf (mapType r) * (mapType r).esize

/-- A row of the box's elements at coordinates g1, g2 and g3, as row number `row` of a stream: its place in the stream, where
it lies and its length, when some of it is in bounds. -/
def rowAt (r : Rec) (lay : Option Desc) (row : Nat) (g1 g2 g3 : Int) : Option (Nat × Loc × Nat) :=
  let t := mapType r
  let b0 := mapBox r 0 / atomOf t
  let p0 := mapPos r 0 / (atomOf t : Int)
  let lo := max 0 p0
  let hi := min ((mapExt r 0 / atomOf t : Nat) : Int) (p0 + (b0 : Int))
  let inside := fun (g : Int) d => decide (0 ≤ g) && decide (g < (mapExt r d : Int))
  if lo < hi && inside g1 1 && inside g2 2 && inside g3 3 then
    let so := (row * b0 + (lo - p0).toNat) * t.esize
    let len := (hi - lo).toNat * t.esize
    let at_ := fun (g1 g2 g3 : Int) =>
      wrap 64 ((mapBase r : Int) + lo * (t.esize : Int) + g1 * mapStride r 1 + g2 * mapStride r 2 + g3 * mapStride r 3)
    match lay with
    | some x =>
      if mapLayc r then
        let l := fun (g : Int) a => g % (ldBlk x a : Int)
        some (so, .die (ldOwner x g1.toNat g2.toNat g3.toNat) (at_ (l g1 0) (l g2 1) (l g3 2)), len)
      else some (so, .ea (at_ g1 g2 g3), len)
    | none => some (so, .ea (at_ g1 g2 g3), len)
  else none

/-- Row `row` of the box. -/
def boxRow (r : Rec) (lay : Option Desc) (row : Nat) : Option (Nat × Loc × Nat) :=
  rowAt r lay row (mapPos r 1 + ((row % mapBox r 1 : Nat) : Int)) (mapPos r 2 + ((row / mapBox r 1 % mapBox r 2 : Nat) : Int))
    (mapPos r 3 + ((row / (mapBox r 1 * mapBox r 2) : Nat) : Int))

/-- The in-bounds runs of the box, in box order. -/
def boxRuns (r : Rec) (lay : Option Desc) : List (Nat × Loc × Nat) :=
  (List.range (mapBox r 1 * mapBox r 2 * mapBox r 3)).filterMap (boxRow r lay)

/-- The part of a run that lies in [lo, hi) of the stream, from lo. -/
def runPart (lo hi : Nat) (x : Nat × Loc × Nat) : Option (Nat × Loc × Nat) :=
  let a := max lo x.1
  let e := min hi (x.1 + x.2.2)
  if a < e then some (a - lo, x.2.1.plus (a - x.1), e - a) else none

/-- A run cut at the 64-byte boundaries of its addresses. -/
def cut64 (so : Nat) (l : Loc) (n : Nat) : Nat → List (Nat × Loc × Nat)
  | 0 => []
  | fuel + 1 =>
    if n = 0 then [] else
    let k := min n (64 - l.low % 64)
    (so, l, k) :: cut64 (so + k) (l.plus k) (n - k) fuel

def pieces (runs : List (Nat × Loc × Nat)) : List (Nat × Loc × Nat) :=
  runs.flatMap (fun x => cut64 x.1 x.2.1 x.2.2 (x.2.2 / 64 + 2))

/-- The first byte of n at a that lies outside cluster shared memory. -/
def outShared (a n : Nat) : Option Nat :=
  if n = 0 then none
  else if a < 0x400000 then some a
  else if 0x800000 < a + n then some (max a 0x800000)
  else none

/-! One access (R209, R232). -/

/-- Why an access stops: a page that is not present (R98), or a fault with its cause and address. -/
inductive Stop where
  | page (va : Nat) (wr : Bool) (root : Nat)
  | fault (cause : Nat) (v : W64)
  deriving DecidableEq, Repr

/-- What performing an operation's accesses comes to: it completes with what it writes, writes and then faults with no
increment (R250), stops, stops with only a part left to do again, or has more to do from a cycle on. -/
inductive Done where
  | ok (effs : List Eff)
  | fail (effs : List Eff) (cause : Nat) (v : W64)
  | stop (x : Stop)
  | held (todo : Work) (x : Stop)
  | more (todo : Work) (ready : Nat)
  deriving DecidableEq, Repr

/-- An operation of which nothing is left but the outcome of its last access. -/
def doneOr (x : Option Stop) : Done := match x with | some y => .stop y | none => .ok []

/-- What n bytes that do not leave a 64-byte block reach. A layout-coordinate access is not looked up (R228). -/
def State.locTgt (s : State) (b : Nat) (l : Loc) (n : Nat) (wr copy : Bool) : State × Tgt :=
  match l with
  | .ea a => s.resolve b a n wr copy
  | .die d off =>
    (s, if off + n ≤ 2 ^ 36 && s.diePresent (bankDie b) d then .mem (d * 2 ^ 42 + off) 0 false else .gap)

/-- What keeps an engine's access from a target (R209, R423, R451, R458). -/
def State.tgtStop (s : State) (b : Nat) (l : Loc) (wr : Bool) (t : Tgt) : Option Stop :=
  match t with
  | .absent root _ => some (.page l.low wr root)
  | .gap | .ro => some (.fault 0x05 l.value)
  | .ctl _ off => if (s.bank b).sv || (if off < 0x8000 then !wr else (ctlFunction off).isNone) then none else some (.fault 0x02 l.value)
  | .win .. => some (.fault 0x0B l.value)
  | .red die _ => if wr || die != bankDie b then some (.fault 0x0B l.value) else none
  | _ => none

/-- The first marked or uncorrectable 8-byte word of a block, as its address (R167). -/
def badWord (s : State) (b : Nat) (l : Loc) (n : Nat) (t : Tgt) : W64 :=
  let one := fun i => match t with
    | .sp k off => (s.readTgt b (.sp k (off + i)) 1 0 false).2.2
    | .shm c off => (s.readTgt b (.shm c (off + i)) 1 0 false).2.2
    | .mem pa leaf pg => (s.readTgt b (.mem (pa + i) leaf pg) 1 0 false).2.2
    | _ => true
  match (List.range n).find? one with
  | some i => BitVec.ofNat 64 ((l.plus i).value.toNat / 8 * 8)
  | none => l.value

/-- Control-space bytes, word by word. -/
def State.ctlBytes (s : State) (die off n : Nat) : Nat :=
  leNat ((List.range n).map (fun i => BitVec.ofNat 8 ((s.ctlRead die (off + i)).toNat >>> (8 * ((off + i) % 8)))))

/-- What the reads of the registers of n bytes bring about, in order. -/
def ctlReadEvents (die off n : Nat) : List Turn :=
  (List.range ((off % 8 + n + 7) / 8)).flatMap (fun i => ctlReadEvent die (off + 8 * i))

/-- A read of n bytes that do not leave a 64-byte block. -/
def State.readAt (s : State) (b : Nat) (l : Loc) (n use : Nat) (dead copy : Bool) : State × Nat × Option Stop :=
  let (s, t) := s.locTgt b l n false copy
  match s.tgtStop b l false t with
  | some x => (s, 0, some x)
  | none =>
    match t with
    | .ctl die off => (s.afterCtl (ctlReadEvents die off n), s.ctlBytes die off n, none)
    | .red die off =>
      let (s, v, bad) := s.reduceRead die (s.bank b).seq off n
      (s, v, if bad then some (.fault 0x16 l.value) else none)
    | t =>
      let (s, v, bad) := s.readTgt b t n use dead
      (s, v, if bad then some (.fault 0x16 (badWord s b l n t)) else none)

/-- Control-space words written, at most 8 bytes to a register (log 20), the first one first. -/
def State.ctlPut (s : State) (die off n data : Nat) : Nat → State
  | 0 => s
  | fuel + 1 =>
    if n = 0 then s else
    let k := min n (8 - off % 8)
    State.ctlPut (s.ctlStore die off k (data % 256 ^ k)) die (off + k) (n - k) (data / 256 ^ k) fuel

/-- A write performed at home, past the L1; the core's own copies of those bytes are updated and left clean (R308). -/
def State.homeWrite (s : State) (b pa n data : Nat) : State :=
  let s := s.physWrite (bankDie b) pa n data false 2
  s.modCore (bankCore b) (fun c => { c with l1 := c.l1.map (fun l =>
    if l.line = pa / 64 then
      let m := BitVec.ofNat 64 (ones n <<< (pa % 64))
      { l with data := mergeBits l.data (BitVec.ofNat 512 ((data % 256 ^ n) <<< (8 * (pa % 64)))) (BitVec.ofNat 512 (expand m.toNat 64)),
               dirty := l.dirty &&& ~~~m, marks := BitVec.ofNat 8 (mergeMarks l.marks.toNat m.toNat 0 8) }
    else l) })

/-- A write of n bytes that do not leave a 64-byte block, into the L1, or at the home. -/
def State.writeAt (s : State) (b : Nat) (l : Loc) (n data : Nat) (copy home : Bool) : State × Option Stop :=
  let (s, t) := s.locTgt b l n true copy
  match s.tgtStop b l true t with
  | some x => (s, some x)
  | none =>
    match t with
    | .ctl die off => (s.ctlPut die off n data 10, none)
    | .mem pa _ _ =>
      if home then (s.homeWrite b pa n data, none)
      else (s.l1Write b pa n data false 2, none)
    | t => (s.writeTgt b t n data false, none)

/-- Reads of pieces in order; the bytes stand at their place in the stream. -/
def State.readPieces (s : State) (b use : Nat) (dead copy : Bool) (acc : Nat) : List (Nat × Loc × Nat) → State × Nat × Option Stop
  | [] => (s, acc, none)
  | (so, l, n) :: t =>
    match s.readAt b l n use dead copy with
    | (s, v, none) => State.readPieces s b use dead copy (acc + v * 256 ^ so) t
    | (s, _, some x) => (s, 0, some x)

/-- Writes of pieces in order, from the bytes of the stream. -/
def State.writePieces (s : State) (b data : Nat) (copy home : Bool) : List (Nat × Loc × Nat) → State × Option Stop
  | [] => (s, none)
  | (so, l, n) :: t =>
    match s.writeAt b l n (data / 256 ^ so % 256 ^ n) copy home with
    | (s, none) => State.writePieces s b data copy home t
    | (s, some x) => (s, some x)

/-- n bytes read at a virtual address, block by block. -/
def State.engRead (s : State) (b ea n : Nat) (copy : Bool) : State × Nat × Option Stop :=
  s.readPieces b 0 false copy 0 (cut64 0 (.ea ea) n (n / 64 + 2))

/-- n bytes written at a virtual address, block by block. -/
def State.engWrite (s : State) (b ea n data : Nat) (copy home : Bool) : State × Option Stop :=
  s.writePieces b data copy home (cut64 0 (.ea ea) n (n / 64 + 2))

/-! Zero-compressed regions (R229). -/

/-- The granule of an address, and the place of its bitmap byte. -/
def zcGranule (r : Rec) (l : Loc) : Nat :=
  match l with
  | .ea a => (a + 2 ^ 64 - mapBase r) % 2 ^ 64 / 64
  | .die _ o => (o + 2 ^ 64 - mapBase r) % 2 ^ 64 / 64

def zcByte (r : Rec) (l : Loc) : Loc :=
  let o := (mapBase r + 4096 * mapZbm r + zcGranule r l / 8) % 2 ^ 64
  match l with
  | .ea _ => .ea o
  | .die d _ => .die d o

/-- The bit of a granule, read through the L1. DESIGN CHOICE (log 84): its lines take no use count, whatever the map's. -/
def State.zcBit (s : State) (b : Nat) (r : Rec) (l : Loc) : State × Bool × Option Stop :=
  match s.readAt b (zcByte r l) 1 0 false true with
  | (s, v, x) => (s, v.testBit (zcGranule r l % 8), x)

/-- The bit of a granule set or cleared by an atomic at the bitmap's home. -/
def State.zcSet (s : State) (b : Nat) (r : Rec) (l : Loc) (v : Bool) : State × Option Stop :=
  let bl := zcByte r l
  let (s, t) := s.locTgt b bl 1 true true
  match s.tgtStop b bl true t with
  | some x => (s, some x)
  | none =>
    let bit := 2 ^ (zcGranule r l % 8)
    let f := fun old => some (if v then old ||| bit else old &&& (255 ^^^ bit))
    let (s, _, bad) := s.atomic b t 1 2 0 f
    (s, if bad then some (.fault 0x16 bl.value) else none)

/-- Reads of a zero-compressed region: a granule whose bit is 0 is not accessed and reads as zero. -/
def State.zcRead (s : State) (b : Nat) (r : Rec) (acc : Nat) : List (Nat × Loc × Nat) → State × Nat × Option Stop
  | [] => (s, acc, none)
  | (so, l, n) :: t =>
    match s.zcBit b r l with
    | (s, _, some x) => (s, 0, some x)
    | (s, false, none) => State.zcRead s b r acc t
    | (s, true, none) =>
      match s.readAt b l n (mapUse r) (mapDead r) true with
      | (s, v, none) => State.zcRead s b r (acc + v * 256 ^ so) t
      | (s, _, some x) => (s, 0, some x)

/-- Writes of a zero-compressed region: zero bytes for a granule whose bit is 0 are skipped; any other write is performed
and then the bit is set, whatever it read as: another agent may have cleared it. -/
def State.zcWrite (s : State) (b : Nat) (r : Rec) (data : Nat) : List (Nat × Loc × Nat) → State × Option Stop
  | [] => (s, none)
  | (so, l, n) :: t =>
    let v := data / 256 ^ so % 256 ^ n
    match s.zcBit b r l with
    | (s, _, some x) => (s, some x)
    | (s, bit, none) =>
      if !bit && v == 0 then State.zcWrite s b r data t else
      match s.writeAt b l n v true false with
      | (s, some x) => (s, some x)
      | (s, none) =>
        match s.zcSet b r l true with
        | (s, some x) => (s, some x)
        | (s, none) => State.zcWrite s b r data t

/-! The box as a stream of bytes (R226). -/

/-- The first byte of a command that lies in the cluster scratchpads and in no live range of its launch: it is found before the command
performs any access (R165). -/
def State.cspStop (s : State) (b : Nat) (runs : List (Nat × Loc × Nat)) : Option Stop :=
  (pieces runs).findSome? (fun x => match x.2.1 with
    | .ea a =>
      if 0x800000 ≤ a ∧ a < 0xA00000 then
        ((List.range x.2.2).find? (fun i => !s.cspAllowed b (bankCluster b * 4 + (a + i - 0x800000) / 0x80000) ((a + i) % 0x80000) 1)).map
          (fun i => .fault 0x05 (BitVec.ofNat 64 (a + i)))
      else none
    | .die .. => none)

/-- The runs of a map with the bytes of its zero bitmap that they call for. -/
def withBitmap (r : Rec) (runs : List (Nat × Loc × Nat)) : List (Nat × Loc × Nat) :=
  if mapZc r then runs ++ (pieces runs).map (fun x => (0, zcByte r x.2.1, 1)) else runs

/-- Runs of a map read into the bytes of a stream. -/
def State.runsRead (s : State) (b : Nat) (r : Rec) (runs : List (Nat × Loc × Nat)) : State × Nat × Option Stop :=
  match s.cspStop b (withBitmap r runs) with
  | some x => (s, 0, some x)
  | none => if mapZc r then s.zcRead b r 0 (pieces runs) else s.readPieces b (mapUse r) (mapDead r) true 0 (pieces runs)

/-- Runs of a map written from the bytes of a stream. -/
def State.runsWrite (s : State) (b : Nat) (r : Rec) (runs : List (Nat × Loc × Nat)) (data : Nat) : State × Option Stop :=
  match s.cspStop b (withBitmap r runs) with
  | some x => (s, some x)
  | none => if mapZc r then s.zcWrite b r data (pieces runs) else s.writePieces b data true false (pieces runs)

/-- Bytes of a box that one element of a queue holds: .i3 fills 21 groups of a register (R39, R226). -/
def elemBytes (r : Rec) : Nat := if mapType r = .i3 then 252 else 256

/-- The runs of bytes [lo, hi) of the box's stream. -/
def boxPart (r : Rec) (lay : Option Desc) (lo hi : Nat) : List (Nat × Loc × Nat) := (boxRuns r lay).filterMap (runPart lo hi)

/-- The box read; elements out of bounds read as zero. -/
def State.boxRead (s : State) (b : Nat) (r : Rec) (lay : Option Desc) : State × Nat × Option Stop := s.runsRead b r (boxRuns r lay)

/-- The box written; elements out of bounds are discarded. -/
def State.boxWrite (s : State) (b : Nat) (r : Rec) (lay : Option Desc) (data : Nat) : State × Option Stop :=
  s.runsWrite b r (boxRuns r lay) data

/-- A layout-coordinate map agrees with the active layout (R228); the value is the reason of R406. -/
def layoutFault (r : Rec) (lay : Option Desc) : Option (Nat × W64) :=
  if !mapLayc r then none else
  match lay with
  | none => some (0x12, 1)
  | some x =>
    if mapExt r 0 = ldExt x 0 ∧ mapExt r 1 = ldExt x 1 ∧ mapExt r 2 = ldExt x 2 ∧ mapExt r 3 = ldExt x 3 then none
    else some (0x12, 2)

end Sys2Proof.Machine
end

