-- ==== Sys2Proof/Machine/Real.lean ====
section
/-! DEFINITION. The transcendental functions (R60 to R68). Results of 16 bits or fewer are the exact mathematical value
rounded once: the value is computed to 1,000 binary places (log 14). FP32 results follow the recipes. -/

namespace Sys2Proof.Machine

/-- Binary places of the fixed-point numbers of this file. -/
def places : Nat := 1000
def fixOne : Nat := 2 ^ places

/-- sum over k of t / (2k + 1), t divided by q at each step: the series of atan and atanh of 1/n. -/
def oddSeries (alt : Bool) (q : Nat) : Nat → Nat → Nat → Int → Int
  | 0, _, _, acc => acc
  | fuel + 1, k, t, acc =>
    let x : Int := ((t / (2 * k + 1) : Nat) : Int)
    oddSeries alt q fuel (k + 1) (t / q) (if alt && k % 2 == 1 then acc - x else acc + x)

/-- ln 2 = 2 atanh(1/3). -/
def ln2Fix : Nat := (2 * oddSeries false 9 340 0 (fixOne / 3) 0).toNat
/-- pi = 16 atan(1/5) - 4 atan(1/239). -/
def piFix : Nat := (16 * oddSeries true 25 230 0 (fixOne / 5) 0 - 4 * oddSeries true 57121 80 0 (fixOne / 239) 0).toNat

/-- sum over k of y^k / k! for a fixed-point y. -/
def expSeries (y : Nat) : Nat → Nat → Nat → Nat → Nat
  | 0, _, _, acc => acc
  | fuel + 1, k, t, acc => expSeries y fuel (k + 1) (t * y / fixOne / (k + 1)) (acc + t)

def expFix (y : Nat) : Nat := expSeries y 220 0 fixOne 0

/-- The alternating series of sine (first term y, step 2k(2k+1)) and cosine (first term 1, step (2k-1)2k). -/
def trigSeries (y2 : Nat) : Nat → Nat → Nat → Bool → Int → Int
  | 0, _, _, _, acc => acc
  | fuel + 1, d, t, minus, acc =>
    let x : Int := (t : Int)
    trigSeries y2 fuel (d + 2) (t * y2 / fixOne / (d * (d + 1))) (!minus) (if minus then acc - x else acc + x)

def sinFix (y : Nat) : Nat := (trigSeries (y * y / fixOne) 130 2 y false 0).toNat
def cosFix (y : Nat) : Nat := (trigSeries (y * y / fixOne) 130 1 fixOne false 0).toNat

/-- sum over k of z^(2k+1) / (2k+1). -/
def atanhSeries (z2 : Nat) : Nat → Nat → Nat → Nat → Nat
  | 0, _, _, acc => acc
  | fuel + 1, k, t, acc => atanhSeries z2 fuel (k + 1) (t * z2 / fixOne) (acc + t / (2 * k + 1))

/-- ln f of a fixed-point f in [1, 2]. -/
def lnFix (f : Nat) : Nat :=
  let z := (f - fixOne) * fixOne / (f + fixOne)
  2 * atanhSeries (z * z / fixOne) 340 0 z 0

/-- A fixed-point number that stands for an inexact value just at or above it. -/
def ofFix (neg : Bool) (m : Nat) : Val := .fin neg m (-(places : Int)) true

/-- A finite value as fixed point, exactly when its exponent is at least -1000. -/
def Val.toFix : Val → Nat
  | .fin _ m e _ => if 0 ≤ e + (places : Int) then m <<< (e + (places : Int)).toNat else m >>> (-(e + (places : Int))).toNat
  | _ => 0

/-- 2^x of a finite x below 2^12 in magnitude; exact for an integer x. -/
def exp2Val (x : Val) : Val :=
  let k := x.toFix
  let i : Int := ((k / fixOne : Nat) : Int)
  let f := k % fixOne
  let (i, f) := if x.sgn && k != 0 then (if f = 0 then (-i, 0) else (-i - 1, fixOne - f)) else (i, f)
  if f = 0 then .fin false 1 i false
  else .fin false (expFix (f * ln2Fix / fixOne)) (i - (places : Int)) true

/-- A value too small for any format. -/
def tiny (neg : Bool) : Val := .fin neg 1 (-4000) true

/-- e^-a of a fixed-point a, as a significand of 1,000 places and a power of two. -/
def expNeg (a : Nat) : Nat × Nat :=
  let n := a / ln2Fix
  (fixOne * fixOne / expFix (a % ln2Fix), n)

def log2Val (x : Val) : Val :=
  match x with
  | .fin _ m e _ =>
    let l := Nat.log2 m
    let i : Int := (l : Int) + e
    if m = 2 ^ l then Val.ofInt i else
    let f := m * fixOne / 2 ^ l
    let v : Int := i * (fixOne : Int) + ((lnFix f * fixOne / ln2Fix : Nat) : Int)
    -- the truncation is toward minus infinity; a negative value keeps its magnitude above
    if v < 0 then .fin true (v.natAbs - 1) (-(places : Int)) true else ofFix false v.natAbs
  | v => v

/-- 1 / sqrt of a positive value. -/
def rsqVal (x : Val) : Val :=
  match x with
  | .fin _ m e _ =>
    let (m, e) := if e % 2 = 0 then (m, e) else (2 * m, e - 1)
    let k := 256 + Nat.log2 m
    let n := 2 ^ (2 * k) / m
    let r := isqrt n (Nat.log2 n / 2 + 1)
    .fin false r (-(e / 2) - (k : Int)) (r * r * m != 2 ^ (2 * k))
  | v => v

/-- sin and cos of an angle n quarter turns and r, with 0 <= r < pi / 2 in fixed point. -/
def sinQuad (n r : Nat) : Val :=
  match n % 4 with
  | 0 => if r = 0 then .zero false else ofFix false (sinFix r)
  | 1 => if r = 0 then Val.ofInt 1 else ofFix false (cosFix r)
  | 2 => if r = 0 then .zero false else ofFix true (sinFix r)
  | _ => if r = 0 then Val.ofInt (-1) else ofFix true (cosFix r)

/-- sin x of a finite nonzero x. -/
def sinVal (x : Val) : Val :=
  let a := x.toFix
  let v := sinQuad (2 * a / piFix) (a - (2 * a / piFix) * piFix / 2)
  if x.sgn then v.neg else v
def cosVal (x : Val) : Val :=
  let a := x.toFix
  sinQuad (2 * a / piFix + 1) (a - (2 * a / piFix) * piFix / 2)

/-- tanh and the logistic function of a finite nonzero x. Beyond 300 and 600 they differ from their limits by less than any format
shows, and by more than nothing. -/
def tanhVal (x : Val) : Val :=
  let a := x.toFix
  if 300 * fixOne ≤ a then .fin x.sgn (fixOne - 1) (-(places : Int)) true else
  let (m, n) := expNeg (2 * a)
  let t := m >>> n
  ofFix x.sgn ((fixOne - t) * fixOne / (fixOne + t))

def sigmVal (x : Val) : Val :=
  let a := x.toFix
  if 600 * fixOne ≤ a then (if x.sgn then tiny false else .fin false (fixOne - 1) (-(places : Int)) true) else
  let (m, n) := expNeg a
  let d := fixOne + (m >>> n)
  if x.sgn then .fin false (m * fixOne / d) (-(n : Int) - (places : Int)) true
  else ofFix false (fixOne * fixOne / d)

/-- The nine functions, in opcode order (R60, R194). -/
inductive Fn where
  | exp2 | log2 | rcp | rsq | sqrt | sin | cos | tanh | sigm
  deriving DecidableEq, Repr

/-- The special values of R61 that are NaN or infinite, or that need no arithmetic. -/
def Fn.special (f : Fn) (x : Val) : Option Val :=
  match x with
  | .nan => some .nan
  | .inf s => some (match f, s with
    | .exp2, true => .zero false | .exp2, false => .inf false
    | .log2, true => .nan | .log2, false => .inf false
    | .rcp, s => .zero s
    | .rsq, true => .nan | .rsq, false => .zero false
    | .sqrt, true => .nan | .sqrt, false => .inf false
    | .sin, _ => .nan | .cos, _ => .nan
    | .tanh, s => .fin s 1 0 false
    | .sigm, true => .zero false | .sigm, false => Val.ofInt 1)
  | .fin s m e t =>
    if m = 0 then some (match f with
      | .exp2 => Val.ofInt 1
      | .log2 => .inf true
      | .rcp => .inf s
      | .rsq => .inf s
      | .sqrt => .zero s
      | .sin => .zero s
      | .cos => Val.ofInt 1
      | .tanh => .zero s
      | .sigm => .fin false 1 (-1) false)
    else if s && (f == .log2 || f == .rsq || f == .sqrt) then some .nan
    else if f = .exp2 ∧ !Val.lt (.fin s m e t) (Val.ofInt 128) then some (.inf false)
    else none

/-- f(x) exactly, for one rounding to 16 bits or fewer (R60). -/
def Fn.exact (f : Fn) (x : Val) : Val :=
  match f.special x with
  | some v => v
  | none =>
    match f with
    | .exp2 => if Val.lt x (Val.ofInt (-2000)) then tiny false else exp2Val x
    | .log2 => log2Val x
    | .rcp => Val.div (Val.ofInt 1) x
    | .rsq => rsqVal x
    | .sqrt => x.sqrt
    | .sin => sinVal x
    | .cos => cosVal x
    | .tanh => tanhVal x
    | .sigm => sigmVal x

/-! The FP32 recipes. -/

/-- Split(x) of R61: e, and f as an FP32 code; Frac6 reads its leading fraction bits. -/
def splitE (x : Val) : Int := x.floorLog2
def splitF (x : Val) : Nat := toFp32 ((x.abs).scale (-x.floorLog2))
def frac6 (f : Nat) : Nat := f / 2 ^ 17 % 64

def tabTE (j : Nat) : Nat := toFp32 (exp2Val (.fin false j (-6) false))
def tabTC (j : Nat) : Nat := toFp32 (Val.div (Val.ofInt 128) (Val.ofInt ((129 + 2 * j : Nat) : Int)))
def tabTL (j : Nat) : Nat := toFp32 (log2Val (fp32 (tabTC j))).neg
def tabTQ (j : Nat) : Nat := toFp32 (rsqVal (.fin false (65 + 2 * (j % 32)) ((j / 32 : Nat) - 6) false))
def tabTS (j : Nat) : Nat := toFp32 (sinQuad (j / 16) (piFix * (j % 16) / 32))
def tabTK (j : Nat) : Nat := toFp32 (sinQuad (j / 16 + 1) (piFix * (j % 16) / 32))

/-- A value that FP32 represents exactly (R61). -/
def exactFp32 (v : Val) : Option Nat :=
  match v with
  | .fin _ _ _ more => if !more && Val.eq (fp32 (toFp32 v)) v then some (toFp32 v) else none
  | _ => none

/-- The nearest integer to a finite value, ties to even, as a signed number. -/
def nearestInt (v : Val) : Int :=
  match v with
  | .fin s m e more => let k := roundAt .rne noSr s m e 0 more; if s then -(k : Int) else (k : Int)
  | _ => 0

/-- R62. -/
def recExp2 (x : Nat) : Nat :=
  let v := fp32 x
  if Val.lt v (Val.ofInt (-160)) then 0 else
  let n := nearestInt (v.scale 6)
  let j := (n % 64).toNat
  let m := (n - (j : Int)) / 64
  let r := toFp32 (Val.sub .rne v ((Val.ofInt n).scale (-6)))
  let p := fmaF (fmaF (fmaF 0x3C1D955B r 0x3D635847) r 0x3E75FDF0) r 0x3F317218
  let q := mulF p r
  let te := tabTE j
  scaleF (fmaF te q te) m

/-- R63. -/
def recLog2 (x : Nat) : Nat :=
  let v := fp32 x
  let f := splitF v
  let j := frac6 f
  let r := fmaF f (tabTC j) 0xBF800000
  let p := fmaF (fmaF (fmaF (fmaF 0x3E93BB63 r 0xBEB8AA3B) r 0x3EF6384F) r 0xBF38AA3B) r 0x3FB8AA3B
  addF (toFp32 (Val.ofInt (splitE v))) (fmaF p r (tabTL j))

/-- R64. -/
def recRcp (x : Nat) : Nat :=
  let v := fp32 x
  let f := splitF v
  let tc := tabTC (frac6 f)
  let t := fmaF (negF f) tc 0x3F800000
  let p := fmaF (fmaF 0x3F800000 t 0x3F800000) t 0x3F800000
  let q := mulF p t
  let y := scaleF (fmaF tc q tc) (-(splitE v))
  if v.sgn then negF y else y

/-- g, k and y of R65. -/
def recRsqParts (x : Nat) : Nat × Int × Nat :=
  let v := fp32 x
  let e := splitE v
  let f := splitF v
  let hi := f / 2 ^ 18 % 32
  let (g, k, j) := if e % 2 = 0 then (f, e / 2, hi) else (toFp32 ((fp32 f).scale 1), (e - 1) / 2, 32 + hi)
  let tq := tabTQ j
  let t := fmaF (negF (mulF g tq)) tq 0x3F800000
  let p := fmaF (fmaF 0x3EA00000 t 0x3EC00000) t 0x3F000000
  (g, k, fmaF tq (mulF p t) tq)

def recRsq (x : Nat) : Nat := let (_, k, y) := recRsqParts x; scaleF y (-k)
def recSqrt (x : Nat) : Nat := let (g, k, y) := recRsqParts x; toFp32 ((Val.mul (fp32 g) (fp32 y)).scale k)

/-- n and r of R66: the reduction is exact but for one rounding. -/
def recReduce (x : Nat) : Int × Nat :=
  let v := fp32 x
  let a := v.toFix
  let n := (64 * a + piFix) / (2 * piFix)
  let d : Int := (a : Int) - ((n * piFix / 32 : Nat) : Int)
  let r := if n = 0 then v.abs else .fin (decide (d < 0)) d.natAbs (-(places : Int)) true
  let r := toFp32 (if v.sgn then r.neg else r)
  (if v.sgn then -(n : Int) else (n : Int), r)

/-- ps and pc of R66. -/
def recTrigParts (r : Nat) : Nat × Nat :=
  let z := mulF r r
  let ps := fmaF r (mulF (fmaF 0x3C088889 z 0xBE2AAAAB) z) r
  let pc := mulF (fmaF 0x3D2AAAAB z 0xBF000000) z
  (ps, pc)

def recSin (x : Nat) : Nat :=
  let (n, r) := recReduce x
  let j := (n % 64).toNat
  let (ps, pc) := recTrigParts r
  fmaF (tabTK j) ps (fmaF (tabTS j) pc (tabTS j))
def recCos (x : Nat) : Nat :=
  let (n, r) := recReduce x
  let j := (n % 64).toNat
  let (ps, pc) := recTrigParts r
  fmaF (negF (tabTS j)) ps (fmaF (tabTK j) pc (tabTK j))

/-- A recipe with its special values and exact results (R61). -/
def recipe (f : Fn) (rec1 : Nat → Nat) (x : Nat) : Nat :=
  match f.special (fp32 x) with
  | some v => toFp32 v
  | none =>
    let easy := match f with
      | .log2 => exactFp32 (log2Val (fp32 x))
      | .rcp => exactFp32 (Val.div (Val.ofInt 1) (fp32 x))
      | .rsq => exactFp32 (rsqVal (fp32 x))
      | .sqrt => exactFp32 (fp32 x).sqrt
      | _ => none
    match easy with
    | some c => c
    | none => rec1 x

def fnExp2 (x : Nat) : Nat := recipe .exp2 recExp2 x
def fnRcp (x : Nat) : Nat := recipe .rcp recRcp x

/-- R67. -/
def recTanh (x : Nat) : Nat :=
  let v := fp32 x
  let a := toFp32 v.abs
  if !Val.lt v.abs (.fin false 19 (-1) false) then (if v.sgn then 0xBF800000 else 0x3F800000)
  else if Val.lt v.abs (.fin false 1 (-4) false) then
    let z := mulF x x
    fmaF x (mulF (fmaF 0x3E088889 z 0xBEAAAAAB) z) x
  else
    let e := fnExp2 (mulF a 0xC038AA3B)
    let y := mulF (subF 0x3F800000 e) (fnRcp (addF 0x3F800000 e))
    if v.sgn then negF y else y

/-- R68. -/
def recSigm (x : Nat) : Nat :=
  if (fp32 x).sgn then
    let e := fnExp2 (mulF x 0x3FB8AA3B)
    mulF e (fnRcp (addF 0x3F800000 e))
  else
    let e := fnExp2 (mulF x 0xBFB8AA3B)
    fnRcp (addF 0x3F800000 e)

/-- The FP32 result of a function. -/
def Fn.fp32 (f : Fn) (x : Nat) : Nat :=
  recipe f (match f with
    | .exp2 => recExp2 | .log2 => recLog2 | .rcp => recRcp | .rsq => recRsq | .sqrt => recSqrt | .sin => recSin
    | .cos => recCos | .tanh => recTanh | .sigm => recSigm) x

end Sys2Proof.Machine
end

