-- ==== Sys2Proof/Machine/VectorOps.lean ====
section
/-! DEFINITION. What the V words share (R184 to R188): elements of a head, masks, stochastic bits, the issue of an
execute-side word with its interlock, completion time and occupancy, and ring loops (R218 to R222, R253, R294). -/

namespace Sys2Proof.Machine

/-! Elements. -/

/-- The elements of a queue's head in a type (R184). -/
def Bank.elems (k : Bank) (q : BitVec 5) (t : EType) : List Nat := unpackElems t.width t.lanes (k.headOf q.toNat).toNat

/-- Element i of a list, zero beyond its end. -/
def nth (l : List Nat) (i : Nat) : Nat := (l[i]?).getD 0

/-- Active(i) (R177, R184): masks do not apply to .i3. -/
def Bank.active (k : Bank) (f : VOp) (i : Nat) : Bool := f.ty == .i3 || (k.maskReg f.msel.toNat).getLsbD i

/-- A register from its elements. -/
def packReg (t : EType) (l : List Nat) : Elem := BitVec.ofNat 2048 (packElems t.width l)

/-- A register whose element i is r i where Active(i) holds, and zero elsewhere (R184). -/
def Bank.masked (k : Bank) (f : VOp) (r : Nat → Nat) : Elem :=
  packReg f.ty ((List.range f.ty.lanes).map (fun i => if k.active f i then r i else 0))

/-- The random bits of result element i (R47). -/
def srBits (f : VOp) (w : Elem) (i : Nat) : SrBits :=
  let n := 8 + 4 * fld f.sub 6 2
  let x := elemAt w 16 (i % 128)
  let r := 4 * (i / 128)
  (n, (x / 2 ^ r + x * 2 ^ (16 - r)) % 2 ^ 16 % 2 ^ n)

/-- The stochastic bits of a word: from vc under SR, and none otherwise. -/
def Bank.srOf (k : Bank) (f : VOp) : Nat → SrBits :=
  if f.rm = .sr then srBits f (k.headOf f.vc.toNat) else fun _ => noSr

/-- The source fields of a word. -/
def srcA (f : VOp) : List (Nat × Bool) := [(f.va.toNat, f.ka)]
def srcAB (f : VOp) : List (Nat × Bool) := [(f.va.toNat, f.ka), (f.vb.toNat, f.kb)]
def srcABC (f : VOp) : List (Nat × Bool) := [(f.va.toNat, f.ka), (f.vb.toNat, f.kb), (f.vc.toNat, f.kc)]
/-- vc, when the word rounds stochastically (R47). -/
def srcSr (f : VOp) : List (Nat × Bool) := if f.rm = .sr then [(f.vc.toNat, f.kc)] else []

/-! Issue. -/

/-- A mask that an operation in flight will write holds its readers and writers (R186). m0 is never written. -/
def Bank.maskBusy (k : Bank) (i : Nat) : Bool :=
  i % 4 != 0 && k.ops.any (fun o => o.effs.any (fun e => match e with
    | .mask j _ => j % 4 == i % 4
    | _ => false))

/-- The next execute-side word issues no earlier than this word's occupancy allows (R188). -/
def State.occupy (s : State) (n : Nat) : State :=
  s.modBank s.focus.bank (fun k => { k with nextIssue := k.nextIssue.set Point.ve.index (s.cycle + n) })

/-- An execute-side word: its sources, its destinations, the masks it reads or writes, its completion time and occupancy
(R188), and what it writes at completion, from the bank as it issued. -/
def State.issueV (s : State) (m : Marks) (srcs : List (Nat × Bool)) (dsts : List Nat) (masks : List Nat) (lat occ : Nat)
    (effs : Bank → List (Nat × Nat) → List Eff) : Out :=
  s.issueE m (masks.all (fun i => !(s.bank s.focus.bank).maskBusy i)) srcs dsts none
    (fun k slots s => (s.startOp m lat .none (effs k slots)).occupy occ)

/-- The push of one register (R173). -/
def pushOne (slots : List (Nat × Nat)) (q : BitVec 5) (e : Elem) : List Eff := [.fill q.toNat (slotOf slots q.toNat) e]

/-- A word of one destination that its mask zeroes: r gives element i. -/
def State.lanesV (s : State) (m : Marks) (f : VOp) (srcs : List (Nat × Bool)) (lat occ : Nat) (r : Bank → Nat → Nat) : Out :=
  s.issueV m srcs [f.vd.toNat] [f.msel.toNat] lat occ (fun k slots => pushOne slots f.vd (k.masked f (r k)))

/-- The same for a word that takes no mask. -/
def State.wholeV (s : State) (m : Marks) (vd : BitVec 5) (srcs : List (Nat × Bool)) (lat : Nat) (r : Bank → Elem) : Out :=
  s.issueV m srcs [vd.toNat] [] lat 1 (fun k slots => pushOne slots vd (r k))

/-- Element-wise on one, two or three sources of the word's type. -/
def State.map1 (s : State) (m : Marks) (f : VOp) (lat : Nat) (r : Nat → Nat) : Out :=
  s.lanesV m f (srcA f) lat 1 (fun k => let a := k.elems f.va f.ty; fun i => r (nth a i))
def State.map2 (s : State) (m : Marks) (f : VOp) (lat : Nat) (r : Nat → Nat → Nat) : Out :=
  s.lanesV m f (srcAB f) lat 1 (fun k => let a := k.elems f.va f.ty; let b := k.elems f.vb f.ty; fun i => r (nth a i) (nth b i))
def State.map3 (s : State) (m : Marks) (f : VOp) (lat : Nat) (r : Nat → Nat → Nat → Nat) : Out :=
  s.lanesV m f (srcABC f) lat 1 (fun k =>
    let a := k.elems f.va f.ty
    let b := k.elems f.vb f.ty
    let c := k.elems f.vc f.ty
    fun i => r (nth a i) (nth b i) (nth c i))

/-- A mask from a condition on each element; bits at and above L are 0 (R192, R216). -/
def maskOf (n : Nat) (c : Nat → Bool) : Mask :=
  BitVec.ofNat 512 ((List.range n).foldl (fun m i => if c i then m + 2 ^ i else m) 0)

/-! Ring loops (R218, R219, R252, R253, R293, R294). -/

/-- The issue point is inside the loop of its engine. -/
def Bank.inLoop (k : Bank) (p : Point) : Option RLoop :=
  match k.engLoop (Point.engine p) with
  | some l => if l.ended = some (l.passOf p) then none else some l
  | none => none

/-- Words between a loop word at pos and the next end word, when it is in the ring: n positions are left to look at. -/
def State.bodyFrom (s : State) (b : Nat) (p : Point) (pos i : Nat) : Nat → Option Nat
  | 0 => none
  | n + 1 =>
    let k := s.bank b
    if opcodeOf (s.ringWord b p ((pos + 1 + i) % (2 * ringN (k.ring (Point.engine p))))).1 = endOpcode (Point.engine p) then some i
    else State.bodyFrom s b p pos (i + 1) n

/-- The loop begins: the status words are written, and the issue point enters the first pass or leaves a loop of no
iteration. A loop left by pre-emption takes up its count and index (R219, R253, R294). -/
def Bank.beginLoop (k : Bank) (p : Point) (pos body stages count : Nat) : Bank :=
  let e := Point.engine p
  let c := k.cw (loopCSel e)
  let st := k.cw (loopSSel e)
  let resume := st.getLsbD 2
  let n := if resume then fld c 0 24 else count
  let k0 := if resume && e != .c then fld c 24 24 else 0
  let k := k.putCw (loopCSel e) 0 24 n
  let k := if e = .c then k else k.putCw (loopCSel e) 24 24 k0
  let st := putFld (putFld (putFld st 0 3 1) 3 3 (stages - 1)) 14 13 (body / stages)
  let k := k.setCw (loopSSel e) st
  let l : RLoop := ⟨pos, body, stages, k0, 0, 0, [], none, false, false⟩
  let (k, l, act) := k.openPass e l 1
  let k := k.putCw (loopSSel e) 6 8 act
  if act = 0 then k.leaveLoop e p l 1 else (k.setEngLoop e (some (l.setPass p 1))).fixHP e

/-- A loop word that stands where it may not is an illegal encoding: it faults at the issue point without waiting (R71, R218, R253,
R294). -/
def State.misplaced (s : State) (i : Instr) : Out := .next (s.faultE s.focus.bank s.focus.point 0x01 (wordOf i) s.focus.pos)

/-- VLOOP, CLOOP and MLOOP (R218 to R220): illegal inside a loop; the word issues once its end word is in the ring and the
other side has left every earlier loop, and faults on an empty body or one that its stages do not divide. -/
def State.loopWord (s : State) (m : Marks) (i : Instr) (ready : Bool) (stages : BitVec 3) (count : BitVec 24) : Out :=
  let b := s.focus.bank
  let p := s.focus.point
  let k := s.bank b
  let n := stages.toNat + 1
  match k.inLoop p with
  | some _ => s.misplaced i
  | none =>
    match s.bodyFrom b p s.focus.pos 0 (ringAhead (k.ring (Point.engine p)) s.focus.pos - 1) with
    | none => s.plainE m false none (fun s => s)
    | some body =>
      let bad := body == 0 || body % n != 0
      s.plainE m (ready && (k.engLoop (Point.engine p)).isNone) (if bad then some (0x0B, wordOf i) else none)
        (fun s => s.modBank b (fun k => k.beginLoop p s.focus.pos body n count.toNat))

/-- VLBRK, CLBRK and MLBRK (R221): stage 0 is off from the next pass when the flag, as step 1 of R20 left it, is at least 1. -/
def State.breakWord (s : State) (m : Marks) (i : Instr) (ready : Bool) (f : BitVec 6) : Out :=
  let b := s.focus.bank
  let p := s.focus.point
  match (s.bank b).inLoop p with
  | none => s.misplaced i
  | some _ =>
    s.plainE m ready none (fun s => s.modBank b (fun k =>
      if k.flagSeen s.cycle f.toNat = 0 then k else
      match k.engLoop (Point.engine p) with
      | some l => (k.setEngLoop (Point.engine p) (some { l with stop := true })).putCw (loopSSel (Point.engine p)) 1 1 1
      | none => k))

/-- VEND, CEND and MEND (R218, R252, R293): a boundary inside a loop, and illegal outside. -/
def State.endWord (s : State) (i : Instr) : Out :=
  match (s.bank s.focus.bank).inLoop s.focus.point with
  | some l => .next (s.loopEnd s.focus.bank s.focus.point l)
  | none => s.misplaced i

end Sys2Proof.Machine
end

