-- ==== Sys2Proof/Machine/Copy.lean ====
section
/-! DEFINITION. C words: the issue rules (R231, R232), maps (R234, R235), moving data (R236 to R240), queue bindings (R241 to
R243) and loops (R252, R253). Accesses are performed at completion. -/

namespace Sys2Proof.Machine

/-! Issue (R231). -/

/-- An earlier operation of the C stream still writes a map, or holds it as a binding. -/
def Op.holdsMap (o : Op) (g : Nat) : Bool :=
  o.effs.any (fun e => match e with | .map g' _ => g' == g | _ => false) ||
  (match o.todo with
   | .cmap g' _ => g' == g
   | .kv g' _ _ => g' == g
   | .bind g' .. => g' == g
   | .sink g' .. => g' == g
   | _ => false)

/-- An earlier operation of the C stream still writes a sequence slot. -/
def Op.holdsSlot (o : Op) (k : Nat) : Bool :=
  o.effs.any (fun e => match e with | .seq k' _ => k' == k | _ => false) ||
  (match o.todo with
   | .seqLd k' _ => k' == k
   | .relWin k' _ => k' == k
   | .relTrunc k' _ _ => k' == k
   | _ => false)

/-- A command may issue: at most 16 are in flight, and the maps and slots it names are free. -/
def Bank.cReady (k : Bank) (maps slots : List Nat) : Bool :=
  decide ((k.opsOf .c).length < 16) &&
  maps.all (fun g => !(k.opsOf .c).any (fun o => o.holdsMap g)) &&
  slots.all (fun x => !(k.opsOf .c).any (fun o => o.holdsSlot x))

/-- A fault with a map's number, when a check fails. -/
def mapBad (c : Bool) (g : BitVec 4) : Option (Nat × W64) := if c then some (0x0B, g.setWidth 64) else none

/-- The checks of a map that a command reads: valid, and in layout coordinates in step with the layout (R225, R228). DESIGN CHOICE (log
85): every command but CMAP.st makes them, those too that access no element of the map, and before its own checks. -/
def State.mapCheck (s : State) (g : BitVec 4) : Option (Nat × W64) :=
  let r := (s.bank s.focus.bank).mapReg g.toNat
  (mapBad (!mapValid r) g).or (layoutFault r (s.layoutOf s.focus.bank))

/-- The bounds check of a box (R226). -/
def State.boundsCheck (s : State) (g : BitVec 4) : Option (Nat × W64) :=
  mapBad (boxFaults ((s.bank s.focus.bank).mapReg g.toNat)) g

def firstFault : List (Option (Nat × W64)) → Option (Nat × W64)
  | [] => none
  | some x :: _ => some x
  | none :: t => firstFault t

/-- The issue of a C command: its maps and slots, its queue, its checks, and its body. A check is made once the command is
ready and its queue can be read. -/
def State.issueC (s : State) (m : Marks) (maps : List (BitVec 4)) (slots : List Nat) (qs : List (Nat × Bool))
    (checks : List (Option (Nat × W64))) (body : Bank → State → State) : Out :=
  let k := s.bank s.focus.bank
  let ready := k.cReady (maps.map (fun g => g.toNat)) slots
  let known := qAll ((dedup (qs.map (fun x => x.1))).map (k.readRes s.focus.point)) == .ok
  s.issueE m ready qs [] (if ready && known then firstFault checks else none) (fun k _ s => body k s)

/-- The maps advanced by a command, in order (R227): the words that issue from the next cycle on see them (R179). -/
def State.advanceMaps (s : State) (k : Bank) (gs : List (BitVec 4)) : State :=
  match gs with
  | [] => s
  | [g] => s.startOp Marks.none 0 .none [.map g.toNat (advanceMap (k.mapReg g.toNat))]
  | g :: h :: _ =>
    let a := advanceMap (k.mapReg g.toNat)
    let c := advanceMap (if g = h then a else k.mapReg h.toNat)
    s.startOp Marks.none 0 .none [.map g.toNat a, .map h.toNat c]

/-- CNOP (R24). -/
def execCnop (m : Marks) (s : State) : Out := s.plainE m true none (fun s => s)

/-! Maps (R234, R235). -/

/-- A scratchpad record address of the job (R234). -/
def State.recordFault (s : State) (addr : BitVec 13) (n : Nat) : Option (Nat × W64) :=
  if (s.bank s.focus.bank).inRange (64 * addr.toNat) n then none else some (0x05, BitVec.ofNat 64 (64 * addr.toNat))

/-- CMAP. -/
def execCmap (m : Marks) (gA : BitVec 4) (addr : BitVec 13) (s : State) : Out :=
  s.issueC m [gA] [] [] [s.recordFault addr 64] (fun _ s => s.startOp m 4 (.cmap gA.toNat (64 * addr.toNat)) [])

/-- CMAP.st: the map as it stands at issue. -/
def execCmapSt (m : Marks) (gA : BitVec 4) (addr : BitVec 13) (s : State) : Out :=
  s.issueC m [gA] [] [] [mapBad (!mapValid ((s.bank s.focus.bank).mapReg gA.toNat)) gA, s.recordFault addr 64]
    (fun k s => s.startOp m 4 (.cmapSt (64 * addr.toNat) (k.mapReg gA.toNat)) [])

/-- CSTEP: one cursor moved, modulo 2^32. -/
def execCstep (m : Marks) (gA : BitVec 4) (dim : BitVec 2) (delta : BitVec 24) (s : State) : Out :=
  let r := (s.bank s.focus.bank).mapReg gA.toNat
  s.issueC m [gA] [] [] [s.mapCheck gA, mapBad (decide (mapRank r ≤ dim.toNat)) gA] (fun k s =>
    let r := k.mapReg gA.toNat
    s.startOp m 0 .none [.map gA.toNat (setPos r dim.toNat (mapPos r dim.toNat + delta.toInt))])

/-- CSTEP.odo: Advance. -/
def execCstepOdo (m : Marks) (gA : BitVec 4) (s : State) : Out :=
  s.issueC m [gA] [] [] [s.mapCheck gA] (fun k s => s.startOp m 0 .none [.map gA.toNat (advanceMap (k.mapReg gA.toNat))])

/-! Moving data (R236 to R240). -/

/-- The advances a command makes. -/
def advs (a : Bool) (g : BitVec 4) : List (BitVec 4) := if a then [g] else []

/-- The completion time given to a command that moves n bytes. DESIGN CHOICE (log 1): the manual bounds none. -/
def moveTime (n : Nat) : Nat := 8 + n / 256

/-- CCOPY. DEDUCED (log 45): a check that compares two maps reports gD. -/
def execCcopy (m : Marks) (gS gD : BitVec 4) (a1 a2 lr : Bool) (s : State) : Out :=
  let src := (s.bank s.focus.bank).mapReg gS.toNat
  let dst := (s.bank s.focus.bank).mapReg gD.toNat
  s.issueC m [gS, gD] [] []
    [s.mapCheck gS, s.mapCheck gD, mapBad (mapType src != mapType dst || boxCount src != boxCount dst) gD,
     mapBad (lr && !mapPgm src) gS, s.boundsCheck gS, s.boundsCheck gD]
    (fun k s => (s.startOp m (moveTime (boxBytes src)) (.copy src dst lr) []).advanceMaps k (advs a1 gS ++ advs a2 gD))

/-- CFILL: the pattern bits above the type's width are reserved. -/
def execCfill (m : Marks) (gD : BitVec 4) (imm : BitVec 16) (a : Bool) (s : State) : Out :=
  let r := (s.bank s.focus.bank).mapReg gD.toNat
  let w := (mapType r).width
  s.issueC m [gD] [] []
    [s.mapCheck gD, mapBad (decide (w < 16) && decide (2 ^ w ≤ imm.toNat)) gD, s.boundsCheck gD]
    (fun k s => (s.startOp m (moveTime (boxBytes r)) (.fill r (if w = 32 then imm.toNat * 2 ^ 16 else imm.toNat)) []).advanceMaps k (advs a gD))

/-- CZC. -/
def execCzc (m : Marks) (gA : BitVec 4) (a : Bool) (s : State) : Out :=
  let r := (s.bank s.focus.bank).mapReg gA.toNat
  s.issueC m [gA] [] [] [s.mapCheck gA, mapBad (!mapZc r) gA, s.boundsCheck gA]
    (fun k s => (s.startOp m (moveTime (boxBytes r)) (.zc r) []).advanceMaps k (advs a gA))

/-- The n indices of CGATH and CSCAT. -/
def Bank.indices (k : Bank) (q : BitVec 5) (n : Nat) : List Nat := unpackElems 32 n (k.headOf q.toNat).toNat

/-- A row out of bounds while ZF is clear (R226). -/
def rowOut (r : Rec) (g1 : Int) : Bool :=
  let out := fun (lo : Int) n d => decide (lo < 0) || decide ((mapExt r d : Int) < lo + (n : Int))
  !mapZf r && (out (mapPos r 0) (mapBox r 0) 0 || out g1 1 1 || out (mapPos r 2) 1 2 || out (mapPos r 3) 1 3)

/-- The rows that indices select, and the rows in order, as runs of one stream (R239). -/
def indexedRuns (r : Rec) (lay : Option Desc) (idx : List Nat) : List (Nat × Loc × Nat) :=
  (idx.zipIdx).filterMap (fun x => rowAt r lay x.2 (x.1 : Int) (mapPos r 2) (mapPos r 3))
def orderedRuns (r : Rec) (lay : Option Desc) (n : Nat) : List (Nat × Loc × Nat) :=
  (List.range n).filterMap (fun i => rowAt r lay i (mapPos r 1 + (i : Int)) (mapPos r 2) (mapPos r 3))

/-- The checks that CGATH and CSCAT share: `byIdx` is the map that the indices select rows of, `byRow` the one i walks. -/
def State.rowChecks (s : State) (gIdx gRow : BitVec 4) (idx : List Nat) : List (Option (Nat × W64)) :=
  let byIdx := (s.bank s.focus.bank).mapReg gIdx.toNat
  let byRow := (s.bank s.focus.bank).mapReg gRow.toNat
  [mapBad (mapType byIdx != mapType byRow || mapBox byIdx 0 != mapBox byRow 0 || decide (mapBox byRow 1 < idx.length)) gRow,
   mapBad (idx.any (fun i => rowOut byIdx (i : Int))) gIdx,
   mapBad ((List.range idx.length).any (fun i => rowOut byRow (mapPos byRow 1 + (i : Int)))) gRow]

/-- CGATH. -/
def execCgath (m : Marks) (gS gD : BitVec 4) (q : BitVec 5) (nm1 : BitVec 6) (s : State) : Out :=
  let k := s.bank s.focus.bank
  let idx := k.indices q (nm1.toNat + 1)
  s.issueC m [gS, gD] [] [(q.toNat, false)] ([s.mapCheck gS, s.mapCheck gD] ++ s.rowChecks gS gD idx)
    (fun k s => s.startOp m (moveTime (idx.length * rowBytes (k.mapReg gS.toNat))) (.gather (k.mapReg gS.toNat) (k.mapReg gD.toNat) idx) [])

/-- CSCAT. -/
def execCscat (m : Marks) (gS gD : BitVec 4) (q : BitVec 5) (nm1 : BitVec 6) (s : State) : Out :=
  let k := s.bank s.focus.bank
  let idx := k.indices q (nm1.toNat + 1)
  s.issueC m [gS, gD] [] [(q.toNat, false)] ([s.mapCheck gS, s.mapCheck gD] ++ s.rowChecks gD gS idx)
    (fun k s => s.startOp m (moveTime (idx.length * rowBytes (k.mapReg gS.toNat))) (.scatter (k.mapReg gS.toNat) (k.mapReg gD.toNat) idx) [])

/-- CUSE. Like CPREF it skips elements out of bounds whatever ZF holds (R240; DESIGN CHOICE, log 83). -/
def execCuse (m : Marks) (gA count : BitVec 4) (dead : Bool) (s : State) : Out :=
  let r := (s.bank s.focus.bank).mapReg gA.toNat
  s.issueC m [gA] [] [] [s.mapCheck gA] (fun _ s => s.startOp m (moveTime (boxBytes r)) (.use r count.toNat dead) [])

/-- CPREF. It skips elements out of bounds whatever ZF holds, with no check of bounds, where R226 speaks of every command (R240; DESIGN
CHOICE, log 83). -/
def execCpref (m : Marks) (gA : BitVec 4) (l1 a : Bool) (s : State) : Out :=
  let r := (s.bank s.focus.bank).mapReg gA.toNat
  s.issueC m [gA] [] [] [s.mapCheck gA] (fun k s => (s.startOp m (moveTime (boxBytes r)) (.pref r l1) []).advanceMaps k (advs a gA))

/-! Queue bindings (R241 to R243). -/

/-- What CBIND and CSINK refuse: box bytes, a binding of the same side, or a queue that M holds. -/
def State.bindBad (s : State) (r : Rec) (q : BitVec 5) (taken : Bool) (g : BitVec 4) : Option (Nat × W64) :=
  mapBad (boxBytes r % 256 != 0 || taken || ((s.bank s.focus.bank).queue q.toNat).cons == .m) g

def countOf (count : BitVec 24) : Option Nat := if count = 0 then none else some count.toNat

/-- CBIND: from here the stream moves element by element (BOUND_STREAM_ELEMENT). -/
def execCbind (m : Marks) (gS : BitVec 4) (q : BitVec 5) (count : BitVec 24) (s : State) : Out :=
  let k := s.bank s.focus.bank
  let r := k.mapReg gS.toNat
  s.issueC m [gS] [] [] [s.mapCheck gS, s.bindBad r q ((k.queue q.toNat).prod != .none) gS, s.boundsCheck gS] (fun _ s =>
    (s.startOp m 1 (.bind gS.toNat q.toNat (countOf count) 0 r) []).modBank s.focus.bank
      (fun k => k.modQueue q.toNat (fun x => { x with prod := .stream })))

/-- CSINK. -/
def execCsink (m : Marks) (gD : BitVec 4) (q : BitVec 5) (count : BitVec 24) (s : State) : Out :=
  let k := s.bank s.focus.bank
  let r := k.mapReg gD.toNat
  s.issueC m [gD] [] [] [s.mapCheck gD, s.bindBad r q ((k.queue q.toNat).cons != .none) gD, s.boundsCheck gD] (fun _ s =>
    (s.startOp m 1 (.sink gD.toNat q.toNat (countOf count) 0 r) []).modBank s.focus.bank
      (fun k => k.modQueue q.toNat (fun x => { x with cons := .sink })))

/-- The operation is the producer, or the consumer, binding of a queue. -/
def Op.bindsProd (o : Op) (q : Nat) : Bool :=
  match o.todo with
  | .bind _ q' .. => q' == q
  | .peer tx q' _ _ _ => !tx && q' == q
  | _ => false
def Op.bindsCons (o : Op) (q : Nat) : Bool :=
  match o.todo with
  | .sink _ q' .. => q' == q
  | .peer tx q' _ _ _ => tx && q' == q
  | _ => false

/-- A binding ends: its side of the queue is free, its word completes and makes its increment (R242). -/
def State.endBinding (s : State) (b : Nat) (o : Op) : State :=
  let s := s.modBank b (fun k =>
    match o.todo with
    | .bind _ q .. => k.modQueue q (fun x => { x with prod := .none })
    | .sink _ q .. => k.modQueue q (fun x => { x with cons := .none })
    | .peer tx q _ _ _ => k.modQueue q (fun x => if tx then { x with cons := .none } else { x with prod := .none })
    | _ => k)
  s.finishOp b { o with effs := [] }

/-- The other end of a formed link. -/
def State.otherEnd (s : State) (b : Nat) (o : Op) : Option (Nat × Op) :=
  match o.todo with
  | .peer tx q pb vp true =>
    ((s.bank pb).ops.find? (fun x => match x.todo with
      | .peer tx' q' pb' vp' true => tx' != tx && q' == vp && pb' == b && vp' == q
      | _ => false)).map (fun x => (pb, x))
  | _ => none

/-- A binding ended by CUNB; a link ends at both ends (R243). -/
def State.unbind (s : State) (b : Nat) (o : Op) : State :=
  let other := s.otherEnd b o
  let s := s.endBinding b o
  match other with
  | some (pb, x) => s.endBinding pb x
  | none => s

/-- The bindings that CUNB ends. -/
def Bank.unbound (k : Bank) (q : BitVec 5) (p c : Bool) : List Op :=
  k.ops.filter (fun o => (p && o.bindsProd q.toNat) || (c && o.bindsCons q.toNat))

/-- CUNB: it waits for an element that a page has stopped half moved; otherwise none is, and the bindings end at once. -/
def execCunb (m : Marks) (q : BitVec 5) (p c : Bool) (s : State) : Out :=
  if ((s.bank s.focus.bank).unbound q p c).any (fun o => o.parked) then s.plainE m false none (fun s => s) else
  s.issueC m [] [] [] [] (fun k s => ((k.unbound q p c).foldl (fun s o => s.unbind s.focus.bank o) s).doneE m)

/-- CPEER: both ends name each other before anything is forwarded. A refused one reports its queue's number (DEDUCED, log 45). -/
def State.peerWord (s : State) (m : Marks) (tx : Bool) (q : BitVec 5) (core : BitVec 6) (bank : Bool) (vP : BitVec 5) : Out :=
  let b := s.focus.bank
  let pb := bankOf (bankDie b) core.toNat (if bank then 1 else 0)
  let x := (s.bank b).queue q.toNat
  let bad := !(s.bank pb).live || (s.bank pb).seq != (s.bank b).seq || (if tx then x.cons != .none else x.prod != .none)
  s.issueC m [] [] [] [if bad then some (0x0B, q.setWidth 64) else none] (fun _ s =>
    (s.startOp m 1 (.peer tx q.toNat pb vP.toNat false) []).modBank b
      (fun k => k.modQueue q.toNat (fun x => if tx then { x with cons := .peer } else { x with prod := .peer })))

def execCpeerTx (m : Marks) (q : BitVec 5) (core : BitVec 6) (bank : Bool) (vP : BitVec 5) (s : State) : Out :=
  s.peerWord m true q core bank vP
def execCpeerRx (m : Marks) (q : BitVec 5) (core : BitVec 6) (bank : Bool) (vP : BitVec 5) (s : State) : Out :=
  s.peerWord m false q core bank vP

/-! Loops (R252, R253). -/

def execCloop (m : Marks) (stages : BitVec 3) (count : BitVec 24) (s : State) : Out := s.loopWord m (.cloop m stages count) true stages count
def execClbrk (m : Marks) (f : BitVec 6) (s : State) : Out := s.breakWord m (.clbrk m f) true f
def execCend (m : Marks) (s : State) : Out := s.endWord (.cend m)

/-! Performing. -/

/-- The 64-byte record of a scratchpad address: its bytes, or the fault of a marked word. -/
def State.recordAt (s : State) (b addr : Nat) : State × Nat × Option Stop := s.engRead b addr 64 true

/-- CMAP: an invalid record leaves the map unchanged. -/
def State.performCmap (s : State) (b g addr : Nat) : State × Done :=
  match s.recordAt b addr with
  | (s, _, some x) => (s, .stop x)
  | (s, v, none) =>
    let r : Rec := BitVec.ofNat 512 v
    (s, if mapValid r then .ok [.map g r] else .stop (.fault 0x0B (BitVec.ofNat 64 g)))

def State.performCmapSt (s : State) (b addr : Nat) (r : Rec) : State × Done :=
  match s.engWrite b addr 64 r.toNat true false with
  | (s, x) => (s, doneOr x)

/-- The physical block that a piece reaches, to tell overlaps: a space and an address. -/
def State.physKey (s : State) (b : Nat) (x : Nat × Loc × Nat) : Option (Nat × Nat × Nat) :=
  match (s.locTgt b x.2.1 x.2.2 false true).2 with
  | .sp k off => some (2 * k + 2, off, off + x.2.2)
  | .shm c off => some (2 * c + 1, off, off + x.2.2)
  | .mem pa _ _ => some (0, pa, pa + x.2.2)
  | _ => none

/-- Some source byte is a destination byte (R231). -/
def State.overlap (s : State) (b : Nat) (src dst : List (Nat × Loc × Nat)) : Bool :=
  let ds := (pieces dst).filterMap (s.physKey b)
  ((pieces src).filterMap (s.physKey b)).any (fun x => ds.any (fun y => x.1 == y.1 && decide (x.2.1 < y.2.2) && decide (y.2.1 < x.2.2)))

/-- Bytes moved from runs of one map to runs of another; a command whose bytes overlap leaves its destination undefined. -/
def State.moveRuns (s : State) (b : Nat) (r d : Rec) (src dst : List (Nat × Loc × Nat)) (len : Nat) : State × Option Stop :=
  match s.cspStop b (withBitmap d dst) with
  | some x => (s, some x)
  | none =>
  match s.runsRead b r src with
  | (s, _, some x) => (s, some x)
  | (s, v, none) =>
    if s.overlap b src dst then
      let w := (s.freeWord (8 * len) 0).toNat
      (s.spend).runsWrite b d dst w
    else s.runsWrite b d dst v

/-- CFILL: the pattern in every element. -/
def State.performFill (s : State) (b : Nat) (d : Rec) (pat : Nat) (lay : Option Desc) : State × Done :=
  let w := (mapType d).width
  let v := packElems w ((List.range (boxCount d)).map (fun _ => pat))
  match s.boxWrite b d lay v with
  | (s, x) => (s, doneOr x)

/-- The granules of a box, once each: the granule's own address. -/
def granules (r : Rec) (lay : Option Desc) : List Loc :=
  ((pieces (boxRuns r lay)).map (fun x => match x.2.1 with
    | .ea a => Loc.ea (a / 64 * 64)
    | .die d o => Loc.die d (o / 64 * 64))).foldl (fun acc l => if acc.contains l then acc else acc ++ [l]) []

/-- What CZC reads and what it writes: whole granules, and their bits. -/
def zcRuns (r : Rec) (lay : Option Desc) : List (Nat × Loc × Nat) := withBitmap r ((granules r lay).map (fun l => (0, l, 64)))

def State.zcAll (s : State) (b : Nat) (r : Rec) : List Loc → State × Option Stop
  | [] => (s, none)
  | l :: t =>
    match s.readAt b l 64 (mapUse r) (mapDead r) true with
    | (s, _, some x) => (s, some x)
    | (s, v, none) =>
      match s.zcSet b r l (v != 0) with
      | (s, some x) => (s, some x)
      | (s, none) => State.zcAll s b r t

/-- CZC. -/
def State.performZc (s : State) (b : Nat) (r : Rec) (lay : Option Desc) : State × Done :=
  match s.cspStop b (zcRuns r lay) with
  | some x => (s, .stop x)
  | none =>
    match s.zcAll b r (granules r lay) with
    | (s, x) => (s, doneOr x)

/-- The 64-byte lines of a box that can be reached, in HBM or host memory; everything else is skipped (R240). -/
def State.boxLines (s : State) (b : Nat) (r : Rec) (lay : Option Desc) : List Nat :=
  dedup ((pieces (boxRuns r lay)).filterMap (fun x =>
    match (s.locTgt b x.2.1 x.2.2 false true).2 with
    | .mem pa _ _ => some (pa / 64)
    | _ => none))

/-- Their home MSC lines. -/
def homeLines (lines : List Nat) : List Nat := dedup ((lines.filter (fun l => decide (l * 64 < hostBase))).map (fun l => l / 4))

/-- CUSE: lines present in the MSC take the count and the dead mark. -/
def State.performUse (s : State) (b : Nat) (r : Rec) (count : Nat) (dead : Bool) (lay : Option Desc) : State × Done :=
  let one := fun (s : State) (line : Nat) =>
    let pa := line * 256
    s.modDie (paDie pa) (fun d => { d with msc := d.msc.map (fun l =>
      if l.line = paOff pa / 256 then { l with uc := count, dead := dead, victim := l.victim && count == 0 } else l) })
  (((homeLines (s.boxLines b r lay)).foldl one s), .ok [])

/-- CPREF: one read request to each home line, and with .l1 the L1's lines. -/
def State.performPref (s : State) (b : Nat) (r : Rec) (l1 : Bool) (lay : Option Desc) : State × Done :=
  let home := fun (s : State) (line : Nat) =>
    let pa := line * 256
    s.modDie (paDie pa) (fun d => (d.readLine (paOff pa / 256) (mapUse r) (mapDead r)).1)
  let lines := s.boxLines b r lay
  let s := (homeLines lines).foldl home s
  ((if l1 then lines.foldl (fun (s : State) l => (s.l1Fill b l (ones 64) (mapUse r) (mapDead r)).1) s else s), .ok [])

/-- CGATH and CSCAT. -/
def State.performRows (s : State) (b : Nat) (src dst : Rec) (idx : List Nat) (gather : Bool) (lay : Option Desc) : State × Done :=
  let n := idx.length
  let from_ := if gather then indexedRuns src lay idx else orderedRuns src lay n
  let to_ := if gather then orderedRuns dst lay n else indexedRuns dst lay idx
  match s.moveRuns b src dst from_ to_ (n * rowBytes src) with
  | (s, x) => (s, doneOr x)

end Sys2Proof.Machine
end

