-- ==== Sys2Proof/Machine/CopyKv.lean ====
section
/-! DEFINITION. Paged key-value storage: sequence slots (R245, R246), CKV (R247), releases (R249, R250) and CCOPY's last-read
release (R236). -/

namespace Sys2Proof.Machine

/-! Sequence descriptors (R245). -/

def sqBtab (r : Rec) : Nat := fld r 0 48
def sqOvl (r : Rec) : Nat := fld r 64 48
def sqParent (r : Rec) : Nat := fld r 128 48
def sqFork (r : Rec) : Nat := fld r 192 32
def sqLen (r : Rec) : Nat := fld r 224 32
def sqWin (r : Rec) : Nat := fld r 256 32
def sqWrel (r : Rec) : Nat := fld r 288 32
def sqRope (r : Rec) : Nat := fld r 320 48
def sqSwpos (r : Rec) : Nat := fld r 384 32

/-- What CSEQ.ld refuses (R246). -/
def sqBad (r : Rec) : Bool :=
  fld r 48 16 != 0 || fld r 112 16 != 0 || fld r 176 16 != 0 || fld r 368 16 != 0 || fld r 416 96 != 0 ||
  (sqParent r == 0 && sqFork r != 0) || decide (sqLen r < sqFork r)

/-- CSEQ.ld. -/
def execCseqLd (m : Marks) (k : BitVec 2) (addr : BitVec 13) (s : State) : Out :=
  s.issueC m [] [k.toNat] [] [s.recordFault addr 64] (fun _ s => s.startOp m 4 (.seqLd k.toNat (64 * addr.toNat)) [])

/-- CSEQ.st: the slot as it stands at issue. -/
def execCseqSt (m : Marks) (k : BitVec 2) (addr : BitVec 13) (s : State) : Out :=
  s.issueC m [] [k.toNat] [] [s.recordFault addr 64]
    (fun bk s => s.startOp m 4 (.seqSt (64 * addr.toNat) (bk.seqSlots.get 0 k.toNat)) [])

/-- CSEQ.rope: the table in effect for POS1 of gA is pushed when it has been read (R175). -/
def execCseqRope (m : Marks) (gA : BitVec 4) (q : BitVec 5) (k : BitVec 2) (s : State) : Out :=
  s.issueC m [gA] [k.toNat] [] [s.mapCheck gA]
    (fun bk s => s.startOp m 8 (.seqRope (mapPos (bk.mapReg gA.toNat) 1) (bk.seqSlots.get 0 k.toNat) q.toNat) [])

/-- CKV: gA needs rank 2 (R247). -/
def execCkv (m : Marks) (gA gB : BitVec 4) (k : BitVec 2) (s : State) : Out :=
  let a := (s.bank s.focus.bank).mapReg gA.toNat
  s.issueC m [gA, gB] [k.toNat] [] [s.mapCheck gA, mapBad (decide (mapRank a < 2)) gA]
    (fun bk s => s.startOp m 8 (.kv gB.toNat (bk.mapReg gA.toNat) (bk.seqSlots.get 0 k.toNat)) [])

/-- CKREL.page: the map must be a page map. -/
def execCkrelPage (m : Marks) (gA : BitVec 4) (s : State) : Out :=
  let a := (s.bank s.focus.bank).mapReg gA.toNat
  s.issueC m [gA] [] [] [s.mapCheck gA, mapBad (!mapPgm a) gA]
    (fun bk s => s.startOp m 8 (.relPage (wrap 64 ((mapBase (bk.mapReg gA.toNat) : Int) - 64))) [])

/-- CKREL.win. -/
def execCkrelWin (m : Marks) (k : BitVec 2) (s : State) : Out :=
  s.issueC m [] [k.toNat] [] [] (fun bk s => s.startOp m 8 (.relWin k.toNat (bk.seqSlots.get 0 k.toNat)) [])

/-- CKREL.trunc: the new length is lane 0 of the popped element. -/
def execCkrelTrunc (m : Marks) (q : BitVec 5) (k : BitVec 2) (s : State) : Out :=
  let bk := s.bank s.focus.bank
  let nl := fld (bk.headOf q.toNat) 0 32
  let d := bk.seqSlots.get 0 k.toNat
  s.issueC m [] [k.toNat] [(q.toNat, false)]
    [if sqLen d < nl ∨ nl < sqFork d then some (0x0B, k.setWidth 64) else none]
    (fun bk s => s.startOp m 8 (.relTrunc k.toNat (bk.seqSlots.get 0 k.toNat) nl) [])

/-! Performing slots and tables. -/

def State.performSeqLd (s : State) (b k addr : Nat) : State × Done :=
  match s.recordAt b addr with
  | (s, _, some x) => (s, .stop x)
  | (s, v, none) =>
    let r : Rec := BitVec.ofNat 512 v
    (s, if sqBad r then .stop (.fault 0x0B (BitVec.ofNat 64 k)) else .ok [.seq k r])

/-- The rope table read through the L1; it is pushed when the queue has room. -/
def State.performSeqRope (s : State) (b : Nat) (pos : Int) (d : Rec) (q : Nat) : State × Done :=
  match s.engRead b (sqRope d + (if pos < (sqSwpos d : Int) then 0 else 256)) 256 true with
  | (s, _, some x) => (s, .stop x)
  | (s, v, none) => (s, .more (.pushes [⟨q, BitVec.ofNat 2048 v, none, []⟩]) s.cycle)

/-! CKV (R247). -/

/-- Entry j of a table. -/
def State.entryAt (s : State) (b table j : Nat) : State × W64 × Option Stop :=
  match s.engRead b ((table + 8 * j) % 2 ^ 64) 8 true with
  | (s, v, x) => (s, BitVec.ofNat 64 v, x)

/-- Where a lookup ends: a frame and the limit in force, no token, a fault, or a stop of its reads. -/
inductive KvRes where
  | page (frame lim : Nat)
  | empty
  | stop (x : Stop)
  deriving DecidableEq, Repr

/-- The walk of R247 from a descriptor: `fuel` is one more than the parents that may still be entered. -/
def State.kvWalk (s : State) (b p lim : Nat) (d : Rec) : Nat → State × KvRes
  | 0 => (s, .stop (.fault 0x0B 0))
  | fuel + 1 =>
    let j := p / 64
    let (s, e, x) := if sqOvl d ≠ 0 ∧ j < ceilDiv (sqFork d) 64 then s.entryAt b (sqOvl d) j else (s, 0, none)
    match x with
    | some x => (s, .stop x)
    | none =>
      if e.getLsbD 63 then (s, .page (fld e 0 48) lim)
      else if p < sqFork d then
        (if fuel = 0 then (s, .stop (.fault 0x0B 0)) else
         let lim := min lim (sqFork d)
         match s.engRead b (sqParent d) 64 true with
         | (s, _, some x) => (s, .stop x)
         | (s, v, none) =>
           let d' : Rec := BitVec.ofNat 512 v
           let lim := min lim (sqLen d')
           if lim ≤ p then (s, .empty) else State.kvWalk s b p lim d' fuel)
      else
        match s.entryAt b (sqBtab d) j with
        | (s, _, some x) => (s, .stop x)
        | (s, e, none) => (s, if e.getLsbD 63 then .page (fld e 0 48) lim else .stop (.fault 0x0B 0))

/-- The map with BASE 0, EXT1 0 and PGM 0: no token there. -/
def emptyPage (a : Rec) : Rec := putFld (putFld (putFld a 96 32 0) 0 48 0) 62 1 0

/-- CKV performed. -/
def State.performKv (s : State) (b g : Nat) (a d : Rec) : State × Done :=
  let p := mapPos a 1
  if p < 0 ∨ (sqLen d : Int) ≤ p then (s, .ok [.map g (emptyPage a)]) else
  let p := p.toNat
  match s.kvWalk b p (sqLen d) d 5 with
  | (s, .stop x) => (s, .stop (match x with | .fault 0x0B _ => .fault 0x0B (BitVec.ofNat 64 g) | x => x))
  | (s, .empty) => (s, .ok [.map g (emptyPage a)])
  | (s, .page frame lim) =>
    let r := putFld (putFld a 0 48 (frame + 64)) 96 32 (min 64 (lim - 64 * (p / 64)))
    (s, .ok [.map g (putFld (setPos r 1 ((p % 64 : Nat) : Int)) 62 1 1)])

/-! Releases (R249, R250). -/

/-- The table entries a release clears, and the frame headers it drops a reference of, in order. -/
structure RelPlan where
  heads : List Nat
  clears : List (Nat × W64)
  deriving DecidableEq, Repr

/-- Table entries looked up in order: each valid one has its frame released and its VALID cleared. -/
def State.planEntries (s : State) (b : Nat) (plan : RelPlan) : List (Nat × Nat) → State × Except Stop RelPlan
  | [] => (s, .ok plan)
  | (table, j) :: t =>
    match s.entryAt b table j with
    | (s, _, some x) => (s, .error x)
    | (s, e, none) =>
      let plan := if e.getLsbD 63 then
          (⟨plan.heads ++ [fld e 0 48], plan.clears ++ [((table + 8 * j) % 2 ^ 64, putFld e 63 1 0)]⟩ : RelPlan)
        else plan
      State.planEntries s b plan t

/-- The free-frame ring: its entry array, log2 of its entries, and its header's address (R248). -/
def State.freeRing (s : State) (b : Nat) : State × Except Stop (Option (Nat × Nat × Nat)) :=
  let w := (s.bank b).cw cwKVFREE
  if !w.getLsbD 0 then (s, .ok none) else
  let h := fld w 6 42 * 64
  match s.engRead b h 16 true with
  | (s, _, some x) => (s, .error x)
  | (s, v, none) => (s, .ok (some (v % 2 ^ 64, v / 2 ^ 64 % 2 ^ 32, h)))

/-- An address that will be changed is looked up with write intent; n bytes that do not leave a 64-byte block. -/
def State.probe (s : State) (b ea n : Nat) (copy : Bool) : State × Option Stop :=
  let (s, t) := s.locTgt b (.ea ea) n true copy
  (s, s.tgtStop b (.ea ea) true t)

/-- Step 1 of R250: every address in order, the first stop ends it. -/
def State.probeAll (s : State) (b : Nat) (copy : Bool) : List (Nat × Nat) → State × Option Stop
  | [] => (s, none)
  | (ea, n) :: t =>
    match s.probe b ea n copy with
    | (s, none) => State.probeAll s b copy t
    | (s, some x) => (s, some x)

/-- One address in every page of the ring's entry array. An array that would leave the address space faults at its end. -/
def ringPages (base size : Nat) : List (Nat × Nat) :=
  if 45 ≤ size then [(2 ^ 48, 8)] else
  let bytes := 8 * 2 ^ size
  let step := if base < 0x1000000 then 0x1000 else 0x10000
  (List.range (bytes / step + 2)).filterMap (fun i =>
    let a := if i = 0 then base else base / step * step + i * step
    if a < base + bytes then some (a, 8) else none)

/-- Release(h) at commit (R249): whether the count was already zero. -/
def State.release (s : State) (b h : Nat) (ring : Option (Nat × Nat × Nat)) : State × Bool :=
  let (s, t) := s.locTgt b (.ea h) 4 true true
  let (s, c, bad) := s.atomic b t 4 2 0 (fun old => if old = 0 then none else some (old - 1))
  if c = 0 ∧ !bad then (s, true)
  else
    match ring with
    | none => (s, false)
    | some (base, size, hdr) =>
      if c ≠ 1 ∨ bad then (s, false) else
      let (s, t) := s.locTgt b (.ea (hdr + 12)) 4 true true
      let (s, i, _) := s.atomic b t 4 2 0 (fun old => some ((old + 1) % 2 ^ 32))
      ((s.writeAt b (.ea (base + 8 * (i % 2 ^ size))) 8 h true true).1, false)

/-- Step 2 of R250: the releases and the table writes; the first header found at zero is reported after the whole commit. -/
def State.commit (s : State) (b : Nat) (plan : RelPlan) (ring : Option (Nat × Nat × Nat)) : State × Option Nat :=
  let (s, zero) := plan.heads.foldl (fun (acc : State × Option Nat) h =>
    let (s, z) := acc.1.release b h ring
    (s, if z && acc.2.isNone then some h else acc.2)) (s, none)
  (plan.clears.foldl (fun s c => (s.writeAt b (.ea c.1) 8 c.2.toNat true true).1) s, zero)

/-- The reference counts that a release will drop, read: a marked one faults before the commit (R167, R250). -/
def State.readHeads (s : State) (b : Nat) : List Nat → State × Option Stop
  | [] => (s, none)
  | h :: t =>
    match s.engRead b h 4 true with
    | (s, _, none) => State.readHeads s b t
    | (s, _, some x) => (s, some x)

/-- Step 1 of R250 for a plan: the ring it will use, or why it stops. -/
def State.translatePlan (s : State) (b : Nat) (plan : RelPlan) : State × Except Stop (Option (Nat × Nat × Nat)) :=
  match s.freeRing b with
  | (s, .error x) => (s, .error x)
  | (s, .ok ring) =>
    let more := match ring with
      | some (base, size, hdr) => (hdr + 12, 4) :: ringPages base size
      | none => []
    match s.probeAll b true (plan.heads.map (fun h => (h, 4)) ++ plan.clears.map (fun c => (c.1, 8)) ++ more) with
    | (s, some x) => (s, .error x)
    | (s, none) =>
      match s.readHeads b plan.heads with
      | (s, some x) => (s, .error x)
      | (s, none) => (s, .ok ring)

/-- A release performed whole: what it writes, and the report of R250. -/
def State.releasePlan (s : State) (b : Nat) (plan : RelPlan) (effs : List Eff) : State × Done :=
  match s.translatePlan b plan with
  | (s, .error x) => (s, .stop x)
  | (s, .ok ring) =>
    match s.commit b plan ring with
    | (s, none) => (s, .ok effs)
    | (s, some h) => (s, .fail effs 0x0B (BitVec.ofNat 64 h))

/-- CKREL.page. -/
def State.performRelPage (s : State) (b h : Nat) : State × Done := s.releasePlan b ⟨[h], []⟩ []

/-- The pages that CKREL.win passes: from WREL while 64(j + 1) ≤ LEN - WIN. -/
def winPages (d : Rec) : List Nat :=
  if sqWin d = 0 ∨ sqLen d ≤ sqWin d then [] else
  (List.range ((sqLen d - sqWin d) / 64 - sqWrel d)).map (fun i => sqWrel d + i)

/-- The entries of the slot's own tables that CKV can read for page j (R250). -/
def winEntries (d : Rec) (j : Nat) : List (Nat × Nat) :=
  (if sqOvl d ≠ 0 ∧ j < ceilDiv (sqFork d) 64 then [(sqOvl d, j)] else []) ++
  (if sqFork d < 64 * (j + 1) then [(sqBtab d, j)] else [])

/-- CKREL.win: nothing happens without a window, or within the first one. -/
def State.performRelWin (s : State) (b k : Nat) (d : Rec) : State × Done :=
  if sqWin d = 0 ∨ sqLen d ≤ sqWin d then (s, .ok []) else
  let js := winPages d
  match s.planEntries b ⟨[], []⟩ (js.flatMap (winEntries d)) with
  | (s, .error x) => (s, .stop x)
  | (s, .ok plan) => s.releasePlan b plan (if js.isEmpty then [] else [.seq k (putFld d 288 32 (sqWrel d + js.length))])

/-- CKREL.trunc: the block-table pages from NL on. -/
def State.performRelTrunc (s : State) (b k : Nat) (d : Rec) (nl : Nat) : State × Done :=
  let js := (List.range (ceilDiv (sqLen d) 64)).filter (fun j => decide (nl ≤ 64 * j))
  match s.planEntries b ⟨[], []⟩ (js.map (fun j => (sqBtab d, j))) with
  | (s, .error x) => (s, .stop x)
  | (s, .ok plan) => s.releasePlan b plan [.seq k (putFld d 224 32 nl)]

/-- CCOPY (R236): with .lr the release is translated first and commits once the bytes have been written. -/
def State.performCopy (s : State) (b : Nat) (r d : Rec) (lr : Bool) (lay : Option Desc) : State × Done :=
  let plan : RelPlan := ⟨[wrap 64 ((mapBase r : Int) - 64)], []⟩
  match (if lr then s.translatePlan b plan else (s, .ok none)) with
  | (s, .error x) => (s, .stop x)
  | (s, .ok ring) =>
    match s.moveRuns b r d (boxRuns r lay) (boxRuns d lay) (boxBytes r) with
    | (s, some x) => (s, .stop x)
    | (s, none) =>
      if !lr then (s, .ok []) else
      match s.commit b plan ring with
      | (s, none) => (s, .ok [])
      | (s, some h) => (s, .fail [] 0x0B (BitVec.ofNat 64 h))

end Sys2Proof.Machine
end

