-- ==== Sys2Proof/Machine/Cirrus.lean ====
section
/-! DEFINITION. The Cirrus key unit (R302 to R313): head slots, signatures, buckets, VKST, CKCFG and CKGATH. -/

namespace Sys2Proof.Machine

/-! The head record (R303). -/

def hdKbase (r : Rec) : Nat := fld r 0 48
def hdType (r : Rec) : EType := (EType.fromNat (fld r 48 4)).getD .fp32
def hdDim (r : Rec) : Nat := 16 * 2 ^ fld r 52 2
def hdVbase (r : Rec) : Nat := fld r 64 48
def hdStride (r : Rec) : Nat := fld r 128 32
def hdBtab (r : Rec) : Nat := fld r 160 48
def hdOvp (r : Rec) : Nat := fld r 224 48
def hdCap (r : Rec) : Nat := fld r 288 9
def hdMinc (r : Rec) : Nat := fld r 304 9
def hdWin (r : Rec) : Nat := fld r 320 32
def hdCaus (r : Rec) : Bool := r.getLsbD 352
/-- Row bytes, and the rows of a register. -/
def hdRow (r : Rec) : Nat := hdDim r * ((hdType r).width / 8)
def hdRows (r : Rec) : Nat := 256 / hdRow r

/-- In the scratchpad or in the cluster scratchpads (R96). -/
def inScratch (a : Nat) : Bool := decide (a < 0x80000) || (decide (0x800000 ≤ a) && decide (a < 0xA00000))

/-- What CKCFG.ld refuses (R303). -/
def hdBad (r : Rec) : Bool :=
  fld r 54 10 != 0 || fld r 112 16 != 0 || fld r 208 16 != 0 || fld r 272 16 != 0 || fld r 297 7 != 0 || fld r 313 7 != 0 ||
  fld r 353 159 != 0 || decide (4 < fld r 48 4) || hdKbase r % 32 != 0 || hdVbase r % 32 != 0 || hdStride r % 32 != 0 ||
  decide (hdStride r < hdRow r) || decide (256 < hdRow r) || hdBtab r % 2 ^ 20 != 0 || hdOvp r % 64 != 0 ||
  decide (hdCap r < 1) || decide (296 < hdCap r) || decide (hdCap r < hdMinc r) ||
  inScratch (hdKbase r) || inScratch (hdVbase r) || decide (hdBtab r < 0x1000000) || decide (hdOvp r < 0x1000000)

/-- A slot of the bank's cluster that is valid and belongs to its launch (R302). -/
def State.headSlot (s : State) (b k : Nat) : Option HeadSlot :=
  match (s.cluster (bankCluster b)).heads.find? k with
  | some h => if h.seq = (s.bank b).seq then some h else none
  | none => none

/-! Signatures (R304). -/

/-- One bit: the signed sum, rounded at every step. -/
def sigBit (proj : BitVec 6144) (t : EType) (x : List Nat) (row : Nat) : Bool :=
  let s := (x.zipIdx).foldl (fun s p =>
    let v := toFp32 (EType.value t p.1)
    if proj.getLsbD (128 * row + p.2) then addF s v else subF s v) 0
  s == 0 || Val.lt (.zero false) (fp32 s)

/-- Sig(T, x). -/
def signature (proj : BitVec 6144) (t : EType) (x : List Nat) (table : Nat) : Nat :=
  (List.range 12).foldl (fun m j => if sigBit proj t x (12 * table + j) then m + 2 ^ j else m) 0

/-- The elements of row i of a register of rows. -/
def rowElems (r : Rec) (e : Elem) (i : Nat) : List Nat :=
  unpackElems (hdType r).width (hdDim r) (fld e (8 * hdRow r * i) (8 * hdRow r))

/-! VKST (R307). -/

/-- The address of a bucket (R305). -/
def bucketAddr (r : Rec) (table h : Nat) : Nat := hdBtab r + 64 * (4096 * table + h)

/-- The rows of a VKST that its slot holds, unless an identifier is that of no token (R307). -/
def HeadSlot.rowsOf (h : HeadSlot) (ty : EType) (i : Elem) (rows : List Nat) : Option (List Nat) :=
  let rows := rows.filter (fun x => decide (x < hdRows h.record))
  if hdType h.record ≠ ty || rows.any (fun x => elemAt i 32 x == 0xFFFFFFFF) then none else some rows

/-- The places that the rows of a VKST write: key and value rows, and buckets. -/
def HeadSlot.places (h : HeadSlot) (k i : Elem) (rows : List Nat) : List (Nat × Nat) :=
  let r := h.record
  rows.flatMap (fun x =>
    let tok := elemAt i 32 x
    [((hdKbase r + tok * hdStride r) % 2 ^ 64, hdRow r), ((hdVbase r + tok * hdStride r) % 2 ^ 64, hdRow r)] ++
    (List.range 4).map (fun tb => (bucketAddr r tb (signature h.proj (hdType r) (rowElems r k x) tb), 64)))

/-- The blocks of places, each with its address and length. -/
def placeBlocks (ps : List (Nat × Nat)) : List (Nat × Nat) :=
  ps.flatMap (fun p => (cut64 0 (.ea p.1) p.2 6).map (fun x => (x.2.1.low, x.2.2)))

/-- The check of R209 and R333 on the places of a VKST, made at issue: the first that faults. -/
def State.checkKst (s : State) (b : Nat) (h : HeadSlot) (ty : EType) (k i : Elem) (rows : List Nat) : Option (Nat × W64) :=
  match h.rowsOf ty i rows with
  | none => none
  | some rows => (placeBlocks (h.places k i rows)).findSome? (fun p => match (s.probe b p.1 p.2 false).2 with
    | some (.fault c v) => some (c, v)
    | _ => none)

/-- VKST: Cirrus accepts the word, and takes the slot whole, as it issues (DESIGN CHOICE, log 65); it holds the execute side for NT cycles
(R309). -/
def execVkst (m : Marks) (f : VOp) (s : State) : Out :=
  let b := s.focus.bank
  let bk := s.bank b
  let head := s.headSlot b (fld f.sub 0 5)
  let nt := match head with | some h => hdRows h.record | none => 1
  let rows := (List.range 16).filter (fun i => (bk.maskReg f.msel.toNat).getLsbD i)
  let known := qAll ((dedup ((srcABC f).map (fun x => x.1))).map (bk.readRes s.focus.point)) == .ok
  let bad := match head with
    | some h => if known then s.checkKst b h f.ty (bk.headOf f.va.toNat) (bk.headOf f.vc.toNat) rows else none
    | none => none
  s.issueE m (!bk.maskBusy f.msel.toNat) (srcABC f) [] bad (fun k _ s =>
    (s.startOp m 32 (.vkst (fld f.sub 0 5) head f.ty (k.headOf f.va.toNat) (k.headOf f.vb.toNat) (k.headOf f.vc.toNat) rows) []).occupy nt)

/-- The row writes in ascending order, at home, and the appends that follow each row's. -/
def State.storeRows (s : State) (b op : Nat) (h : HeadSlot) (k v : Elem) (i : Elem) : List Nat → State × Option Stop
  | [] => (s, none)
  | row :: t =>
    let r := h.record
    let rb := hdRow r
    let tok := elemAt i 32 row
    let ka := (hdKbase r + tok * hdStride r) % 2 ^ 64
    let va := (hdVbase r + tok * hdStride r) % 2 ^ 64
    match s.engWrite b ka rb (fld k (8 * rb * row) (8 * rb)) false true with
    | (s, some x) => (s, some x)
    | (s, none) =>
      match s.engWrite b va rb (fld v (8 * rb * row) (8 * rb)) false true with
      | (s, some x) => (s, some x)
      | (s, none) =>
        let x := rowElems r k row
        let new := (List.range 4).map (fun tb => (⟨b, op, r, tb, signature h.proj (hdType r) x tb, tok⟩ : Append))
        let s := s.modCluster (bankCluster b) (fun c => { c with appends := c.appends ++ new })
        State.storeRows s b op h k v i t

/-- VKST accepted: its slot, identifiers and addresses are checked before anything is written (R307). -/
def State.performVkst (s : State) (b op slot : Nat) (head : Option HeadSlot) (ty : EType) (k v i : Elem) (rows : List Nat) : State × Done :=
  match head, head.bind (fun h => h.rowsOf ty i rows) with
  | none, _ | _, none => (s, .stop (.fault 0x0B (BitVec.ofNat 64 slot)))
  | some h, some rows =>
    match s.probeAll b false (placeBlocks (h.places k i rows)) with
    | (s, some x) => (s, .stop x)
    | (s, none) =>
      match s.storeRows b op h k v i rows with
      | (s, some x) => (s, .stop x)
      | (s, none) => (s, if rows.isEmpty then .ok [] else .more .vkstWait s.cycle)

/-! Appends (R305, R306). -/

/-- The record at an address as the bank ALU of its home reads it (R337): none when it is not in the job's reach, and whether it can be
used: a demoted frame or a bad line cannot. -/
def State.homeRecord (s : State) (b ea : Nat) : State × Option (Nat × Nat × Bool) :=
  match s.locTgt b (.ea ea) 64 true false with
  | (s, .mem pa _ _) =>
    if hostBase ≤ pa then (s, some (pa, s.hostMem.load (pa - hostBase) 64, true)) else
    let (d, v, bad) := (s.die (paDie pa)).aluRead (paOff pa) 64
    (s.setDie (paDie pa) d, some (pa, v, bad))
  | (s, _) => (s, none)

/-- n bytes written by the bank ALU of a home (R337, R343). The clean bytes of the line in the L1 of the core whose operation it is, and the
copies of a remote line that its die holds, are dropped, so that its own later reads find them (R356). -/
def State.homePut (s : State) (b pa n data : Nat) : State :=
  let s := s.modCore (bankCore b) (fun c => c.l1Map (fun l =>
    if l.line = pa / 64 then l.dropClean (BitVec.ofNat 64 (ones 64)) else l))
  if hostBase ≤ pa then { s with hostMem := s.hostMem.write (pa - hostBase) n data false } else
  let s := if paDie pa = bankDie b then s else s.modDie (bankDie b) (fun d => d.dropCopies (pa / 256))
  s.modDie (paDie pa) (fun d => (d.noteWrite (paOff pa / 256) (ones n <<< (paOff pa % 256))).write (paOff pa) n data false)

/-- The overflow pool: the block array, LIMIT and NEXTB with its place, when its header can be used. -/
def State.poolOf (s : State) (b : Nat) (r : Rec) : State × Option (Nat × Nat × Nat × Nat) :=
  match s.homeRecord b (hdOvp r) with
  | (s, some (pa, v, false)) => (s, some (v % 2 ^ 64, v / 2 ^ 64 % 2 ^ 32, v / 2 ^ 96 % 2 ^ 32, pa + 12))
  | (s, _) => (s, none)

/-- A block index that says "linked": not 0 and below LIMIT. -/
def linked (limit i : Nat) : Bool := i != 0 && decide (i < limit)

/-- The address of block number n of a bucket's chain, from the block whose index is i. -/
def State.chainAt (s : State) (b array limit : Nat) (i : Nat) : Nat → State × Option (Nat × Nat)
  | 0 =>
    if !linked limit i then (s, none) else
    match s.homeRecord b ((array + 64 * i) % 2 ^ 64) with
    | (s, some (pa, v, false)) => (s, some (pa, v))
    | (s, _) => (s, none)
  | n + 1 =>
    if !linked limit i then (s, none) else
    match s.homeRecord b ((array + 64 * i) % 2 ^ 64) with
    | (s, some (_, v, false)) => State.chainAt s b array limit (v / 2 ^ 480 % 2 ^ 32) n
    | (s, _) => (s, none)

/-- A token stored beyond the bucket's own 14 slots: the state, whether the bucket overflows, and the bucket's new DEPTH and
NEXT (R306). -/
def State.appendBlock (s : State) (b : Nat) (r : Rec) (bucket c tok : Nat) : State × Bool × Nat × Nat :=
  let depth := bucket / 2 ^ 24 % 8
  let next := bucket / 2 ^ 480 % 2 ^ 32
  let i := c - 14
  let blk := i / 15
  if 4 ≤ blk ∨ 4 < depth then (s, true, depth, next) else
  match s.poolOf b r with
  | (s, none) => (s, true, depth, next)
  | (s, some (array, limit, nextb, nextPa)) =>
    if i % 15 = 0 then
      if limit ≤ nextb then (s, true, depth, next) else
      let s := s.homePut b nextPa 4 (nextb + 1)
      match s.homeRecord b ((array + 64 * nextb) % 2 ^ 64) with
      | (s, some (pa, _, false)) =>
        if blk = 0 then (s.homePut b (pa + 4 * 0) 4 tok, false, 1, nextb)
        else
          match s.chainAt b array limit next (blk - 1) with
          | (s, none) => (s, true, depth, next)
          | (s, some (prev, _)) =>
            let s := s.homePut b (prev + 60) 4 nextb
            (s.homePut b pa 4 tok, false, blk + 1, next)
      | (s, _) => (s, true, depth, next)
    else
      match s.chainAt b array limit next blk with
      | (s, none) => (s, true, depth, next)
      | (s, some (pa, _)) => (s.homePut b (pa + 4 * (i % 15)) 4 tok, false, depth, next)

/-- The blocks that DEPTH or COUNT says are linked, each with an index that names one (R306). -/
def State.chainHolds (s : State) (b : Nat) (r : Rec) (bucket : Nat) : State × Bool :=
  let n := max (bucket / 2 ^ 24 % 8) ((bucket % 2 ^ 24 - 14 + 14) / 15)
  if n = 0 then (s, true) else
  match s.poolOf b r with
  | (s, none) => (s, false)
  | (s, some (array, limit, _, _)) =>
    match s.chainAt b array limit (bucket / 2 ^ 480 % 2 ^ 32) (min n 4 - 1) with
    | (s, x) => (s, x.isSome)

/-- Append(T, h, t) (R306): it never faults. COUNT is written last, with OVF when the token could not be stored. -/
def State.append (s : State) (a : Append) : State :=
  match s.homeRecord a.bank (bucketAddr a.record a.table a.bucket) with
  | (s, none) => s
  | (s, some (pa, v, bad)) =>
    let c := v % 2 ^ 24
    let ovf := v / 2 ^ 31 % 2 = 1
    let put := fun (s : State) (ovf : Bool) (depth : Nat) =>
      s.homePut a.bank pa 4 (min (c + 1) 0xFFFFFF + depth * 2 ^ 24 + (if ovf then 2 ^ 31 else 0))
    let depth := v / 2 ^ 24 % 8
    if ovf then put s true depth
    else if bad ∨ 4 < depth then put s true depth
    else
    match s.chainHolds a.bank a.record v with
    | (s, false) => put s true depth
    | (s, true) =>
    if c < 14 then put (s.homePut a.bank (pa + 4 + 4 * c) 4 a.token) false depth
    else
      match s.appendBlock a.bank a.record v c a.token with
      | (s, ovf, depth', next') => put (s.homePut a.bank (pa + 60) 4 next') ovf depth'

/-- The VKST of an append completes with its last append (R309). -/
def State.appendDone (s : State) (a : Append) : State :=
  if (s.cluster (bankCluster a.bank)).appends.any (fun x => x.bank == a.bank && x.op == a.op) then s else
  match (s.bank a.bank).ops.find? (fun o => o.id == a.op) with
  | some o => if o.todo = .vkstWait then s.finishOp a.bank o else s
  | none => s

/-- CIRRUS_APPEND: the k-th waiting append of a cluster is performed whole. An append whose VKST is not yet past its writes
waits for no one: its row is home. -/
def execCirrusAppend (cl k : Nat) (s : State) : Out :=
  .next (match (s.cluster cl).appends[k]? with
    | none => s
    | some a =>
      let s := s.modCluster cl (fun c => { c with appends := c.appends.eraseIdx k })
      (s.append a).appendDone a)

/-! CKCFG (R310). -/

/-- CKCFG.ld. -/
def execCkcfgLd (m : Marks) (k : BitVec 5) (addr : BitVec 13) (s : State) : Out :=
  s.issueC m [] [] [] [s.recordFault addr 832] (fun _ s => s.startOp m 16 (.ckcfgLd k.toNat (64 * addr.toNat)) [])

/-- CKCFG.clr. -/
def execCkcfgClr (m : Marks) (k : BitVec 5) (s : State) : Out :=
  s.issueC m [] [] [] [] (fun _ s => s.startOp m 4 (.ckcfgClr k.toNat) [])

/-- The slot is installed with the job's launch, unless it is valid and another launch's (R302). -/
def State.performCfgLd (s : State) (b k addr : Nat) : State × Done :=
  match s.engRead b addr 832 true with
  | (s, _, some x) => (s, .stop x)
  | (s, v, none) =>
    let r : Rec := BitVec.ofNat 512 v
    let other := match (s.cluster (bankCluster b)).heads.find? k with
      | some h => h.seq != (s.bank b).seq
      | none => false
    if hdBad r || other then (s, .stop (.fault 0x0B (BitVec.ofNat 64 k)))
    else (s.modCluster (bankCluster b) (fun c => { c with heads := c.heads.set k ⟨r, BitVec.ofNat 6144 (v / 2 ^ 512), (s.bank b).seq⟩ }), .ok [])

def State.performCfgClr (s : State) (b k : Nat) : State × Done :=
  match s.headSlot b k with
  | none => (s, .stop (.fault 0x0B (BitVec.ofNat 64 k)))
  | some _ => (s.modCluster (bankCluster b) (fun c => { c with heads := c.heads.erase k }), .ok [])

/-! CKGATH (R311, R312). -/

/-- CKGATH: vK and vV have the copy stream as producer from issue to completion. -/
def execCkgath (m : Marks) (gP : BitVec 4) (q vV vK k : BitVec 5) (a : Bool) (s : State) : Out :=
  let bk := s.bank s.focus.bank
  let p := bk.mapReg gP.toNat
  let bad := decide (mapRank p < 2) || decide (mapPos p 1 < 0) || q == vK || q == vV || vK == vV ||
    (bk.queue vK.toNat).prod != .none || (bk.queue vV.toNat).prod != .none
  s.issueC m [gP] [] [(q.toNat, false)] [s.mapCheck gP, mapBad bad gP] (fun bk s =>
    let pos := BitVec.ofInt 64 (mapPos (bk.mapReg gP.toNat) 1)
    let s := s.startOp m 8 (.kgath k.toNat none (bk.headOf q.toNat) pos vK.toNat vV.toNat) [.unbindProd vK.toNat, .unbindProd vV.toNat]
    let s := s.advanceMaps bk (advs a gP)
    s.modBank s.focus.bank (fun k => (k.modQueue vK.toNat (fun x => { x with prod := .stream })).modQueue vV.toNat
      (fun x => { x with prod := .stream })))

/-- The identifiers of a chain of blocks, at most n. -/
def State.chainTokens (s : State) (b array limit i : Nat) (n : Nat) : Nat → State × List Nat × Option Stop
  | 0 => (s, [], none)
  | fuel + 1 =>
    if n = 0 ∨ !linked limit i then (s, [], none) else
    match s.locTgt b (.ea ((array + 64 * i) % 2 ^ 64)) 64 false false with
    | (s, t) =>
      match s.tgtStop b (.ea ((array + 64 * i) % 2 ^ 64)) false t, t with
      | some x, _ => (s, [], some x)
      | none, .mem pa _ _ =>
        let (s, v, bad) := s.homeLoad pa 64
        if bad then (s, [], some (.fault 0x16 (BitVec.ofNat 64 (array + 64 * i)))) else
        let here := unpackElems 32 (min n 15) v
        (match State.chainTokens s b array limit (v / 2 ^ 480 % 2 ^ 32) (n - 15) fuel with
         | (s, more, x) => (s, here ++ more, x))
      | none, _ => (s, [], none)

/-- Where the target of a read of a block lies. -/
def Tgt.block (g : Tgt) : BlockAt :=
  match g with
  | .mem pa _ _ => .mem pa
  | .sp c off => .sp c off
  | .shm c off => .shm c off
  | _ => .nowhere

/-- Where n bytes lie that do not leave a 64-byte block. -/
def State.blockAt (s : State) (b : Nat) (l : Loc) (n : Nat) : BlockAt := (s.locTgt b l n false false).2.block

/-- n bytes of a translated block read at home, and whether they are bad. -/
def State.blockRead (s : State) (g : BlockAt) (n : Nat) : State × Nat × Bool :=
  match g with
  | .mem pa => s.homeLoad pa n
  | .sp c off => (s, (s.core c).sp.load off n, (s.core c).sp.marked off n)
  | .shm c off => (s, (s.cluster c).shm.load off n, (s.cluster c).shm.marked off n)
  | .nowhere => (s, 0, false)

/-- n bytes at home for a virtual address (R311): a block at a time. -/
def State.homeBytes (s : State) (b : Nat) (acc : Nat) : List (Nat × Loc × Nat) → State × Nat × Option Stop
  | [] => (s, acc, none)
  | (so, l, n) :: t =>
    let (s, g) := s.locTgt b l n false false
    match s.tgtStop b l false g with
    | some x => (s, 0, some x)
    | none =>
      let (s, v, bad) := s.blockRead g.block n
      if bad then (s, 0, some (.fault 0x16 l.value)) else State.homeBytes s b (acc + v * 256 ^ so) t

/-- The bucket of one table and its chain: OVF, and the identifiers. -/
def State.bucketTokens (s : State) (b : Nat) (r : Rec) (table h : Nat) : State × Bool × List Nat × Option Stop :=
  match s.homeBytes b 0 [(0, .ea (bucketAddr r table h), 64)] with
  | (s, _, some x) => (s, false, [], some x)
  | (s, v, none) =>
    if v / 2 ^ 31 % 2 = 1 then (s, true, [], none) else
    let c := min (v % 2 ^ 24) 74
    let own := unpackElems 32 (min c 14) (v / 2 ^ 32)
    if c ≤ 14 then (s, false, own, none) else
    match s.homeBytes b 0 [(0, .ea (hdOvp r), 16)] with
    | (s, _, some x) => (s, false, [], some x)
    | (s, p, none) =>
      match s.chainTokens b (p % 2 ^ 64) (p / 2 ^ 64 % 2 ^ 32) (v / 2 ^ 480 % 2 ^ 32) (c - 14) 4 with
      | (s, more, x) => (s, false, own ++ more, x)

/-- The four buckets of a query. -/
def State.allTokens (s : State) (b : Nat) (h : HeadSlot) (x : List Nat) : List Nat → State × Bool × List Nat × Option Stop
  | [] => (s, false, [], none)
  | t :: ts =>
    match s.bucketTokens b h.record t (signature h.proj (hdType h.record) x t) with
    | (s, _, _, some y) => (s, false, [], some y)
    | (s, ovf, l, none) =>
      match State.allTokens s b h x ts with
      | (s, ovf', l', y) => (s, ovf || ovf', l ++ l', y)

/-- Page lookups of the candidates' rows, for reading. -/
def State.rowPages (s : State) (b : Nat) : List (Nat × Loc × Nat) → State × Option Stop
  | [] => (s, none)
  | (_, l, n) :: t =>
    let (s, g) := s.locTgt b l n false false
    match s.tgtStop b l false g with
    | some x => (s, some x)
    | none => State.rowPages s b t

/-- The candidates of a query at q among the identifiers read: without duplicates, in ascending order (R311). -/
def candidates (r : Rec) (q : Nat) (u : List Nat) : List Nat :=
  (u.filter (fun t => (!hdCaus r || decide (t ≤ q)) && (hdWin r == 0 || decide (q < t + hdWin r)))).foldl insertNat []

/-- The key row and the value row of a token, and a row as blocks. -/
def keyRow (r : Rec) (t : Nat) : Nat := (hdKbase r + t * hdStride r) % 2 ^ 64
def valueRow (r : Rec) (t : Nat) : Nat := (hdVbase r + t * hdStride r) % 2 ^ 64
def rowPieces (r : Rec) (a : Nat) : List (Nat × Loc × Nat) := cut64 0 (.ea a) (hdRow r) 6

/-- Step 1 of R311, and the pushes of step 2 queued. The slot is taken whole as the command's turn first comes (DESIGN CHOICE, log 65),
and kept while step 1 starts again. -/
def State.performKgath (s : State) (b k : Nat) (head : Option HeadSlot) (query : Elem) (q : W64) (vK vV : Nat) : State × Done :=
  match head.or (s.headSlot b k) with
  | none => (s, .stop (.fault 0x0B (BitVec.ofNat 64 k)))
  | some h =>
    let r := h.record
    let again := fun (x : Stop) => Done.held (.kgath k (some h) query q vK vV) x
    let q := q.toNat % 2 ^ 32
    match s.allTokens b h (rowElems r query 0) [0, 1, 2, 3] with
    | (s, _, _, some x) => (s, again x)
    | (s, ovf, u, none) =>
      let c := candidates r q u
      let n := c.length
      let reason := if ovf then 3 else if hdCap r < n then 1 else if n < hdMinc r then 2 else 0
      match s.rowPages b (c.flatMap (fun t => rowPieces r (keyRow r t) ++ rowPieces r (valueRow r t))) with
      | (s, some x) => (s, again x)
      | (s, none) =>
        let head : Elem := BitVec.ofNat 2048 (packElems 32 [if reason = 0 then n else 0, reason, q, k])
        let ids := (chunks 64 (n / 64 + 1) c).map (fun l =>
          (⟨vK, BitVec.ofNat 2048 (packElems 32 (l ++ List.replicate (64 - l.length) 0xFFFFFFFF)), none, []⟩ : PushItem))
        let row := fun (v a : Nat) => (⟨v, 0, some a, (rowPieces r a).map (fun x => (x.1, s.blockAt b x.2.1 x.2.2, x.2.2))⟩ : PushItem)
        let rows := c.flatMap (fun t => [row vK (keyRow r t), row vV (valueRow r t)])
        let first : PushItem := ⟨vK, head, none, []⟩
        if reason = 0 then (s, .more (.pushes (first :: (ids ++ rows))) s.cycle)
        else
          let tval := q + k * 2 ^ 32 + reason * 2 ^ 37 + n * 2 ^ 39
          (s, .more (.pushesThen [first] (BitVec.ofNat 64 tval)) s.cycle)

/-- Whether a queue has room for a push made after issue (R175). -/
def Bank.hasRoom (k : Bank) (cyc q : Nat) : Bool := decide ((k.queue q).occupied cyc < (k.queue q).depth)

/-- The parts of a row read at home. A marked one faults with cause 0x16, the only fault of step 2 (R311). -/
def State.readParts (s : State) (a acc : Nat) : List (Nat × BlockAt × Nat) → State × Nat × Option Stop
  | [] => (s, acc, none)
  | (so, g, n) :: t =>
    match s.blockRead g n with
    | (s, _, true) => (s, 0, some (.fault 0x16 (BitVec.ofNat 64 (a + so))))
    | (s, v, false) => State.readParts s a (acc + v * 256 ^ so) t

/-- The pushes of an operation, in order, while their queues have room; a row is read at home as its turn comes. -/
def State.runPushes (s : State) (b : Nat) : List PushItem → State × List PushItem × Option Stop
  | [] => (s, [], none)
  | x :: t =>
    if !(s.bank b).hasRoom s.cycle x.q then (s, x :: t, none) else
    let (s, e, stop) := match x.addr with
      | none => (s, x.elem, none)
      | some a =>
        (match s.readParts a 0 x.parts with
         | (s, v, y) => (s, BitVec.ofNat 2048 v, y))
    match stop with
    | some y => (s, x :: t, some y)
    | none =>
      let (id, s) := s.newId
      State.runPushes (s.modBank b (fun k => k.modQueue x.q (fun z => z.append id e))) b t

/-- The same as an operation's work: pushes made stand, and the fallback of R312 follows the last one. -/
def State.performPushes (s : State) (b : Nat) (items : List PushItem) (fallback : Option W64) : State × Done :=
  let left := fun rest => match fallback with | some v => Work.pushesThen rest v | none => Work.pushes rest
  match s.runPushes b items with
  | (s, rest, some x) => (s, .held (left rest) x)
  | (s, [], none) => (s, .ok (match fallback with | some v => [.fallback v] | none => []))
  | (s, rest, none) => (s, .more (left rest) (s.cycle + 1))

end Sys2Proof.Machine
end

