-- ==== Sys2Proof/Machine/CopyFabric.lean ====
section
/-! DEFINITION. C words on the fabric: halo exchange (R407 to R410) and message packets (R453). -/

namespace Sys2Proof.Machine

/-! Halo geometry (R408). -/

/-- A die's coordinate on torus axis a. -/
def dieCoord (d a : Nat) : Nat := match a with | 0 => dieX d | 1 => dieY d | _ => dieZ d

/-- The die with one coordinate replaced. -/
def moveDie (d a c : Nat) : Nat :=
  match a with
  | 0 => dieAt c (dieY d) (dieZ d)
  | 1 => dieAt (dieX d) c (dieZ d)
  | _ => dieAt (dieX d) (dieY d) c

/-- Bytes of face f of a box, and its buffer size FB(f). -/
def faceBytes (r : Rec) (x : Desc) (f : Nat) : Nat :=
  boxCount r / mapBox r (f / 2 + 1) * ldHal x (f / 2) * (mapType r).esize
def faceBuf (r : Rec) (x : Desc) (f : Nat) : Nat := ceilDiv (faceBytes r x f) 256 * 256
def faceSum (r : Rec) (x : Desc) (n : Nat) : Nat := (List.range n).foldl (fun a f => a + faceBuf r x f) 0

/-- The sub-box of face f. -/
def faceMap (r : Rec) (x : Desc) (f : Nat) : Rec :=
  let d := f / 2 + 1
  let hw := ldHal x (f / 2)
  let off := if f % 2 = 0 then 0 else mapBox r d - hw
  putFld (setPos r d (mapPos r d + (off : Int))) (312 + 12 * d) 12 (hw - 1)

/-- The address of buffer (side, p). -/
def haloBuf (b : Rec) (r : Rec) (x : Desc) (side p : Nat) : Nat := mapBase b + p * faceSum r x 6 + faceSum r x side

/-- The neighbour in the direction of face f, when there is one. -/
def haloNeighbour (die : Nat) (x : Desc) (f : Nat) : Option Nat :=
  let a := ldAx x (f / 2)
  let n := ldN x a
  let c := dieCoord die a - ldOrg x a
  let wrapOn := ldWrap x (f / 2)
  if f % 2 = 0 then
    (if 0 < c then some (moveDie die a (ldOrg x a + c - 1)) else if wrapOn then some (moveDie die a (ldOrg x a + n - 1)) else none)
  else
    (if c + 1 < n then some (moveDie die a (ldOrg x a + c + 1)) else if wrapOn then some (moveDie die a (ldOrg x a)) else none)

/-- Face f is skipped: its axis does not wrap and its extent is at most the dilation (R409, R411). -/
def haloSkip (x : Desc) (f dil : Nat) : Bool := !ldWrap x (f / 2) && decide (ldExt x (f / 2 + 1) ≤ dil)

/-- The faces of a mask, ascending. -/
def maskFaces (mask : Nat) : List Nat := (List.range 6).filter (fun f => mask.testBit f)

/-- The first of n bytes at a that lies neither in the job's scratchpad range nor, when that is allowed, in cluster shared memory. -/
def Bank.outLocal (k : Bank) (shared : Bool) (a n : Nat) : Option Nat :=
  if k.inRange a n then none
  else if shared && (outShared a n).isNone then none
  else if k.inRange a 1 then k.job.map (fun j => j.spBase + j.spSize)
  else if shared then outShared a n
  else some a

/-- The first in-bounds byte of the runs that lies there (R409, R453). -/
def State.outLocal (s : State) (b : Nat) (shared : Bool) (runs : List (Nat × Loc × Nat)) : Option Nat :=
  runs.findSome? (fun x => match x.2.1 with
    | .ea a => if x.2.2 = 0 then none else (s.bank b).outLocal shared a x.2.2
    | .die .. => none)

/-- The checks of CHALO (R409). -/
def State.haloChecks (s : State) (gA gB : BitVec 4) (mask : BitVec 6) : List (Option (Nat × W64)) :=
  let b := s.focus.bank
  let k := s.bank b
  let r := k.mapReg gA.toNat
  let h := k.mapReg gB.toNat
  [mapBad (!mapValid r) gA, mapBad (!mapValid h) gB] ++
  match s.layoutOf b with
  | none => [some (0x12, 1)]
  | some x =>
    let sum := faceSum r x 6
    let shapeA := mapRank r != 4 || mapLayc r || mapZc r || mapPgm r ||
      (maskFaces mask.toNat).any (fun f => decide (mapBox r (f / 2 + 1) < ldHal x (f / 2)))
    let shapeB := mapRank h != 1 || mapType h != .n8 || decide (mapExt h 0 < 2 * sum)
    [if some (mapType r) = ldType x then none else some (0x12, 6),
     if (k.cw (cwDOM + 1)).getLsbD 63 then none else some (0x12, 7),
     mapBad shapeA gA, mapBad shapeB gB, mapBad (boxFaults r) gA,
     ((s.outLocal b true (boxRuns r none)).or (s.outLocal b true [(0, .ea (mapBase h), 2 * sum)])).map (fun a => (0x05, BitVec.ofNat 64 a))]

/-- Two CHALOs with equal box sizes and equal gB maps (R408). -/
def haloSame (a a' b b' : Rec) : Bool := (List.range 4).all (fun d => mapBox a d == mapBox a' d) && b == b'

/-- The bytes of a received face's buffer, as the receiver's own maps lay it out, that lie beyond the face are undefined when the sender's
maps are others (R408, R9). -/
def State.haloSpoil (s : State) (b : Nat) (box buf : Rec) (g : HaloGot) : State :=
  match s.layoutOf b with
  | none => s
  | some x =>
    let lo := haloBuf buf box x g.side g.par
    let hi := lo + faceBuf box x g.side
    if haloSame box g.box buf g.buf || (s.outLocal b true [(0, .ea lo, hi - lo)]).isSome then s else
    let put := fun (s : State) (a z : Nat) =>
      if z ≤ a then s else (s.engWrite b a (z - a) (s.freeWord (8 * (z - a)) 0).toNat true false).1.spend
    put (put s lo (min hi (max lo g.addr))) (max lo (g.addr + g.len)) hi

/-- The maps of CHALO number n of a job, as far as it has issued. -/
def HaloLog.mapsOf (h : HaloLog) (n : Nat) : Option (Rec × Rec) :=
  if h.count ≤ n then none else ((h.maps.filter (fun x => decide (x.1 ≤ n))).getLast?).map (fun x => x.2)

/-- One more CHALO. -/
def HaloLog.add (h : HaloLog) (box buf : Rec) : HaloLog :=
  { count := h.count + 1,
    maps := if h.maps.getLast?.map (fun x => x.2) == some (box, buf) then h.maps else h.maps ++ [(h.count, box, buf)],
    got := h.got.filter (fun g => g.num != h.count) }

/-- A face has been received. Its CHALO is compared with the receiver's of the same number (DEDUCED, log 68): now, or when that one
issues. -/
def State.haloMatch (s : State) (b : Nat) (g : HaloGot) : State :=
  match (s.bank b).halo.mapsOf g.num with
  | some (box, buf) => s.haloSpoil b box buf g
  | none => s.modBank b (fun k => { k with halo := { k.halo with got := k.halo.got ++ [g] } })

/-- CHALO: the parities of its faces and the skip bits of its axes are settled at issue. -/
def execChalo (m : Marks) (gA gB : BitVec 4) (mask f : BitVec 6) (dil : BitVec 8) (s : State) : Out :=
  s.issueC m [gA, gB] [] [] (s.haloChecks gA gB mask) (fun k s =>
    let b := s.focus.bank
    let w := k.cw cwHSTAT
    let fs := maskFaces mask.toNat
    let axes := fs.map (fun f => f / 2)
    let skipped := match s.layoutOf b with
      | some x => (fs.filter (fun f => haloSkip x f (dil.toNat + 1))).map (fun f => f / 2)
      | none => []
    let skip := (List.range 3).foldl (fun v a =>
      if skipped.contains a then v + 2 ^ a else if axes.contains a then v else v + 2 ^ a * fld w (6 + a) 1) 0
    let box := k.mapReg gA.toNat
    let buf := k.mapReg gB.toNat
    let s := s.startOp m 8 (.halo box buf mask.toNat f.toNat (dil.toNat + 1) (fld w 0 6) k.halo.count) []
    let s := s.modBank b (fun k =>
      { (k.putCw cwHSTAT 0 6 (fld w 0 6 ^^^ mask.toNat)).putCw cwHSTAT 6 3 skip with halo := k.halo.add box buf })
    (k.halo.got.filter (fun g => g.num == k.halo.count)).foldl (fun (s : State) g => s.haloSpoil b box buf g) s)

/-- A job's index within its die (R376). -/
def Launch.dieIdx (l : Launch) (jidx : Nat) : Nat := if lrCld l.record = 0 then 0 else jidx % lrB l.record

/-- The bank that a launch gave to the job of a die with a DOM.DIE.IDX. -/
def State.memberBank (s : State) (seq die member : Nat) : Nat :=
  match s.launchOf seq with
  | some l => ((l.jobs.find? (fun p => bankDie p.bank == die && l.dieIdx p.jidx == member)).map (fun p => p.bank)).getD (bankOf die 0 0)
  | none => bankOf die 0 0

/-- The bytes of a face leave for a bank of die d in n bulk writes of at most 4,096 bytes (R440): their numbers, and their places in the
face. -/
def State.sendFace (s : State) (b d bank addr : Nat) (bytes : List Byte) : Nat → State × List (Nat × Nat)
  | 0 => (s, [])
  | n + 1 =>
    let (s, ps) := State.sendFace s b d bank addr bytes n
    let num := (s.die (bankDie b)).pktNext.get 0 d % 4096
    (s.offer (bankDie b) d 9 (addr + 4096 * n) 0 ((bytes.drop (4096 * n)).take 4096) bank b (s.bank b).seq none 0, ps ++ [(num, 4096 * n)])

/-- The faces in ascending order: skipped, filled with zero at home, or sent. The count is of faces sent. -/
def State.haloFaces (s : State) (b op : Nat) (r h : Rec) (x : Desc) (flag dil par num : Nat) (sent : Nat) : List Nat → State × Nat × Option Stop
  | [] => (s, sent, none)
  | f :: t =>
    let p := if par.testBit f then 1 else 0
    if haloSkip x f dil then
      State.haloFaces (s.modBank b (fun k => k.agentInc s.cycle flag)) b op r h x flag dil par num sent t
    else
      match haloNeighbour (bankDie b) x f with
      | none =>
        match s.engWrite b (haloBuf h r x f p) (faceBuf r x f) 0 true false with
        | (s, some y) => (s, sent, some y)
        | (s, none) => State.haloFaces (s.modBank b (fun k => k.agentInc s.cycle flag)) b op r h x flag dil par num sent t
      | some d =>
        match (if ldHal x (f / 2) = 0 then (s, 0, none) else s.boxRead b (faceMap r x f) none) with
        | (s, _, some y) => (s, sent, some y)
        | (s, v, none) =>
          let seq := (s.bank b).seq
          let member := fld ((s.bank b).cw (cwDOM + 1)) 0 20
          let len := faceBytes r x f
          let addr := haloBuf h r x (f ^^^ 1) p
          let (s, parts) := s.sendFace b d (s.memberBank seq d member) addr (leBytes len v) (max 1 (ceilDiv len 4096))
          let face : HaloFace :=
            { srcBank := b, op := op, seq := seq, die := d, member := member, face := f, addr := addr, len := len, parts := parts,
              fate := .good, flag := flag, room := faceBuf r x f, num := num, par := p, box := r, buf := h }
          State.haloFaces { s with faces := s.faces ++ [face] } b op r h x flag dil par num (sent + 1) t

/-- CHALO performed; it waits for the faces it sent. -/
def State.performHalo (s : State) (b op : Nat) (r h : Rec) (mask flag dil par num : Nat) (lay : Option Desc) : State × Done :=
  match lay with
  | none => (s, .stop (.fault 0x12 1))
  | some x =>
    match s.haloFaces b op r h x flag dil par num 0 (maskFaces mask) with
    | (s, _, some y) => (s, .stop y)
    | (s, 0, none) => (s, .ok [])
    | (s, n, none) => (s, .more (.haloWait n none) s.cycle)

/-! CMSG (R453). -/

/-- CMSG: the box of gA in the job's scratchpad range, of 1 to 4,096 bytes. Its packet takes its place among the bank's at issue (R454). -/
def execCmsg (m : Marks) (gA : BitVec 4) (die : BitVec 14) (core : BitVec 6) (bank : Bool) (port : BitVec 3) (s : State) : Out :=
  let b := s.focus.bank
  let r := (s.bank b).mapReg gA.toNat
  let shape := mapLayc r || mapZc r || mapPgm r || decide ((mapType r).width < 8) || decide (4096 < boxBytes r)
  let key := ((die.toNat * 64 + core.toNat) * 2 + (if bank then 1 else 0)) * 8 + port.toNat
  s.issueC m [gA] [] []
    [mapBad (!mapValid r) gA, (s.outLocal b false (boxRuns r none)).map (fun a => (0x05, BitVec.ofNat 64 a)),
     mapBad shape gA, s.boundsCheck gA,
     if s.diePresent (bankDie b) die.toNat then none else some (0x05, die.setWidth 64)]
    (fun k s =>
      let (num, s) := s.formMessage b key (boxBytes r)
      s.startOp m 8 (.msg (k.mapReg gA.toNat) key num) [])

/-- The packet sent; the operation waits for its acknowledgement, which names its destination die and number. -/
def State.performMsg (s : State) (b : Nat) (r : Rec) (key num : Nat) : State × Done :=
  match s.boxRead b r none with
  | (s, _, some x) => (s, .stop x)
  | (s, v, none) =>
    let dst := key / 2 ^ 10
    ({ s with pkts := s.pkts.map (fun p =>
        if p.formedBy b dst num then { p with data := leBytes (boxBytes r) v, stage := .source } else p) },
     .more (.msgWait (dst * 4096 + num)) s.cycle)

end Sys2Proof.Machine
end

