-- ==== Sys2Proof/Machine/Complete.lean ====
section
/-! DEFINITION. What an operation in flight comes to when its accesses are performed (R18, R23, R98, R272). -/

namespace Sys2Proof.Machine

/-- The operation replaced by what it has still to do. -/
def State.replaceOp (s : State) (b : Nat) (o : Op) : State :=
  s.modBank b (fun k => { k with ops := k.ops.map (fun x => if x.id = o.id then o else x) })

/-- The side of a queue that a bound stream holds. -/
def Op.unbinds (o : Op) : List Eff :=
  match o.todo with
  | .bind _ q .. => [.unbindProd q]
  | .sink _ q .. => [.unbindCons q]
  | _ => []

/-- The packet that a CMSG was forming is gone with it. -/
def State.dropFormed (s : State) (b : Nat) (o : Op) : State :=
  match o.todo with
  | .msg _ key num => { s with pkts := s.pkts.filter (fun p => !p.formedBy b (key / 2 ^ 10) num) }
  | _ => s

/-- The operation gone without its increment; its queue bindings are freed and what it wrote before its fault stands (log 24). -/
def State.failOp (s : State) (b : Nat) (o : Op) (effs : List Eff) : State :=
  let kept := fun (k : Bank) => (k.endEffs o).filter (fun e => match e with
    | .unbindCons _ => true
    | .unbindProd _ => true
    | _ => false)
  ((s.modBank b (fun k =>
    let k := (kept k ++ o.unbinds ++ effs).foldl (fun k e => k.applyEff e) k
    { k with ops := k.ops.filter (fun x => x.id != o.id) })).dropFormed b o).wakeFence b

/-- The operation waits for a page (R98, R394), or faults with no increment (R23). -/
def State.stopOp (s : State) (b : Nat) (o : Op) (x : Stop) : State :=
  match x with
  | .page va wr root => (s.replaceOp b { o with parked := true }).parkFor b o.id va wr root
  | .fault cause v => (s.failOp b o []).faultE b o.point cause v o.pos

/-- The outcome of performing operation o of bank b: it completes (R18); it waits for a page (R98, R394); it faults, with no
increment (R23); or it goes on. -/
def State.applyDone (s : State) (b : Nat) (o : Op) (d : Done) : State :=
  match d with
  | .ok effs => s.finishOp b { o with effs := o.effs ++ effs }
  | .fail effs cause v => (s.failOp b o effs).faultE b o.point cause v o.pos
  | .stop x => s.stopOp b o x
  | .held todo x => s.stopOp b { o with todo := todo } x
  | .more todo ready => s.replaceOp b { o with todo := todo, ready := ready, parked := false }

end Sys2Proof.Machine
end

