-- ==== Sys2Proof/Machine/Matrix.lean ====
section
/-! DEFINITION. The arithmetic of the matrix array (R264, R265, R289, R290), B-store slots (R263), planes and Select (R266,
R267), tiles (R274) and format-table entries (R278). -/

namespace Sys2Proof.Machine

/-! Format-table entries (R278). -/

def fmtA (e : W64) : Nat := fld e 0 4
def fmtB (e : W64) : Nat := fld e 4 4
def fmtGw (e : W64) : Nat := if e.getLsbD 8 then 128 else 32
def fmtZp (e : W64) : Bool := e.getLsbD 9
def fmtAmx (e : W64) : Bool := e.getLsbD 10
def fmtBmx (e : W64) : Bool := e.getLsbD 11
def fmtProf (e : W64) : Nat := fld e 12 3
def fmtPtab (e : W64) : Bool := e.getLsbD 15
/-- B is INT4 or INT3. -/
def fmtInt (e : W64) : Bool := fmtB e == 0xB || fmtB e == 0xC
def isFp8 (c : Nat) : Bool := c == 3 || c == 4

/-- An entry that MFMT accepts: 64 zero bits, or one that the table allows. -/
def fmtOk (e : W64) : Bool :=
  e == 0 ||
  (fld e 16 48 == 0 && (fmtA e == 2 || isFp8 (fmtA e)) && (fmtB e == 2 || isFp8 (fmtB e) || fmtInt e) &&
   (fmtInt e || fld e 8 2 == 0) && (!fmtAmx e || isFp8 (fmtA e)) && (!fmtBmx e || isFp8 (fmtB e)))

/-- The tile of B needs two slots (R264). -/
def fmtTwo (e : W64) : Bool := fmtB e == 2 || fmtBmx e

/-- A profile accepts a pairing (R53). -/
def profAccepts (pf : Nat) (e : W64) : Bool :=
  if pf = 3 then fmtA e == 2 || fmtB e == 2
  else decide (pf < 3) && isFp8 (fmtA e) && (isFp8 (fmtB e) || fmtInt e)

/-- Cycles between rows (R282). -/
def fmtPace (e : W64) : Nat := if fmtA e = 2 ∨ fmtB e = 2 then 4 else 1

/-- The format type of a code of the table. -/
def fmtType (c : Nat) : EType := (EType.fromNat c).getD .fp32

/-! What undefined arrays read as. -/

/-- Element i of an array that nothing has written. -/
def Fill.at (f : Fill) (w i : Nat) : BitVec w :=
  match f with
  | .zero => 0
  | .free seed => Config.free w (2 ^ 64 + seed * 2 ^ 32 + i)

/-! B-store slots. -/

/-- Bytes i to i + n - 1 of a slot, from its cells in rising order. -/
def slotFrom (f : Fill) : List Host.Cell → Nat → Nat → List Byte
  | _, _, 0 => []
  | [], i, n + 1 => f.at 8 i :: slotFrom f [] (i + 1) n
  | (a, v) :: t, i, n + 1 => if a = i then v :: slotFrom f t (i + 1) n else f.at 8 i :: slotFrom f ((a, v) :: t) (i + 1) n

def BSlot.bytes (x : BSlot) : List Byte := slotFrom x.fill x.data 0 65536

/-- n bytes written from offset lo; the words rewritten whole lose their errors and markers. -/
def BSlot.put (x : BSlot) (lo n data : Nat) : BSlot :=
  let new := ((leBytes n data).zipIdx).map (fun p => (lo + p.2, p.1))
  let kept := fun (w : Nat) => decide (8 * w < lo) || decide (lo + n < 8 * w + 8)
  { x with data := x.data.filter (fun c => decide (c.1 < lo)) ++ new ++ x.data.filter (fun c => decide (lo + n ≤ c.1)),
           soft := x.soft.filter (fun e => kept e.1), marks := x.marks.filter kept }

/-- The bank that owns a slot of a cluster, when it holds a job (R263): a half of a paired core, or a whole core. -/
def State.slotOwner (s : State) (cl slot : Nat) : Option Nat :=
  let c := 4 * cl + slot / 32
  let bs := [2 * c, 2 * c + 1]
  if bs.any (fun b => match (s.bank b).job with | some j => j.paired | none => false) then
    (if (s.bank (2 * c + slot % 32 / 16)).live then some (2 * c + slot % 32 / 16) else none)
  else bs.find? (fun b => (s.bank b).live)

/-! B tiles (R264, R265). -/

/-- The bytes of a plane's slots by number. -/
structure TileBytes where
  low : Bytes
  high : Bytes

def TileBytes.lo (t : TileBytes) (i : Nat) : Nat := (t.low.getD i 0).toNat
def TileBytes.hi (t : TileBytes) (i : Nat) : Nat := (t.high.getD i 0).toNat

def Plane.tileBytes (p : Plane) : TileBytes := ⟨p.slot0.bytes.toArray, p.slot1.bytes.toArray⟩

/-- Nibble i of the bytes from an offset (R39). -/
def nibbleAt (f : Nat → Nat) (base i : Nat) : Nat := f (base + i / 2) / 16 ^ (i % 2) % 16

/-- Element j of the 12-byte group from an offset (R39). -/
def tripleAt (f : Nat → Nat) (base j : Nat) : Nat :=
  let bit := 3 * j
  (f (base + bit / 8) + 256 * f (base + bit / 8 + 1)) / 2 ^ (bit % 8) % 8

/-- The zero point of weight group g of column n. -/
def zeroPoint (e : W64) (t : TileBytes) (g n : Nat) : Int := if fmtZp e then signed 4 (nibbleAt t.lo 0xE000 (256 * g + n)) else 0

/-- BVal (R289). -/
def bVal (e : W64) (t : TileBytes) (k n : Nat) : Val :=
  match fmtB e with
  | 2 =>
    let i := 2 * (256 * k + n)
    let byte := fun j => if j < 65536 then t.lo j else t.hi (j - 65536)
    EType.value .bf16 (byte i + 256 * byte (i + 1))
  | 0xB => Val.ofInt (signed 4 (nibbleAt t.lo 0 (256 * k + n)) - zeroPoint e t (k / fmtGw e) n)
  | 0xC => Val.ofInt (signed 3 (tripleAt t.lo (12 * (8 * k + n / 32)) (n % 32)) - zeroPoint e t (k / fmtGw e) n)
  | c =>
    if fmtBmx e then mxValue (fmtType c) (t.hi (256 * (k / 32) + n)) (t.lo (256 * k + n))
    else EType.value (fmtType c) (t.lo (256 * k + n))

/-- The scale of weight group g of column n, as an FP32 code (R265). -/
def weightScale (t : TileBytes) (g n : Nat) : Nat :=
  let i := 0xC000 + 2 * (256 * g + n)
  (t.lo i + 256 * t.lo (i + 1)) * 2 ^ 16

/-- AVal (R289): the elements of a row, with the row's block scales. -/
def aVals (e : W64) (row : Nat) (scales : W64) : List Val :=
  let t := fmtType (fmtA e)
  ((unpackElems t.width 256 row).zipIdx).map (fun p =>
    if fmtAmx e then mxValue t (fld scales (8 * (p.2 / 32)) 8) p.1 else EType.value t p.1)

/-! Accumulate (R290). -/

/-- Group sums of runs of g products added in order from a start. -/
def addGroups (g w : Nat) (start : Nat) (ps : List Val) : Nat :=
  (chunks g 256 ps).foldl (fun acc c => addF acc (groupSum c w)) start

/-- The products of one output element accumulated; `scale` gives the weight group's scale. -/
def accumulate (acc : Nat) (ps : List Val) (pf : Nat) (e : W64) (scale : Nat → Nat) : Nat :=
  let g := profileG pf
  let w := profileW pf
  if fmtInt e then
    let gw := fmtGw e
    ((chunks gw 256 ps).zipIdx).foldl (fun acc p => addF acc (mulF (addGroups (min g gw) w 0 p.1) (scale p.2))) acc
  else addGroups g w acc ps

/-- One output element: column c of a row. -/
def mmaElement (e : W64) (pf : Nat) (t : TileBytes) (a : List Val) (acc c : Nat) : Nat :=
  accumulate acc ((a.zipIdx).map (fun p => mmaProduct p.1 (bVal e t p.2 c))) pf e (fun g => weightScale t g c)

/-- One row: the accumulators' new values. -/
def mmaRow (e : W64) (pf : Nat) (t : TileBytes) (a : List Val) (accs : List (BitVec 32)) : List (BitVec 32) :=
  (accs.zipIdx).map (fun p => BitVec.ofNat 32 (mmaElement e pf t a p.1.toNat p.2))

/-! Tiles (R171, R274). -/

def Tile.empty : Tile := ⟨.zero, []⟩
def Tile.row (t : Tile) (r : Nat) : List (BitVec 32) :=
  match t.rows.find? r with
  | some l => l
  | none => (List.range 256).map (fun c => t.fill.at 32 (256 * r + c))

def zeroRow : List (BitVec 32) := List.replicate 256 0

def State.tile (s : State) (b t : Nat) : Tile := (s.core (bankCore b)).tiles.get Tile.empty t
/-- A row rewritten whole, with any error in it gone (R273). -/
def State.setTileRow (s : State) (b t r : Nat) (v : List (BitVec 32)) : State :=
  s.modCore (bankCore b) (fun c =>
    let x := c.tiles.get Tile.empty t
    { c with tiles := c.tiles.set t { x with rows := x.rows.set r v }, tileErr := c.tileErr.filter (fun e => e != (t, r)) })

/-- Rows r to r + n - 1 set to +0. -/
def State.zeroRows (s : State) (b t r : Nat) : Nat → State
  | 0 => s
  | n + 1 => (State.zeroRows s b t r n).setTileRow b t (r + n) zeroRow

/-- The job may name a tile: a half of them when it is paired (R171). -/
def State.ownsTile (s : State) (b t : Nat) : Bool :=
  match (s.bank b).job with
  | some j => !j.paired || t / 2 == b % 2
  | none => true

/-- Row r of the A-scale buffer (R277). -/
def Bank.scaleRow (k : Bank) (r : Nat) : W64 :=
  match k.ascale.find? r with
  | some v => v
  | none => k.ascaleFill.at 64 r

/-! Planes (R266, R267). -/

def State.modArray (s : State) (cl : Nat) (f : Array → Array) : State :=
  s.modCluster cl (fun c => { c with array := f c.array })

def Array.activePlane (a : Array) : Plane := if a.active then a.plane1 else a.plane0
def Array.idlePlane (a : Array) : Plane := if a.active then a.plane0 else a.plane1
def Array.setIdle (a : Array) (p : Plane) : Array := if a.active then { a with plane0 := p } else { a with plane1 := p }

/-- Load: the slot, or the pair, as it stands, over 256 cycles. -/
def Cluster.beginLoad (c : Cluster) (cyc slot : Nat) (pair : Bool) : Plane :=
  ⟨slot, pair, false, c.bstore.get BSlot.empty slot, if pair then c.bstore.get BSlot.empty (slot + 1) else BSlot.empty, some (cyc + 256)⟩

/-- The end of a plane's load (R266). -/
def Plane.loaded (p : Plane) : Plane := { p with valid := true, loading := none }

/-- A slot as a plane's load reads it: single-bit errors are corrected, and the array address of the first marked word of it is
given, when there is one (R349 to R351). -/
def State.scanSlot (s : State) (cl slot : Nat) : State × Option Nat :=
  let x := (s.cluster cl).bstore.get BSlot.empty slot
  if x.soft.isEmpty && x.marks.isEmpty then (s, none) else
  let bad := (x.soft.filter (fun e => e.2)).map (fun e => e.1)
  let marks := bad.foldl insertNat x.marks
  let s := s.modCluster cl (fun c => { c with bstore := c.bstore.set slot { x with soft := [], marks := marks } })
  let s := s.modDie (cl / 16) (fun d =>
    let v := (x.soft.filter (fun e => !e.2)).foldl (fun v _ => eccCorrected v) (d.reg 0x10020)
    d.setReg 0x10020 (bad.foldl (fun v w => eccUncorrectable v 3 (65536 * slot + 8 * w)) v))
  (s, marks.head?.map (fun w => 65536 * slot + 8 * w))

/-- The slot, or the pair, that a load is to read. -/
def State.scanSlots (s : State) (cl slot : Nat) (pair : Bool) : State × Option Nat :=
  let (s, a) := s.scanSlot cl slot
  if !pair then (s, a) else
  let (s, b) := s.scanSlot cl (slot + 1)
  (s, a.or b)

/-- What a look at Select comes to: it has ended, it has begun a load, it waits, or its load met an uncorrectable error (R272). -/
inductive Selected where
  | ends
  | loads
  | waits
  | error (addr : Nat)
  deriving DecidableEq, Repr

/-- One look at Select: whether it has ended, or the array after the step it can take. It is looked at again when a load
ends. -/
def State.select (s : State) (cl slot : Nat) (pair forMma : Bool) : State × Selected :=
  let c := s.cluster cl
  let a := c.array
  if c.planeCurrent a.activePlane slot pair then (s, .ends)
  else if a.idlePlane.loading.isSome then (s, .waits)
  else if c.planeCurrent a.idlePlane slot pair then
    (if forMma then s.modArray cl (fun a => { a with active := !a.active }) else s, .ends)
  else
    match s.scanSlots cl slot pair with
    | (s, some w) => (s, .error w)
    | (s, none) => (s.modArray cl (fun a => a.setIdle ((s.cluster cl).beginLoad s.cycle slot pair)), .loads)

/-! Leases (R268, R269). -/

/-- The bank waits for the array: its MLEASE is pending, or it holds a lease and an array command waits at issue. -/
def Bank.wantsArray (k : Bank) : Bool :=
  k.ops.any (fun o => o.todo == .mlease) || (k.leaseHeld && !k.stopped && k.freeze.isNone && (k.cw cwMSTAT).getLsbD 2)

def State.hasGrant (s : State) (b : Nat) : Bool :=
  (s.bank b).leaseHeld && (s.cluster (bankCluster b)).array.grant == some b

/-- Another bank of the cluster waits. -/
def State.othersWant (s : State) (b : Nat) : Bool :=
  (List.range 8).any (fun i => let x := 8 * bankCluster b + i; x != b && (s.bank x).wantsArray)

/-- An array command in flight. -/
def Work.arrayCmd : Work → Bool
  | .mma .. => true
  | .mbsel .. => true
  | _ => false

def Work.isMbsel : Work → Bool
  | .mbsel _ => true
  | _ => false

def Bank.arrayBusy (k : Bank) : Bool := k.ops.any (fun o => o.todo.arrayCmd)

end Sys2Proof.Machine
end

