-- ==== Sys2Proof/Machine/ScalarJob.lean ====
section
/-! DEFINITION. The S words of flags, queues, rings and the job (R110 to R117), the mailbox (R315 to R317), and PARK (R129). -/

namespace Sys2Proof.Machine

/-! PUSH and START (R111, R116). -/

/-- Words from a ring position on are not fetched before the accesses of S in flight have been performed (R355). -/
def Bank.holdFrom (k : Bank) (e : Engine) (pos : Nat) : Bank :=
  if k.unperformed then { k with heldFrom := k.heldFrom.set e.code.toNat pos } else k

/-- A word written at WP by PUSH; the engine fetches it from the next cycle (R26). -/
def State.pushWord (s : State) (b : Nat) (e : Engine) (v : W64) : State :=
  let w := (s.bank b).ring e
  let a := ringAddr w (ringWP w)
  let s := s.modCore (bankCore b) (fun c => { c with
    sp := c.sp.write a 8 v.toNat false, ringed := insertNat c.ringed (a / 8) })
  s.modBank b (fun k => { ((k.holdFrom e (k.heldFrom.get (ringWP w) e.code.toNat)).putCw (ringSel e) 16 16 ((ringWP w + 1) % (2 * ringN w))) with
    pushed := k.pushed.set e.code.toNat (s.cycle + 1) })

/-- PUSH (R111): it stalls on a full ring whose engine moves, and traps on a closed one, or on one whose engine has
nothing left to fetch (R26). DESIGN CHOICE (log 72): a closed ring comes before a poisoned operand, and that before 0x08. -/
def execPush (m : Marks) (e : Engine) (a : SReg) (s : State) : Out :=
  let b := s.focus.bank
  let k := s.bank b
  let w := k.ring e
  let stuck := ringFull w && ringRP w == ringWP w
  s.issueS m (ringClosed w || !ringFull w || stuck)
    (firstTrap [(if ringClosed w then some (illegal (.push m e a)) else none), s.poisonTrap b [a.toNat],
      trapIf stuck 0x08 (BitVec.ofNat 64 e.code.toNat)])
    (fun s => (s.pushWord b e (s.sVal b a.toNat)).doneS m)

/-- START (R116): it waits until the engine is idle. DESIGN CHOICE (log 72): a closed ring comes before a poisoned operand. -/
def execStart (m : Marks) (e : Engine) (a : SReg) (s : State) : Out :=
  let b := s.focus.bank
  let k := s.bank b
  let w := k.ring e
  let n2 := 2 * ringN w
  let x := s.sVal b a.toNat
  let rp := fld x 0 16 % n2
  let wp := fld x 16 16 % n2
  let idle := k.idleE e
  s.issueS m (ringClosed w || idle)
    (firstTrap [(if ringClosed w then some (illegal (.start m e a)) else none), s.poisonTrap b [a.toNat],
      trapIf (idle && decide (ringN w < (wp + n2 - rp) % n2)) 0x0B x])
    (fun s => (s.modBank b (fun k =>
      let k := (k.holdFrom e rp).setCw (ringSel e) (putFld (putFld (putFld w 0 16 rp) 16 16 wp) 32 16 rp)
      let points : List Point := match e with | .v => [.va, .ve] | .c => [.c] | .m => [.m]
      let k : Bank := { k with vaPos := (if e = Engine.v then rp else k.vaPos),
                               vaDyn := (if e = Engine.v then k.veDyn else k.vaDyn) }
      points.foldl (fun (k : Bank) p =>
        { k with nextIssue := k.nextIssue.set p.index (s.cycle + 1), ringBuf := SMap.erase k.ringBuf p.index }) k)).doneS m)

/-! WAITF, RDF, SIGF, PARK. -/

/-- WAITF (R112). -/
def execWaitf (m : Marks) (d a c : SReg) (peek : Bool) (s : State) : Out :=
  let b := s.focus.bank
  s.issueS m true (s.poisonTrap b [a.toNat, c.toNat]) (fun s =>
    let f := fld (s.sVal b a.toNat) 0 6
    let n := fld (s.sVal b c.toNat) 0 16
    let s := s.blockS m (.waitf d.toNat f n peek)
    (s.modBank b (fun k => k.putWaiter ⟨.s, f, 1, n, s.cycle, none, none⟩)).pollWaitf b)

/-- RDF (R113): the flag as step 1 of R20 left it in this cycle. -/
def execRdf (m : Marks) (d a : SReg) (s : State) : Out :=
  let b := s.focus.bank
  s.issueS m true (s.poisonTrap b [a.toNat]) (fun s =>
    s.resultS m d (BitVec.ofNat 64 ((s.bank b).flagSeen s.cycle (fld (s.sVal b a.toNat) 0 6))) false 2)

/-- A remote increment leaves (R22): to a bank of the own die at once, and to another die as a packet of kind 5 (R440). -/
def State.sendIncr (s : State) (i : RIncr) : State :=
  let d := bankDie i.src
  if bankDie i.bank = d then { s with incs := s.incs ++ [i] }
  else s.offer d (bankDie i.bank) 5 0 i.flag [] i.bank i.src (i.seq.getD 0) none 0

/-- SIGF (R114): a remote increment leaves for the flag of a bank of a die that is present (R22). -/
def execSigf (m : Marks) (a : SReg) (s : State) : Out :=
  let b := s.focus.bank
  let x := s.sVal b a.toNat
  let die := fld x 16 14
  s.issueS m true (firstTrap [s.poisonTrap b [a.toNat], trapIf (!s.diePresent (bankDie b) die) 0x05 x])
    (fun s =>
      let k := s.bank b
      let i : RIncr := ⟨bankOf die (fld x 8 6) (fld x 6 1), fld x 0 6, if k.sv then none else some k.seq, s.cycle, b⟩
      (s.sendIncr i).doneS m)

/-- PARK (R129): it consumes 1 and completes at once, or holds every stream of the bank until it can. -/
def execPark (m : Marks) (f : BitVec 6) (s : State) : Out :=
  let b := s.focus.bank
  s.issueS m true none (fun s =>
    let s := s.blockS m (.park f.toNat)
    (s.modBank b (fun k => k.putWaiter ⟨.s, f.toNat, 1, 1, s.cycle, none, none⟩)).pollPark b)

/-! RDQ (R115). -/

def execRdq (m : Marks) (d : SReg) (q : BitVec 5) (c : SReg) (pop : Bool) (s : State) : Out :=
  let b := s.focus.bank
  let k := s.bank b
  let empty := (k.queue q.toNat).slots.isEmpty && (k.queue q.toNat).prod == .none && !k.pushInFlight q.toNat
  s.issueS m true (firstTrap [s.poisonTrap b [c.toNat], trapIf empty 0x09 (BitVec.ofNat 64 q.toNat)])
    (fun s => (s.blockS m (.rdq d.toNat q.toNat (fld (s.sVal b c.toNat) 0 5) pop)).pollRdq b)

/-! RENDEZ and END (R29, R117). -/

/-- RENDEZ (R29, R117): the rings close and S waits at the rendezvous. -/
def execRendez (m : Marks) (s : State) : Out :=
  s.issueS m true none (fun s => (s.modBank s.focus.bank (fun k => k.closeRings)).blockS m (.rendez 0))

/-- END (R117): the job stops early, with s[a][31:0] as its exit code. -/
def execEndJob (m : Marks) (a : SReg) (s : State) : Out :=
  let b := s.focus.bank
  s.issueS m true (s.poisonTrap b [a.toNat]) (fun s => s.endJob m.signal (fld (s.sVal b a.toNat) 0 32))

/-! The mailbox (R316, R317). -/

/-- A word that completes some cycles after its issue: S issues its next word from the cycle after. -/
def State.doneAfter (s : State) (m : Marks) (n : Nat) : State :=
  s.modBank s.focus.bank (fun k =>
    let k := (k.advance none).signalDone (s.cycle + n) .s m.signal
    { k with nextIssue := k.nextIssue.set 0 (s.cycle + n + 1) })

/-- The bank keeps its place among the senders that stall (R316). -/
def State.joinStall (s : State) (b : Nat) : State :=
  s.modCluster (bankCluster b) (fun c => if c.mailWait.contains b then c else { c with mailWait := c.mailWait ++ [b] })

/-- MBOX (R316): 8 entries, stalled senders in the order in which they stalled (a word whose WAIT does not hold is none of them); it
completes 2 cycles after issue, and its entry becomes visible 4 cycles later (R317). -/
def execMbox (m : Marks) (a : SReg) (s : State) : Out :=
  let b := s.focus.bank
  let c := s.cluster (bankCluster b)
  let trap := s.poisonTrap b [a.toNat]
  let room := decide (c.mail.length < 8) && (match c.mailWait.head? with | some x => x == b | none => true)
  let s := if trap.isSome then s
    else if !s.passesS m then (if c.mailWait.contains b then s.dropStall b else s)
    else if room then s else s.joinStall b
  s.issueS m (trap.isSome || room) trap (fun s =>
    let e : MailEntry := ⟨BitVec.ofNat 56 (fld (s.sVal b a.toNat) 0 56), bankCore b % 4, b % 2, (s.bank b).seq, s.cycle + 6, false⟩
    ((s.dropStall b).modCluster (bankCluster b) (fun c => { c with mail := c.mail ++ [e] })).doneAfter m 2)

/-- The word MBRD returns for an entry (R317). -/
def MailEntry.word (e : MailEntry) : W64 :=
  BitVec.ofNat 64 (e.msg.toNat + e.core % 4 * 2 ^ 56 + e.bank % 2 * 2 ^ 58 + 2 ^ 63)

/-- A list without its first element that satisfies p. -/
def dropFirst {α : Type} (p : α → Bool) : List α → List α
  | [] => []
  | x :: t => if p x then t else x :: dropFirst p t

/-- A waiting MBRD looks for the oldest visible entry of its launch; mode 2 returns 0 when there is none. -/
def State.pollMbrd (s : State) (b : Nat) : State :=
  match (s.bank b).blocked with
  | some ⟨.mbrd d mode, _, _⟩ =>
    let mine : MailEntry → Bool := fun e => e.visible && e.seq == (s.bank b).seq
    match (s.cluster (bankCluster b)).mail.find? mine with
    | some e =>
      let s := if mode = 1 then s else
        s.modCluster (bankCluster b) (fun c => { c with mail := dropFirst mine c.mail })
      s.unblock b (some (d, e.word))
    | none => if mode = 2 then s.unblock b (some (d, 0)) else s
  | _ => s

/-- MBRD (R317): the master core's alone. -/
def execMbrd (m : Marks) (d : SReg) (mode : BitVec 2) (s : State) : Out :=
  let b := s.focus.bank
  s.issueS m true (if s.isMaster b then none else some (privilege (.mbrd m d mode)))
    (fun s => (s.blockS m (.mbrd d.toNat mode.toNat)).pollMbrd b)

end Sys2Proof.Machine
end

