-- ==== Sys2Proof/Machine/Sched.lean ====
section
/-! DEFINITION. The life of a launch after acceptance: issue (R380, R383), status (R379), retirement (R30), kill (R396) and
pre-emption requests (R386). -/

namespace Sys2Proof.Machine

/-! Launches in place. -/

def pkgOfSeq (seq : Nat) : Nat := seq / 2 ^ 21

def State.modLaunch (s : State) (seq : Nat) (f : Launch → Launch) : State :=
  s.modHub (pkgOfSeq seq) (fun h => { h with launches := h.launches.map (fun l => if l.seq = seq then f l else l) })

def Launch.modPlace (l : Launch) (j : Nat) (f : Place → Place) : Launch :=
  { l with jobs := l.jobs.map (fun p => if p.jidx = j then f p else p) }

/-- The lower nonzero code (R379). -/
def minCode (a b : Nat) : Nat := if a = 0 then b else if b = 0 then a else min a b

/-- A job that will issue nothing more. -/
def Place.over (p : Place) : Bool := p.phase == .retired || p.phase == .killed

/-- The launch ends, with a code: its status record is the next event (R379). -/
def State.endLaunch (s : State) (seq code : Nat) : State :=
  let s := { s with
    clusters := s.clusters.map (fun (p : Nat × Cluster) => (p.1, { p.2 with collDone := p.2.collDone.filter (fun d => d.1 != seq) })),
    dies := s.dies.map (fun (p : Nat × Die) => (p.1, { p.2 with rasmKept := p.2.rasmKept.filter (fun e => e.seq != seq) })) }
  let s := s.modLaunch seq (fun l => { l with phase := .ended, code := minCode l.code code })
  { s with agenda := .event (.launchEnd (pkgOfSeq seq) seq) :: s.agenda }

/-- The status record (R379). -/
def Launch.status (l : Launch) (seq : Nat) : Nat :=
  seq + l.code * 2 ^ 32 + (if l.nd then 2 ^ 40 else 0) + l.retired * 2 ^ 64 + l.exit * 2 ^ 96 + l.ejidx * 2 ^ 128 +
    fld l.record 384 64 * 2 ^ 192

/-! The end of a job. -/

/-- The bank's hold on the array ends: by pre-emption with LSLOT recording the active slot, and otherwise with LV clear
(R268, R270). A bank that lost its lease by pre-emption asks for the array again on resumption (R295). -/
def State.dropLease (s : State) (b : Nat) (preempted : Bool) : State :=
  let a := (s.cluster (bankCluster b)).array
  let active := if a.active then a.plane1 else a.plane0
  let granted := a.grant == some b && (s.bank b).leaseHeld
  s.modBank b (fun k =>
    let k := (k.putCw cwMSTAT 2 1 0)
    let held := granted && (active.valid || active.loading.isSome)
    let k := if held then k.putCw cwMSTAT 27 7 active.tag else k
    let k := if !preempted then k.putCw cwMSTAT 34 1 0 else if held then k.putCw cwMSTAT 34 1 1 else k
    { k with leaseHeld := false, leaseOwed := preempted && (k.leaseHeld || k.leaseOwed) })

/-- The bank emptied: registers, queues and flags are discarded, its mailbox entries too (R30, R316); its translation
buffer stays (R335). The last values of its s registers and of its A-scale buffer stand there until a job starts on it (R28, R323;
DEDUCED, log 78). A lease that the job still holds ends here, at its retirement (DESIGN CHOICE, log 86). -/
def State.emptyBank (s : State) (b : Nat) : State :=
  let k := s.bank b
  let seq := k.seq
  let s := (s.dropLease b false).modCluster (bankCluster b) (fun c => { c with
    mail := c.mail.filter (fun e => !(e.core == bankCore b % 4 && e.bank == b % 2 && e.seq == seq)),
    mailWait := c.mailWait.filter (fun x => x != b) })
  let s := s.modDie (bankDie b) (fun d => { d with
    rasm := d.rasm.filter (fun e => e.bank != b),
    requests := d.requests.map (fun r => { r with banks := r.banks.filter (fun x => x != b) }) })
  s.setBank b { Bank.reset with
    sregs := k.sregs, ascaleFill := k.ascaleFill, ascale := k.ascale, scaleErr := k.scaleErr,
    tlb := k.tlb, lastPoint := k.lastPoint, stamp := k.stamp }

/-- When the last job of a launch on a die is over, its Cirrus slots (R302) and groups (R456) go. -/
def State.leaveDie (s : State) (seq die : Nat) : State :=
  match s.launchOf seq with
  | none => s
  | some l =>
    if l.jobs.any (fun p => bankDie p.bank == die && !p.over) then s else
    let s := (List.range 16).foldl (fun (s : State) c =>
      s.modCluster (die * 16 + c) (fun x => { x with
        heads := x.heads.filter (fun h => h.2.seq != seq),
        inst := x.inst.filter (fun i => i.1 / 16 != seq) })) s
    s.modDie die (fun d => { d with groups := d.groups.filter (fun g => g.1 / 16 != seq) })

/-- The launch ends once each of its jobs is over (R379). -/
def State.checkEnd (s : State) (seq : Nat) : State :=
  match s.launchOf seq with
  | none => s
  | some l =>
    if l.jobs.all Place.over then s.endLaunch seq 0
    else if l.phase == .preempting && l.jobs.all (fun p => p.over || p.phase == .saved) then
      s.modLaunch seq (fun l => { l with phase := .preempted })
    else s

/-- The job of a bank is over and reported (R30, R379, R396). -/
def State.jobOver (s : State) (b : Nat) (phase : PlacePhase) (exit code : Nat) : State :=
  match (s.bank b).job with
  | none => s
  | some j =>
    let s := s.emptyBank b
    let s := s.modLaunch j.seq (fun l =>
      let l := l.modPlace j.jidx (fun p => { p with phase := phase, kept := none })
      let first := l.exit = 0 ∧ exit ≠ 0
      { l with code := minCode l.code code, retired := l.retired + (if phase == .retired then 1 else 0),
               exit := if first then exit else l.exit, ejidx := if first then j.jidx else l.ejidx })
    (s.leaveDie j.seq (bankDie b)).checkEnd j.seq

/-- An L1 line's bytes lie in a job's apertures: directly, or in a frame granted to its bank. -/
def State.inApertures (s : State) (b : Nat) (l : L1Line) : Bool :=
  let pa := l.line * 64
  let k := s.bank b
  k.apertures.any (fun e => apValid e && !apPaged e &&
    (let t := (if apLocal e then bankDie b else paDie (apTarget e)) * 2 ^ 42 + paOff (apTarget e)
     decide (t ≤ pa) && decide (pa < t + 2 ^ apSize e))) ||
  k.tlb.any (fun t => k.apertures.any (fun e => apValid e && apPaged e && apRoot e == t.root) &&
    leafPa t.root t.leaf 0 / 2 ^ 16 == pa / 2 ^ 16)

/-- What other agents hold for a bank's work: appends at Cirrus, a message that CMSG forms, and a LAYSEL on its way. -/
def State.dropWork (s : State) (b : Nat) : State :=
  let s := s.modCluster (bankCluster b) (fun c => { c with appends := c.appends.filter (fun a => a.bank != b) })
  let s := { s with pkts := s.pkts.filter (fun (p : Pkt) => !(p.stage == PktStage.forming && p.srcBank == b)) }
  s.modHub (pkgOfSeq (s.bank b).seq) (fun h => { h with installs := h.installs.filter (fun i => i.bank != b) })

/-- Collective instances of a launch are discarded at every master (R464). -/
def State.dropColls (s : State) (seq : Nat) : State :=
  { s with
    clusters := s.clusters.map (fun p => (p.1, { p.2 with coll := p.2.coll.filter (fun x => x.seq != seq) })),
    pkts := s.pkts.filter (fun p => !(p.coll.isSome && p.seq == seq)) }

/-- The mailbox entries of a launch are discarded (R316, R396). -/
def State.dropMail (s : State) (seq : Nat) : State :=
  { s with clusters := s.clusters.map (fun p => (p.1, { p.2 with mail := p.2.mail.filter (fun e => e.seq != seq) })) }

/-- A job killed (R396), by Zenith or by a fatal TRET: its words, operations and page requests are gone, its dirty L1 bytes are
discarded, and its bank is freed. -/
def State.killJobAs (s : State) (b exit code : Nat) : State :=
  let s := (s.dropColls (s.bank b).seq).dropWork b
  let s' := s.modCore (bankCore b) (fun c => c.l1Map (fun l =>
    if s.inApertures b l then l.keepBytes (l.valid &&& ~~~l.dirty) 0 else l))
  s'.jobOver b .killed exit code

def State.killJob (s : State) (b : Nat) : State := s.killJobAs b 0 0x09

/-- A launch killed (R396): queued, live or pre-empted. -/
def State.killLaunch (s : State) (seq : Nat) : State :=
  match s.launchOf seq with
  | none => s
  | some l =>
    if l.phase == .queued then s.endLaunch seq 0x09 else
    let s := (s.dropColls seq).dropMail seq
    let s := l.jobs.foldl (fun (s : State) p => if p.phase == .placed || p.phase == .running then s.killJob p.bank else s) s
    let s := s.modLaunch seq (fun l => { l with
      code := minCode l.code 0x09,
      jobs := l.jobs.map (fun p => if p.over then p else { p with phase := .killed, kept := none }) })
    let s := (l.diesUsed).foldl (fun (s : State) d => s.leaveDie seq d) s
    if (s.launchOf seq).isSome then s.checkEnd seq else s

/-! Issue (R380, R383). -/

/-- Residency and dependences of a launch hold (R380). -/
def State.depsMet (s : State) (l : Launch) : Bool :=
  let h := s.hub (pkgOfSeq l.seq)
  let dep := fun (i : Nat) =>
    let q := fld l.record (288 + 32 * i) 32
    !l.record.getLsbD (352 + i) || !s.assigned q || (s.launchOf q).isNone
  decide (fld l.record 256 32 ≤ fld (h.reg 0x20018) 0 32) && (l.phase != .queued || (dep 0 && dep 1))

/-- A descriptor made active for a launch on a die, or none (R403). -/
def Die.installLayout (d : Die) (seq : Nat) (x : Option Desc) : Die :=
  { d with layouts := d.layouts.filter (fun e => e.seq != seq) ++ [⟨seq, x⟩] }

/-- A tag may not be given again (R123): its job is live or pre-empted, or an increment or a page answer addressed with it can still
arrive. -/
def State.tagBusy (s : State) (x : Nat × Nat × Nat) : Bool :=
  let seq := x.2.1
  let b := x.2.2
  (match (s.bank b).job with | some j => j.seq == seq && j.tag == x.1 | none => false) ||
  (match s.launchOf seq with
   | some l => l.jobs.any (fun p => match p.kept with | some k => k.job.tag == x.1 | none => false)
   | none => false) ||
  (s.incs ++ (s.die (bankDie b)).heldIncs).any (fun i => i.bank == b && i.seq == some seq) ||
  s.pkts.any (fun p => p.kind == 5 && p.bank == b && p.seq == seq) || s.faces.any (fun f => f.seq == seq) ||
  s.dies.any (fun d => d.2.requests.any (fun r => r.tag == x.1 && pkgOfSeq r.seq == pkgOfSeq seq))

/-- The next tag after n, from 1 to 65,535, that is not among some. -/
def freeTag (busy : List Nat) (n : Nat) : Nat → Nat
  | 0 => n % 65535 + 1
  | fuel + 1 => if busy.contains (n % 65535 + 1) then freeTag busy (n + 1) fuel else n % 65535 + 1

/-- The tag of a job that goes to a bank (R123). -/
def State.takeTag (s : State) (pkg seq b : Nat) : State × Nat :=
  let busy := (s.hub pkg).tags.filter s.tagBusy
  let tag := freeTag (busy.map (fun x => x.1)) (s.hub pkg).tagNext (busy.length + 1)
  (s.modHub pkg (fun h => { h with tagNext := tag, tags := busy ++ [(tag, seq, b)] }), tag)

/-- A launch issues whole: every job has its bank before any starts (R380), and its layout is installed (R383). -/
def State.issueLaunch (s : State) (l : Launch) (jobs : List Rec) (desc : Option Desc) (spots : List (Nat × Nat)) : State :=
  let pkg := pkgOfSeq l.seq
  let s := spots.foldl (fun (s : State) x =>
    let r := (jobs[x.1]?).getD 0
    let (s, tag) := s.takeTag pkg l.seq x.2
    let j : Job := ⟨l.seq, x.1, tag, pkg, .placed, r, l.record, l.submitter, jrPair r, lrDet l.record⟩
    s.modBank x.2 (fun k => { k with job := some j })) s
  let dies := (spots.map (fun x => bankDie x.2)).foldl insertNat []
  let s := dies.foldl (fun (s : State) d => s.modDie d (fun x => x.installLayout l.seq desc)) s
  s.modLaunch l.seq (fun l => { l with
    phase := .live, issuedAt := s.cycle,
    jobs := (List.range (lrJobs l.record)).filterMap (fun j =>
      (spots.find? (fun x => x.1 == j)).map (fun x => ⟨j, x.2, .placed, none⟩)) })

/-- Zenith of a package is usable (R426). -/
def State.zenithReady (s : State) (pkg : Nat) : Bool := (s.die (pkgDie pkg 0)).isReady 1

/-- Every function that a launch needs is usable on the dies it would take (R426): die memory, the layout unit for a layout-bound launch,
and the fabric for one of more than one die (DEDUCED, log 67). -/
def State.functionsReady (s : State) (l : Launch) (spots : List (Nat × Nat)) : Bool :=
  let dies := (spots.map (fun x => bankDie x.2)).foldl insertNat []
  dies.all (fun d => (s.die d).isReady 0 && (!lrLayb l.record || (s.die d).isReady 2) && (decide (dies.length ≤ 1) || (s.die d).isReady 5))

/-- The queue of a level, in the order they came to it: accepted launches, and pre-empted ones, which wait for their own banks
like them (R389). -/
def Hub.level (h : Hub) (n : Nat) : List Launch :=
  h.launches.filter (fun l => (l.phase == .queued || l.phase == .preempted) && l.level == n)

/-- The banks that a pre-empted launch needs are free, or would be with some launches gone, and their partners are such as a
paired core admits (R385, R389). -/
def State.banksFree (s : State) (l : Launch) (less : List Nat) : Bool :=
  l.jobs.all (fun p => match p.kept with
    | none => true
    | some kept =>
      let other := fun (b : Nat) => match (s.bank b).job with
        | some j => if less.contains j.seq then none else some j
        | none => none
      (other p.bank).isNone && (match other (partner p.bank) with
        | some j => j.paired && kept.job.paired
        | none => true))

/-- One try at a level's head: issued, rejected, or waiting. -/
inductive Tried where
  | done (s : State)
  | waits (s : State)

/-- Launch q was accepted before launch l of its package; of two accepted in one cycle, the SEQ that was given first comes first. -/
def Launch.before (q l : Launch) : Bool :=
  decide (q.accepted < l.accepted) ||
  (q.accepted == l.accepted && q.seq != l.seq && decide ((l.seq + 2 ^ 21 - q.seq % 2 ^ 21) % 2 ^ 21 < 2 ^ 20))

/-- The head of a level. A launch that has its place has its images read: it issues, or is rejected for what they hold. In determinism
mode it waits for every earlier DET launch (R384). -/
def State.tryLaunch (s : State) (l : Launch) : Tried :=
  if !s.depsMet l then .waits s else
  if lrDet l.record && (s.hub (pkgOfSeq l.seq)).launches.any (fun q => q.phase == .queued && lrDet q.record && q.before l) then .waits s else
  let (s, c) := s.checkLaunch l
  match c.codes with
  | x :: t => .done (s.endLaunch l.seq (t.foldl min x))
  | [] =>
    let layout := match c.desc with | some x => Desc.dies x | none => []
    match s.planNow l c.jobs layout [] with
    | some spots =>
      if !s.functionsReady l spots then .waits s else
      (match s.checkImages l c.jobs with
       | (s, x :: t) => .done (s.endLaunch l.seq (t.foldl min x))
       | (s, []) => .done (s.issueLaunch l c.jobs c.desc spots))
    | none => .waits s

/-- Up to n launches of one level (R381): the head is never passed. -/
def State.serveLevel (s : State) (pkg level : Nat) : Nat → State
  | 0 => s
  | n + 1 =>
    match (s.hub pkg).level level with
    | [] => s
    | l :: _ =>
      if l.phase == .preempted then s else
      match s.tryLaunch l with
      | .done s => State.serveLevel s pkg level n
      | .waits s => s

/-! Pre-emption requests (R386). -/

/-- S and every engine of a bank have reached the rendezvous (R29). -/
def Bank.retiring (k : Bank) : Bool :=
  (match k.blocked with | some ⟨.rendez _, _, _⟩ => true | _ => false) &&
  k.atRendezvous .v && k.atRendezvous .c && k.atRendezvous .m

/-- A request reaches every job of a launch, unless all have reached the rendezvous. -/
def State.requestPreempt (s : State) (seq : Nat) : State :=
  match s.launchOf seq with
  | none => s
  | some l =>
    if l.phase != .live || l.jobs.all (fun p => p.over || (s.bank p.bank).retiring) then s else
    let s := s.modLaunch seq (fun l => { l with phase := .preempting })
    l.jobs.foldl (fun (s : State) p =>
      if p.over then s else s.modBank p.bank (fun k => { k with preempt := true })) s

/-- A waiting launch that has no place now and would have one with some launches gone. -/
def State.blockedBy (s : State) (l : Launch) (less : List Nat) : Bool :=
  if l.phase == .preempted then !s.banksFree l [] && s.banksFree l less else
  if !s.depsMet l then false else
  let (s, c) := s.checkLaunch l
  if !c.codes.isEmpty then false else
  let layout := match c.desc with | some x => Desc.dies x | none => []
  (s.planNow l c.jobs layout []).isNone && (s.planNow l c.jobs layout less).isSome

/-- The banks that a level's head would take with some launches gone, each with whether its job is paired. -/
def State.headSpots (s : State) (l : Launch) (less : List Nat) : List (Nat × Bool) :=
  if l.phase == .preempted then l.jobs.filterMap (fun p => p.kept.map (fun k => (p.bank, k.job.paired))) else
  let (s, c) := s.checkLaunch l
  let layout := match c.desc with | some x => Desc.dies x | none => []
  match s.planNow l c.jobs layout less with
  | some spots => spots.map (fun x => (x.2, jrPair ((c.jobs[x.1]?).getD 0)))
  | none => []

/-- A launch holds what a head's spots need: one of the banks, the other bank of a core that they need whole, or MSC budget of a
die on which the head needs some (R386). -/
def State.holdsFor (s : State) (q l : Launch) (spots : List (Nat × Bool)) : Bool :=
  q.jobs.any (fun p => !p.over && spots.any (fun x =>
    x.1 == p.bank ||
    (x.1 == partner p.bank && !(x.2 && (match (s.bank p.bank).job with | some j => j.paired | none => false))) ||
    (lrMscb l.record != 0 && lrMscb q.record != 0 && bankDie x.1 == bankDie p.bank)))

/-- Priority pre-emption (R386): of the lower launches that hold what a head needs, the most recently issued, one at a time. -/
def State.preemptFor (s : State) (pkg level : Nat) : State :=
  match (s.hub pkg).level level with
  | [] => s
  | l :: _ =>
    let lower := (s.hub pkg).launches.filter (fun q => q.phase == .live && decide (q.level < level))
    let less := lower.map (fun q => q.seq)
    if (s.hub pkg).launches.any (fun q => q.phase == .preempting) || lower.isEmpty then s
    else if s.blockedBy l less then
      let spots := s.headSpots l less
      match (lower.filter (fun q => s.holdsFor q l spots)).foldl (fun (best : Option Launch) q => match best with
        | none => some q
        | some x => if x.issuedAt ≤ q.issuedAt then some q else some x) none with
      | some q => s.requestPreempt q.seq
      | none => s
    else s

/-- A round of Zenith: the levels from 7 down to 0, each up to its weight (R381), then priority pre-emption (R386). -/
def State.zenithRound (s : State) (pkg : Nat) : State :=
  let ctl := (s.hub pkg).reg 0x20000
  if !ctl.getLsbD 0 || (s.hub pkg).stopped || !s.zenithReady pkg then s else
  let s := [7, 6, 5, 4, 3, 2, 1, 0].foldl (fun (s : State) n =>
    s.serveLevel pkg n (max 1 (fld ((s.hub pkg).reg 0x20008) (4 * n) 4))) s
  if ctl.getLsbD 1 then [7, 6, 5, 4, 3, 2, 1].foldl (fun (s : State) n => s.preemptFor pkg n) s else s

/-- A queued launch that a round would issue now. -/
def State.couldIssue (s : State) (l : Launch) : Bool :=
  match s.tryLaunch l with
  | .done _ => l.phase == .queued
  | .waits _ => false

/-! LAUNCH and YIELD (R118, R119). -/

/-- What a record read by an S word came to (R118, R405): its bytes, a trap, or a page that is missing. -/
inductive BlockRes where
  | ok (v : Nat)
  | trap (t : Trap)
  | page (ea : W64) (root : Nat)
  deriving DecidableEq, Repr

/-- n 8-byte words read through the core's own L1 and address path, with the faults of R95 to R98. -/
def State.readBlock (s : State) (i : Instr) (b : Nat) (ea : W64) : Nat → State × BlockRes
  | 0 => (s, .ok 0)
  | n + 1 =>
    match State.readBlock s i b ea n with
    | (s, .ok v) =>
      let a := ea + BitVec.ofNat 64 (8 * n)
      (match s.accessTrap i b a 8 false true with
       | some t => (s, .trap t)
       | none =>
         match s.perform b (.load a 8 false) with
         | (s, .absent root _) => (s, .page a root)
         | (s, .ok _ true) => (s, .trap ⟨0x16, a⟩)
         | (s, .ok w false) => (s, .ok (v + w * 2 ^ (64 * n))))
    | r => r

/-- The issue of an S word that reads a record: it traps, or waits unissued for a page of the record, or runs its body with the record. In
the supervisor view a missing page is TCAUSE 0x06 (R98). DESIGN CHOICE (log 82): a word whose record lies in an absent page has not
issued, so it makes no consume and EPC is its own address. -/
def State.issueRecord (s : State) (m : Marks) (ready : Bool) (pre : Option Trap) (i : Instr) (ea : W64) (words : Nat)
    (check : Nat → Option Trap) (body : Nat → State → State) : Out :=
  let b := s.focus.bank
  let k := s.bank b
  match pre with
  | some t => s.issueS m true (some t) (fun s => s)
  | none =>
    match (if k.skipWait && ready then Gate.go k else k.gate s.cycle .s m.wait ready) with
    | .stay k' => .next (s.setBank b k')
    | .go _ =>
      match s.readBlock i b ea words with
      | (_, .trap t) => s.issueS m ready (some t) (fun s => s)
      | (s', .page a root) =>
        if k.sv then s.issueS m ready (some ⟨0x06, a⟩) (fun s => s) else .next (s'.parkFor b 0 a.toNat false root)
      | (s', .ok v) =>
        match check v with
        | some t => s.issueS m ready (some t) (fun s => s)
        | none => s'.issueS m ready none (body v)

/-- LAUNCH (R118): it stalls while the queue is full, and returns the status word. -/
def execLaunch (m : Marks) (d a : SReg) (s : State) : Out :=
  let b := s.focus.bank
  let ea := s.sVal b a.toNat
  let pkg := pkgOf (bankDie b)
  s.issueRecord m (decide (0 < (s.hub pkg).qfree)) (firstTrap [s.poisonTrap b [a.toNat],
      trapIf (decide (2 ^ 48 ≤ ea.toNat)) 0x05 ea, trapIf (ea.toNat % 64 != 0) 0x04 ea])
    (.launch m d a) ea 8 (fun _ => none) (fun v s =>
      match s.accept pkg (BitVec.ofNat 512 v) (some b) with
      | (s, some seq) => s.nowS m d (BitVec.ofNat 64 (1 + seq * 2 ^ 32))
      | (s, none) => s.nowS m d 0x0200)

/-- A launch of equal or higher priority waits for this bank's core (R119): it could be placed were this launch gone. -/
def State.wanted (s : State) (b : Nat) : Bool :=
  let seq := (s.bank b).seq
  match s.launchOf seq with
  | none => false
  | some l => (List.range 8).any (fun n => decide (l.level ≤ n) &&
      (match (s.hub (pkgOfSeq seq)).level n with
       | [] => false
       | q :: _ => s.blockedBy q [seq]))

/-- YIELD (R119): 0 at once, or the whole launch is pre-empted here and resumption lands 1. -/
def execYield (m : Marks) (d : SReg) (s : State) : Out :=
  s.issueS m true none (fun s =>
    let b := s.focus.bank
    if s.wanted b then
      let s := (s.blockS m (.yielded d.toNat)).requestPreempt (s.bank b).seq
      if (s.bank b).preempt then s else s.unblock b (some (d.toNat, 0))
    else s.nowS m d 0)

/-! EVT (R128, R393). -/

/-- EVT (R128): class 1 is the supervisor's, and adds the record at FAREA. It completes once the host's ring has room.
DESIGN CHOICE (log 72): a class that the view refuses is reported before a poisoned operand. -/
def execEvt (m : Marks) (a : SReg) (cls : BitVec 4) (s : State) : Out :=
  let b := s.focus.bank
  let k := s.bank b
  let trap := firstTrap [(if cls = 1 ∧ !k.sv then some (privilege (.evt m a cls)) else none), s.poisonTrap b [a.toNat]]
  s.issueS m true trap (fun s =>
    (s.blockS m (.evt (decide (cls = 1)) ((k.cw cwJOBID).toNat + (s.coreId b).toNat * 2 ^ 64 + cls.toNat * 2 ^ 128 +
      (s.sVal b a.toNat).toNat * 2 ^ 192))).pollEvt b)

end Sys2Proof.Machine
end

