-- ==== Sys2Proof/Machine/MatrixOps.lean ====
section
/-! DEFINITION. M words (R271 to R289, R291 to R294): leases, tables and buffers, array commands, tiles and loops. -/

namespace Sys2Proof.Machine

/-! Order in the M stream (R280, R282). -/

/-- Rows of tile t that an operation has still to read or write. -/
def rowsLeft (w : Work) (t r : Nat) : Bool :=
  match w with
  | .mma t' _ _ _ _ _ nr r0 _ row _ => t' == t && decide (r0 + (row - 1) ≤ r) && decide (r < r0 + nr)
  | .mzero t' nr r0 => t' == t && decide (r0 ≤ r) && decide (r < r0 + nr)
  | .mdrain t' _ _ dq ot _ nr r0 _ row =>
    let done := match dq with | some _ => row / (if ot = .bf16 then 2 else 4) | none => row
    t' == t && decide (r0 + done ≤ r) && decide (r < r0 + nr)
  | _ => false

/-- Operations of the M stream that issued before one. -/
def Bank.earlierM (k : Bank) (id : Nat) : List Op := (k.opsOf .m).filter (fun o => decide (o.id < id))

/-- An earlier operation has still to reach row r of a tile. -/
def Bank.rowBusy (k : Bank) (id t r : Nat) : Bool := (k.earlierM id).any (fun o => rowsLeft o.todo t r)

/-- An operation that holds the issue of the next M word: an MLEASE before its grant, an MMA that still streams, an MDRAIN
that still writes rows to a map. -/
def holdsIssueM : Work → Bool
  | .mlease => true
  | .mma _ _ _ _ _ _ nr _ _ row _ => decide (row ≤ nr)
  | .mdrain _ _ _ none _ _ nr _ _ row => decide (row < nr)
  | _ => false

/-- An M word may issue: fewer than four are in flight and none holds issue. -/
def Bank.mReady (k : Bank) : Bool :=
  let os := (k.opsOf .m).filter (fun o => !o.effs.any (fun e => match e with | .map .. => true | _ => false) || o.todo != .none)
  decide (os.length < 4) && os.all (fun o => !holdsIssueM o.todo)

/-- The next M word issues no earlier than a cycle. -/
def State.holdM (s : State) (b cyc : Nat) : State := s.modBank b (fun k => { k with nextIssue := k.nextIssue.set Point.m.index cyc })

/-- The issue of an M word; its checks are made once it is ready. -/
def State.issueM (s : State) (m : Marks) (ready : Bool) (checks : List (Option (Nat × W64))) (body : Bank → State → State) : Out :=
  let ready := ready && (s.bank s.focus.bank).mReady
  s.issueE m ready [] [] (if ready then firstFault checks else none) (fun k _ s => body k s)

/-! Maps of M words (R275, R276). -/

/-- The first byte of a box outside the job's scratchpad range and shared memory. -/
def State.outside (s : State) (b : Nat) (r : Rec) : Option (Nat × W64) :=
  ((pieces (boxRuns r none)).find? (fun x => match (s.locTgt b x.2.1 x.2.2 false false).2 with
    | .sp _ _ => false
    | .shm _ _ => false
    | _ => true)).map (fun x => (0x05, x.2.1.value))

/-- A map of an M word: valid, plain, in bounds, of the shape the word needs, and local. -/
def State.mMapChecks (s : State) (g : BitVec 4) (shape : Rec → Bool) : List (Option (Nat × W64)) :=
  let r := (s.bank s.focus.bank).mapReg g.toNat
  [mapBad (!mapValid r || mapLayc r || mapZc r || mapPgm r) g, mapBad (!shape r) g, mapBad (boxFaults r) g,
   if mapValid r then s.outside s.focus.bank r else none]

/-- A box of one row of n elements per row of the word. -/
def rowShape (t : EType) (n nr : Nat) (r : Rec) : Bool :=
  mapType r == t && mapBox r 0 == n && mapBox r 1 == nr && mapBox r 2 == 1 && mapBox r 3 == 1

/-- The box read at issue, in the order of the stream: what the operation does with it, or its fault. -/
def State.mRead (s : State) (b : Nat) (r : Rec) (todo : Nat → Work) : State × Work :=
  match s.boxRead b r none with
  | (s, v, none) => (s, todo v)
  | (s, _, some (.fault c v)) => (s, .failed c v)
  | (s, _, some (.page va _ _)) => (s, .failed 0x05 (BitVec.ofNat 64 va))

/-- A lease, tile or slot violation (R271). -/
def violation (bad : Bool) (code n : Nat) : Option (Nat × W64) := if bad then some (0x0C, BitVec.ofNat 64 (code + 256 * n)) else none

/-! Performing. -/

/-- A row of A from its map, or its fault (R273). -/
def State.aRow (s : State) (b : Nat) (a : Rec) (bytes r : Nat) : State × Except Stop Nat :=
  match s.runsRead b a (boxPart a none (bytes * r) (bytes * (r + 1))) with
  | (s, v, none) => (s, .ok v)
  | (s, _, some (.fault 0x16 _)) => (s, .error (.fault 0x16 (BitVec.ofNat 64 (4 + 256 * r))))
  | (s, _, some x) => (s, .error x)

/-- What a queue gives of a row of A: the row, the half that has come, or an element with an uncorrectable error. -/
inductive APopped where
  | row (v : Nat)
  | waits (half : Option Elem)
  | bad
  deriving DecidableEq, Repr

/-- The head of a queue popped, and whether it holds an uncorrectable error (R273). -/
def State.popHead (s : State) (b q : Nat) : State × Option (Elem × Bool) :=
  match ((s.bank b).queue q).head with
  | none => (s, none)
  | some x =>
    let bad := match ((s.bank b).queue q).slots with
      | y :: _ => (s.bank b).slotErr.contains y.id
      | [] => false
    (s.modBank b (fun k => k.modQueue q (fun y => y.pop s.cycle)), some (x, bad))

/-- A row of A popped from its queue: one element, or two, in one cycle when both have come (R276, R282). -/
def State.aPop (s : State) (b q : Nat) (two : Bool) (half : Option Elem) : State × APopped :=
  match s.popHead b q with
  | (s, none) => (s, .waits half)
  | (s, some (_, true)) => (s, .bad)
  | (s, some (x, false)) =>
    match two, half with
    | false, _ => (s, .row x.toNat)
    | true, some h => (s, .row (h.toNat + x.toNat * 2 ^ 2048))
    | true, none =>
      match s.popHead b q with
      | (s, none) => (s, .waits (some x))
      | (s, some (_, true)) => (s, .bad)
      | (s, some (y, false)) => (s, .row (x.toNat + y.toNat * 2 ^ 2048))

/-- An array command stands at its issue point, or streams, up to a cycle (R269). -/
def State.stand (s : State) (b cyc : Nat) : State := s.modArray (bankCluster b) (fun a => { a with lastCmd := max a.lastCmd cyc })

/-- One row accumulated, and what is left. -/
def State.streamRow (s : State) (b : Nat) (tile : Nat) (a : Rec) (aq : Option Nat) (slot : Nat) (e : W64) (pf nr r0 : Nat) (z : Bool)
    (row v : Nat) : State × Done :=
  let r := row - 1
  let k := s.bank b
  let p := (s.cluster (bankCluster b)).array.activePlane
  let accs := if z then zeroRow else (s.tile b tile).row (r0 + r)
  let s := s.setTileRow b tile (r0 + r) (mmaRow e pf p.tileBytes (aVals e v (k.scaleRow r)) accs)
  let c := fmtPace e
  let s := s.stand b (s.cycle + c - 1)
  if row = nr then
    ((s.holdM b (s.cycle + c)), .more (.mma tile a aq slot e pf nr r0 z (row + 1) none) (s.cycle + c + 24))
  else (s, .more (.mma tile a aq slot e pf nr r0 z (row + 1) none) (s.cycle + c))

/-- The error that row r of an MMA meets in its tile row or its A-scale row, as the status word's value (R273). Both are checked, whatever
the row uses of them. -/
def State.rowError (s : State) (b tile r0 r : Nat) : Option W64 :=
  if (s.core (bankCore b)).tileErr.contains (tile, r0 + r) then some (BitVec.ofNat 64 (1 + 16 * tile + 256 * (r0 + r)))
  else if (s.bank b).scaleErr.contains r then some (BitVec.ofNat 64 (2 + 256 * r))
  else none

/-- Select for an MMA, in issue order: a tile that is current in the active plane needs no earlier MBSEL to end, and the load that the MMA
itself began (`own`) ends in the swap (R267). -/
def State.selectMma (s : State) (b id slot : Nat) (pair own : Bool) : State × Selected :=
  let cl := bankCluster b
  let a := (s.cluster cl).array
  if own then (if a.idlePlane.loading.isSome then (s, .waits) else (s.modArray cl (fun a => { a with active := !a.active }), .ends))
  else if !(s.cluster cl).planeCurrent a.activePlane slot pair && ((s.bank b).earlierM id).any (fun o => o.todo.isMbsel) then (s, .waits)
  else s.select cl slot pair true

/-- MMA: Select in issue order, then row after row; a row whose data has not come waits (R282). -/
def State.performMma (s : State) (b id : Nat) (tile : Nat) (a : Rec) (aq : Option Nat) (slot : Nat) (e : W64) (pf nr r0 : Nat) (z : Bool)
    (row : Nat) (half : Option Elem) : State × Done :=
  let k := s.bank b
  let again := fun row half => Done.more (.mma tile a aq slot e pf nr r0 z row half) (s.cycle + 1)
  let two := fmtA e == 2
  if nr < row then (s, .ok []) else
  let (s, sel) := if row = 0 then s.selectMma b id slot (fmtTwo e) half.isSome else (s, .ends)
  let s := s.stand b s.cycle
  match sel with
  | .loads => (s, again 0 (some 0))
  | .waits => (s, again 0 half)
  | .error w => (s, .stop (.fault 0x16 (BitVec.ofNat 64 w)))
  | .ends =>
  let half := if row = 0 then none else half
  let row := max row 1
  if k.rowBusy id tile (r0 + row - 1) then (s, again row half) else
  match s.rowError b tile r0 (row - 1) with
  | some v => (s, .stop (.fault 0x16 v))
  | none =>
  match aq with
  | none =>
    match s.aRow b a (if two then 512 else 256) (row - 1) with
    | (s, .ok v) => s.streamRow b tile a aq slot e pf nr r0 z row v
    | (s, .error x) => (s, .stop x)
  | some q =>
    match s.aPop b q two half with
    | (s, .waits half) => (s, again row half)
    | (s, .bad) => (s, .stop (.fault 0x16 (BitVec.ofNat 64 (4 + 256 * (row - 1)))))
    | (s, .row v) => s.streamRow b tile a aq slot e pf nr r0 z row v

/-- MBSEL completes once a plane is current for its slot: at once when that is the active plane, else in its turn among the selections
of its bank (R267, R288). -/
def State.performMbsel (s : State) (b id slot : Nat) : State × Done :=
  let c := s.cluster (bankCluster b)
  let selects := fun (o : Op) => match o.todo with
    | .mma _ _ _ _ _ _ _ _ _ row _ => row == 0
    | w => w.isMbsel && !c.planeCurrent c.array.activePlane slot (slot % 2 == 0)
  if ((s.bank b).earlierM id).any selects then (s, .more (.mbsel slot) (s.cycle + 1)) else
  match s.select (bankCluster b) slot (slot % 2 == 0) false with
  | (s, .ends) => (s, .ok [])
  | (s, .loads) | (s, .waits) => (s, .more (.mbsel slot) (s.cycle + 1))
  | (s, .error w) => (s, .stop (.fault 0x16 (BitVec.ofNat 64 w)))

/-- MREL ends the lease once the bank's array commands have completed (R284). -/
def State.performMrel (s : State) (b : Nat) : State × Done :=
  if (s.bank b).arrayBusy then (s, .more .mrel (s.cycle + 1)) else (s.dropLease b false, .ok [])

/-- The 16 entries are checked before any is written (R278, R285). -/
def State.performMfmt (s : State) (b g data : Nat) : State × Done :=
  let es := (unpackElems 64 16 data).map (fun v => (BitVec.ofNat 64 v : W64))
  if es.all fmtOk then
    (s.modBank b (fun k => { k with fmt := (es.zipIdx).foldl (fun m p => m.set p.2 p.1) k.fmt, fmtErr := [] }), .ok [])
  else (s, .stop (.fault 0x0B (BitVec.ofNat 64 g)))

/-- MSCALE (R286). -/
def State.performMscale (s : State) (b data nr : Nat) : State × Done :=
  let rows := unpackElems 64 nr data
  (s.modBank b (fun k =>
    { k with
      ascale := (rows.zipIdx).foldl (fun m p => m.set p.2 (BitVec.ofNat 64 p.1)) k.ascale
      scaleErr := k.scaleErr.filter (fun r => decide (nr ≤ r)) }), .ok [])

/-- MBLD: the slot's bytes and its generation (R287). -/
def State.performMbld (s : State) (b data n slot off : Nat) : State × Done :=
  (s.modCluster (bankCluster b) (fun c =>
    let x := (c.bstore.get BSlot.empty slot).put (256 * off) n data
    { c with bstore := c.bstore.set slot { x with gen := x.gen + 1 } }), .ok [])

/-- MZERO: at once, unless an earlier word has still to reach a row (R280, R291). -/
def State.performMzero (s : State) (b id issued tile nr r0 : Nat) : State × Done :=
  if (List.range nr).any (fun r => (s.bank b).rowBusy id tile (r0 + r)) then (s, .more (.mzero tile nr r0) (s.cycle + 1))
  else (s.zeroRows b tile r0 nr, .more .none (max (s.cycle + 1) (issued + 2 + ceilDiv nr 4)))

/-- A drained row: its bytes, and its block scales (R292). -/
def drainRow (ot : EType) (rm : RMode) (x : List (BitVec 32)) : Nat × Nat :=
  if ot = .fp32 then (packElems 32 (x.map (fun v => v.toNat)), 0)
  else if ot = .bf16 then (packElems 16 (x.map (fun v => EType.rnd .bf16 rm (fp32 v.toNat))), 0)
  else
    let blocks := (chunks 32 256 (x.map (fun v => fp32 v.toNat))).map (fun vs => mxQuantise ot rm (fun _ => noSr) vs)
    (packElems ot.width (blocks.flatMap (fun q => q.2)), packElems 8 (blocks.map (fun q => q.1)))

/-- MDRAIN: a row written, or one element of a row pushed (R175, R292). -/
def State.performMdrain (s : State) (b id issued tile : Nat) (d sc : Rec) (dq : Option Nat) (ot : EType) (rm : RMode) (nr r0 : Nat)
    (clr : Bool) (row : Nat) : State × Done :=
  let todo := fun row => Work.mdrain tile d sc dq ot rm nr r0 clr row
  let per := match dq with | some _ => (if ot = .bf16 then 2 else 4) | none => 1
  if row = nr * per then (s, .ok []) else
  let r := row / per
  let k := s.bank b
  if k.rowBusy id tile (r0 + r) then (s, .more (todo row) (s.cycle + 1)) else
  if (s.core (bankCore b)).tileErr.contains (tile, r0 + r) then
    (s, .stop (.fault 0x16 (BitVec.ofNat 64 (1 + 16 * tile + 256 * (r0 + r))))) else
  let (bytes, scales) := drainRow ot rm ((s.tile b tile).row (r0 + r))
  let clear := fun (s : State) => if clr then s.setTileRow b tile (r0 + r) zeroRow else s
  match dq with
  | some q =>
    if (k.queue q).depth ≤ (k.queue q).occupied s.cycle then (s, .more (todo row) (s.cycle + 1)) else
    let (n, s) := s.newId
    let e : Elem := BitVec.ofNat 2048 (bytes >>> (2048 * (row % per)))
    let s := s.modBank b (fun k => k.modQueue q (fun x => x.append n e))
    let s := if row % per = per - 1 then clear s else s
    (s, if row + 1 = nr * per then .ok [] else .more (todo (row + 1)) (s.cycle + 1))
  | none =>
    let len := 32 * ot.width
    match s.runsWrite b d (boxPart d none (len * r) (len * (r + 1))) bytes with
    | (s, some x) => (s, .stop x)
    | (s, none) =>
      match (if drainMx ot then s.runsWrite b sc (boxPart sc none (8 * r) (8 * (r + 1))) scales else (s, none)) with
      | (s, some x) => (s, .stop x)
      | (s, none) =>
        let s := clear s
        let last := issued + (if drainMx ot then 12 else 8) + nr
        (s, .more (todo (row + 1)) (if row + 1 = nr then max (s.cycle + 1) last else s.cycle + 1))

/-- What an M operation of a bank does when it is looked at. -/
def State.performM (s : State) (b : Nat) (o : Op) : State × Done :=
  match o.todo with
  | .failed c v => (s, .stop (.fault c v))
  | .mlease => (s, .more .mlease (s.cycle + 1))
  | .mrel => s.performMrel b
  | .mfmt g data => s.performMfmt b g data
  | .mbld data n slot off => s.performMbld b data n slot off
  | .mbsel slot => s.performMbsel b o.id slot
  | .mma tile a aq slot e pf nr r0 z row half => s.performMma b o.id tile a aq slot e pf nr r0 z row half
  | .mzero tile nr r0 => s.performMzero b o.id o.issued tile nr r0
  | .mdrain tile d sc dq ot rm nr r0 clr row => s.performMdrain b o.id o.issued tile d sc dq ot rm nr r0 clr row
  | .mscale data nr => s.performMscale b data nr
  | _ => (s, .ok [])

/-- An operation that does something in its issue cycle: it is looked at once, there and then. -/
def State.stepNow (s : State) (b : Nat) : State :=
  match (s.bank b).ops.getLast? with
  | some o => let (s, d) := s.performM b o; s.applyDone b o d
  | none => s

/-! The words. -/

/-- MNOP (R24). -/
def execMnop (m : Marks) (s : State) : Out := s.issueM m true [] (fun _ s => s.doneE m)

/-- MLEASE: pending until the grant passes to the bank (R269, R284). -/
def execMlease (m : Marks) (s : State) : Out :=
  let k := s.bank s.focus.bank
  s.issueM m true [violation (k.leaseHeld || k.ops.any (fun o => o.todo == .mlease)) 2 0] (fun _ s =>
    (s.startOp m 1 .mlease []).modBank s.focus.bank (fun k => k.putCw cwMSTAT 2 1 1))

/-- MREL. -/
def execMrel (m : Marks) (s : State) : Out :=
  s.issueM m true [violation (!(s.bank s.focus.bank).leaseHeld) 3 0] (fun _ s => (s.startOp m 0 .mrel []).stepNow s.focus.bank)

/-- MFMT. -/
def execMfmt (m : Marks) (g : BitVec 4) (s : State) : Out :=
  s.issueM m true (s.mMapChecks g (fun r => mapType r == .n8 && boxCount r == 128)) (fun k s =>
    let (s, w) := s.mRead s.focus.bank (k.mapReg g.toNat) (.mfmt g.toNat)
    s.startOp m 4 w [])

/-- MSCALE: it waits for every earlier MMA whose A carries scales (R280). -/
def execMscale (m : Marks) (g : BitVec 4) (rows : BitVec 8) (s : State) : Out :=
  let nr := rows.toNat + 1
  let busy := (s.bank s.focus.bank).ops.any (fun o => match o.todo with
    | .mma _ _ _ _ e _ _ _ _ _ _ => fmtAmx e
    | _ => false)
  s.issueM m (!busy) (s.mMapChecks g (rowShape .n8 8 nr)) (fun k s =>
    let (s, w) := s.mRead s.focus.bank (k.mapReg g.toNat) (fun v => .mscale v nr)
    s.startOp m (4 + ceilDiv nr 32) w [])

/-- A plane of the bank's grant is loading a slot (R280). -/
def State.loadingSlot (s : State) (b slot : Nat) : Bool :=
  let a := (s.cluster (bankCluster b)).array
  s.hasGrant b && [a.plane0, a.plane1].any (fun p => p.loading.isSome && (p.tag == slot || (p.pair && p.tag + 1 == slot)))

/-- MBLD. -/
def execMbld (m : Marks) (g : BitVec 4) (slot : BitVec 7) (off : BitVec 8) (s : State) : Out :=
  let b := s.focus.bank
  let r := (s.bank b).mapReg g.toNat
  let n := boxBytes r
  let mine := match s.slotOwner (bankCluster b) slot.toNat with
    | some x => (s.bank x).seq == (s.bank b).seq
    | none => false
  s.issueM m (!s.loadingSlot b slot.toNat)
    (violation (!mine) 5 slot.toNat ::
      s.mMapChecks g (fun _ => n % 256 == 0 && decide (256 * off.toNat + n ≤ 65536))) (fun k s =>
    let (s, w) := s.mRead b (k.mapReg g.toNat) (fun v => .mbld v n slot.toNat off.toNat)
    s.startOp m (16 + n / 256) w [])

/-- An MBLD in flight writes a slot. -/
def Bank.loadsSlot (k : Bank) (slot : Nat) : Bool :=
  k.ops.any (fun o => match o.todo with | .mbld _ _ x _ => x == slot | _ => false)

/-- An array command stands at its issue point: of the grant, or as a request for it (R268, R269). -/
def State.standing (s : State) : State :=
  let b := s.focus.bank
  if s.hasGrant b then s.stand b s.cycle
  else if (s.bank b).leaseHeld then s.modBank b (fun k => k.putCw cwMSTAT 2 1 1) else s

/-- An array command may issue: it breaks the lease rule, or it has the grant, its reload is over, and its run may go on. -/
def State.arrayReady (s : State) (slot : Nat) (pair : Bool) : Bool :=
  let b := s.focus.bank
  let a := (s.cluster (bankCluster b)).array
  !(s.bank b).leaseHeld ||
  (s.hasGrant b && decide (a.firstCmd ≤ s.cycle) && (decide (a.run < 64) || !s.othersWant b) &&
   !(s.bank b).loadsSlot slot && !(pair && (s.bank b).loadsSlot (slot + 1)))

/-- The command counts toward the run; after the 64th, while no other bank waits, the count restarts at 0 (R269). -/
def State.countCmd (s : State) : State :=
  let alone := !s.othersWant s.focus.bank
  s.modArray (bankCluster s.focus.bank) (fun a =>
    let n := if a.run < 64 then a.run + 1 else 1
    { a with run := if n == 64 && alone then 0 else n })

/-- The lease and the slot of an array command (R271). -/
def State.arrayChecks (s : State) (slot : Nat) (mid : List (Option (Nat × W64))) : List (Option (Nat × W64)) :=
  violation (!(s.bank s.focus.bank).leaseHeld) 1 0 :: mid ++
    [violation (s.slotOwner (bankCluster s.focus.bank) slot != some s.focus.bank) 5 slot]

/-- MBSEL. -/
def execMbsel (m : Marks) (slot : BitVec 7) (s : State) : Out :=
  let s := s.standing
  s.issueM m (s.arrayReady slot.toNat (slot.toNat % 2 == 0)) (s.arrayChecks slot.toNat []) (fun _ s =>
    (s.countCmd.startOp m 0 (.mbsel slot.toNat) []).stepNow s.focus.bank)

/-- A tile outside the bank's (R171, R271). -/
def State.tileCheck (s : State) (tile : BitVec 2) : Option (Nat × W64) :=
  violation (!s.ownsTile s.focus.bank tile.toNat) 4 tile.toNat

/-- MMA: its checks in the order of R289. DESIGN CHOICE (log 66): the checks, the read of the entry and the advance of the map are made in
the issue cycle, once the bank has the grant and its reload is over; R289's text writes them before the wait for the grant. -/
def execMma (m : Marks) (tile : BitVec 2) (asrc : BitVec 4) (aq : Bool) (slot : BitVec 7) (prof : BitVec 3) (fidx : BitVec 4)
    (rows row0 : BitVec 8) (z a : Bool) (s : State) : Out :=
  let s := s.standing
  let b := s.focus.bank
  let k := s.bank b
  let i := if fidx.toNat = 15 then s.focus.k % 16 else fidx.toNat
  let e := k.fmt.get 0 i
  let pf := if fmtPtab e then fmtProf e else prof.toNat
  let nr := rows.toNat + 1
  let profFault := fun (pf : Nat) => some (0x0E, (BitVec.ofNat 64 (pf + 16 * i) : W64))
  let src := if aq then [] else s.mMapChecks asrc (rowShape (fmtType (fmtA e)) 256 nr)
  s.issueM m (s.arrayReady slot.toNat (fmtTwo e))
    (s.arrayChecks slot.toNat [s.tileCheck tile] ++
     [if k.fmtErr.contains i then some (0x16, BitVec.ofNat 64 (3 + 256 * i)) else if e = 0 then profFault 0 else none,
      violation (fmtTwo e && slot.toNat % 2 == 1) 6 slot.toNat,
      if profAccepts pf e then none else profFault pf] ++ src) (fun k s =>
    let q := if aq then some asrc.toNat else none
    let s := s.countCmd.startOp m 0 (.mma tile.toNat (k.mapReg asrc.toNat) q slot.toNat e pf nr row0.toNat z 0 none)
      (if aq && ((k.queue asrc.toNat).cons == .none || (k.queue asrc.toNat).cons == .m) then [.unbindCons asrc.toNat] else [])
    let s := if aq then s.modBank b (fun k => k.modQueue asrc.toNat (fun x => if x.cons == .none then { x with cons := .m } else x)) else s
    (s.stepNow b).advanceMaps k (advs a asrc))

/-- MZERO. -/
def execMzero (m : Marks) (tile : BitVec 2) (rows row0 : BitVec 8) (s : State) : Out :=
  s.issueM m true [s.tileCheck tile] (fun _ s =>
    (s.startOp m 0 (.mzero tile.toNat (rows.toNat + 1) row0.toNat) []).stepNow s.focus.bank)

/-- MDRAIN. -/
def execMdrain (m : Marks) (tile : BitVec 2) (asrc : BitVec 4) (aq : Bool) (gs : BitVec 4) (rm : RMode) (ot : EType)
    (rows row0 : BitVec 8) (clr a : Bool) (s : State) : Out :=
  let nr := rows.toNat + 1
  let mx := drainMx ot
  let dst := if aq then [mapBad mx asrc]
    else s.mMapChecks asrc (rowShape ot 256 nr) ++ (if mx then s.mMapChecks gs (rowShape .n8 8 nr) else [])
  s.issueM m true (s.tileCheck tile :: dst) (fun k s =>
    let q := if aq then some asrc.toNat else none
    let s := s.startOp m 0 (.mdrain tile.toNat (k.mapReg asrc.toNat) (k.mapReg gs.toNat) q ot rm nr row0.toNat clr 0) []
    -- a queue gets its first element after the issue points of the cycle, so it can be popped from the next one (R173)
    let s := (if aq then s else s.stepNow s.focus.bank).holdM s.focus.bank (s.cycle + nr)
    s.advanceMaps k (if a then asrc :: (if mx then [gs] else []) else []))

/-! Loops (R293, R294). -/

/-- The loop words of M wait, like every M word, for the words that hold issue; a misplaced one faults at once. -/
def State.mLoops (s : State) : Bool := (s.bank s.focus.bank).mReady

def execMloop (m : Marks) (stages : BitVec 3) (count : BitVec 24) (s : State) : Out :=
  s.loopWord m (.mloop m stages count) s.mLoops stages count
def execMlbrk (m : Marks) (f : BitVec 6) (s : State) : Out := s.breakWord m (.mlbrk m f) s.mLoops f
/-- MEND; one outside a loop is illegal wherever it is met (R71, R294). -/
def execMend (m : Marks) (s : State) : Out :=
  if s.mLoops || ((s.bank s.focus.bank).inLoop s.focus.point).isNone then s.endWord (.mend m) else s.plainE m false none (fun s => s)

end Sys2Proof.Machine
end

