-- ==== Sys2Proof/Machine/VectorFloat.lean ====
section
/-! DEFINITION. V words on floating-point elements: arithmetic (R189, R190), comparison and selection (R192, R193),
transcendental functions (R194), conversion and quantisation (R195 to R200). -/

namespace Sys2Proof.Machine

/-- VNOP (R24). -/
def execVnop (m : Marks) (s : State) : Out := s.plainE m true none (fun s => s)

/-! Arithmetic (R189, R190). -/

/-- VADD, VSUB and VMUL: the exact value of two elements, rounded once; SR takes its bits from vc. -/
def State.arithV (s : State) (m : Marks) (f : VOp) (g : Val → Val → Val) : Out :=
  s.lanesV m f (srcAB f ++ srcSr f) 4 1 (fun k =>
    let a := k.elems f.va f.ty
    let b := k.elems f.vb f.ty
    let sr := k.srOf f
    fun i => EType.round f.ty f.rm (sr i) (g (EType.value f.ty (nth a i)) (EType.value f.ty (nth b i))))

def execVadd (m : Marks) (f : VOp) (s : State) : Out := s.arithV m f (Val.add f.rm)
def execVsub (m : Marks) (f : VOp) (s : State) : Out := s.arithV m f (Val.sub f.rm)
def execVmul (m : Marks) (f : VOp) (s : State) : Out := s.arithV m f Val.mul

/-- VFMA, VFMS and VFNMA. -/
def State.fusedV (s : State) (m : Marks) (f : VOp) (g : Val → Val → Val → Val) : Out :=
  s.map3 m f 6 (fun a b c => EType.rnd f.ty f.rm (g (EType.value f.ty a) (EType.value f.ty b) (EType.value f.ty c)))

def execVfma (m : Marks) (f : VOp) (s : State) : Out := s.fusedV m f (fun a b c => Val.add f.rm (Val.mul a b) c)
def execVfms (m : Marks) (f : VOp) (s : State) : Out := s.fusedV m f (fun a b c => Val.sub f.rm (Val.mul a b) c)
def execVfnma (m : Marks) (f : VOp) (s : State) : Out := s.fusedV m f (fun a b c => Val.add f.rm (Val.mul a b).neg c)

/-- Minimum and maximum of two codes of a type (R190). -/
def EType.min2 (t : EType) (a b : Nat) : Nat := EType.rnd t .rne (Val.minimum (EType.value t a) (EType.value t b))
def EType.max2 (t : EType) (a b : Nat) : Nat := EType.rnd t .rne (Val.maximum (EType.value t a) (EType.value t b))

def execVmin (m : Marks) (f : VOp) (s : State) : Out := s.map2 m f 4 (EType.min2 f.ty)
def execVmax (m : Marks) (f : VOp) (s : State) : Out := s.map2 m f 4 (EType.max2 f.ty)
def execVabs (m : Marks) (f : VOp) (s : State) : Out := s.map1 m f 4 (fun a => EType.rnd f.ty .rne (EType.value f.ty a).abs)
def execVneg (m : Marks) (f : VOp) (s : State) : Out := s.map1 m f 4 (fun a => EType.rnd f.ty .rne (EType.value f.ty a).neg)

/-! Comparison and selection (R192, R193). -/

/-- The condition sub[2:0] on two values; a NaN holds only .ne and .uo. -/
def condV (c : Nat) (a b : Val) : Bool :=
  let nan := a.isNan || b.isNan
  match c with
  | 0 => Val.eq a b
  | 1 => !Val.eq a b
  | 2 => Val.lt a b
  | 3 => Val.lt a b || Val.eq a b
  | 4 => Val.lt b a
  | 5 => Val.lt b a || Val.eq a b
  | 6 => nan
  | _ => !nan

/-- A word that writes the mask vd[1:0]. -/
def State.compareV (s : State) (m : Marks) (f : VOp) (c : Val → Val → Bool) : Out :=
  s.issueV m (srcAB f) [] [f.msel.toNat, f.vd.toNat] 4 1 (fun k _ =>
    let a := k.elems f.va f.ty
    let b := k.elems f.vb f.ty
    [.mask (f.vd.toNat % 4) (maskOf (min f.ty.lanes 512) (fun i =>
      k.active f i && c (EType.value f.ty (nth a i)) (EType.value f.ty (nth b i))))])

def execVcmp (m : Marks) (f : VOp) (s : State) : Out := s.compareV m f (condV (fld f.sub 0 3))
def execVicmp (m : Marks) (f : VOp) (s : State) : Out := s.compareV m f (condV (fld f.sub 0 3))

/-- VSEL (R193): an element that is not active is b's. -/
def execVsel (m : Marks) (f : VOp) (s : State) : Out :=
  s.issueV m (srcAB f) [f.vd.toNat] [f.msel.toNat] 4 1 (fun k slots =>
    let a := k.elems f.va f.ty
    let b := k.elems f.vb f.ty
    pushOne slots f.vd (packReg f.ty ((List.range f.ty.lanes).map (fun i => if k.active f i then nth a i else nth b i))))

/-! Transcendental functions (R194). -/

/-- The source type in sub[3:0]. -/
def srcType (f : VOp) : EType := (EType.fromNat (fld f.sub 0 4)).getD .fp32

/-- An FP32 result runs the recipe on the source widened exactly; a 16-bit one rounds the exact value (R60). Elements beyond
the source's own count read as +0. -/
def State.transV (s : State) (m : Marks) (f : VOp) (fn : Fn) : Out :=
  s.lanesV m f (srcA f) 16 (if f.ty = .fp32 then 4 else 2) (fun k =>
    let st := srcType f
    let a := k.elems f.va st
    fun i =>
      let x := EType.value st (nth a i)
      if f.ty = .fp32 then fn.fp32 (toFp32 x) else EType.rnd f.ty f.rm (fn.exact x))

def execVexp2 (m : Marks) (f : VOp) (s : State) : Out := s.transV m f .exp2
def execVlog2 (m : Marks) (f : VOp) (s : State) : Out := s.transV m f .log2
def execVrcp (m : Marks) (f : VOp) (s : State) : Out := s.transV m f .rcp
def execVrsq (m : Marks) (f : VOp) (s : State) : Out := s.transV m f .rsq
def execVsqrt (m : Marks) (f : VOp) (s : State) : Out := s.transV m f .sqrt
def execVsin (m : Marks) (f : VOp) (s : State) : Out := s.transV m f .sin
def execVcos (m : Marks) (f : VOp) (s : State) : Out := s.transV m f .cos
def execVtanh (m : Marks) (f : VOp) (s : State) : Out := s.transV m f .tanh
def execVsigm (m : Marks) (f : VOp) (s : State) : Out := s.transV m f .sigm

/-! Conversion (R195, R196). -/

/-- VCVT: a narrowing word fills part p of its destination and writes zero elsewhere. -/
def execVcvt (m : Marks) (f : VOp) (s : State) : Out :=
  s.lanesV m f (srcA f ++ srcSr f) 6 1 (fun k =>
    let st := srcType f
    let p := fld f.sub 4 2
    let a := k.elems f.va st
    let sr := k.srOf f
    let conv := fun (x i : Nat) => EType.round f.ty f.rm (sr i) (EType.value st x)
    fun i =>
      if f.ty.lanes ≤ st.lanes then conv (nth a (p * f.ty.lanes + i)) i
      else if p * st.lanes ≤ i ∧ i < (p + 1) * st.lanes then conv (nth a (i - p * st.lanes)) i
      else 0)

/-- VSCL: times 2^n, n the signed byte sub. -/
def execVscl (m : Marks) (f : VOp) (s : State) : Out :=
  s.map1 m f 6 (fun a => EType.rnd f.ty f.rm ((EType.value f.ty a).scale (signed 8 f.sub.toNat)))

/-! Quantisation (R197 to R199). -/

/-- The source of VQMX and VQGI: FP32 or BF16. -/
def quantType (f : VOp) : EType := if f.sub.getLsbD 0 then .bf16 else .fp32

/-- The blocks of 32 source values. -/
def Bank.quantBlocks (k : Bank) (f : VOp) : List (List Val) :=
  let st := quantType f
  chunks 32 (st.lanes / 32) ((k.elems f.va st).map (EType.value st))

/-- The two pushes of a quantising word, elements then scales of w bits, from the block rule. -/
def State.quantV (s : State) (m : Marks) (f : VOp) (w : Nat) (block : (Nat → SrBits) → List Val → Nat × List Nat) : Out :=
  s.issueV m (srcA f ++ srcSr f) [f.vd.toNat, f.vb.toNat] [] 10 1 (fun k slots =>
    let st := quantType f
    let p := fld f.sub 1 3
    let sr := k.srOf f
    let rs := ((k.quantBlocks f).zipIdx).map (fun x => block (fun i => sr (p * st.lanes + 32 * x.2 + i)) x.1)
    let e := packElems f.ty.width (rs.flatMap (fun r => r.2)) * 2 ^ (f.ty.width * (p * st.lanes))
    let sc := packElems w (rs.map (fun r => r.1)) * 2 ^ (w * (p * (st.lanes / 32)))
    pushOne slots f.vd (BitVec.ofNat 2048 e) ++ pushOne slots f.vb (BitVec.ofNat 2048 sc))

/-- VQMX (R197). -/
def execVqmx (m : Marks) (f : VOp) (s : State) : Out := s.quantV m f 8 (fun sr vs => mxQuantise f.ty f.rm sr vs)

/-- One group of VQGI: its BF16 scale and its integers (R199). -/
def quantGroup (t : EType) (rm : RMode) (sr : Nat → SrBits) (vs : List Val) : Nat × List Nat :=
  if vs.any (fun v => !v.isFinite) then (0x7FC0, vs.map (fun _ => 0)) else
  let amax := vs.foldl (fun m v => if Val.lt m v.abs then v.abs else m) (.zero false)
  if amax.isZero then (0x3F80, vs.map (fun _ => 0)) else
  let sc := EType.rnd .bf16 .rup (Val.div amax (Val.ofInt (EType.maxInt t)))
  (sc, (vs.zipIdx).map (fun p => EType.round t rm (sr p.2) (Val.div p.1 (EType.value .bf16 sc))))

/-- VQGI (R199). -/
def execVqgi (m : Marks) (f : VOp) (s : State) : Out := s.quantV m f 16 (fun sr vs => quantGroup f.ty f.rm sr vs)

/-- VDQMX (R198). -/
def execVdqmx (m : Marks) (f : VOp) (s : State) : Out :=
  s.wholeV m f.vd (srcAB f) 6 (fun k =>
    let st := srcType f
    let p := fld f.sub 4 3
    let a := k.elems f.va st
    let b := k.headOf f.vb.toNat
    packReg f.ty ((List.range f.ty.lanes).map (fun i =>
      let j := p * f.ty.lanes + i
      EType.rnd f.ty f.rm (mxValue st (elemAt b 8 (j / 32)) (nth a j)))))

/-! Packed integers (R200). -/

/-- VPACK: INT8 elements clamped into part p of an INT4 or INT3 register. -/
def execVpack (m : Marks) (f : VOp) (s : State) : Out :=
  s.wholeV m f.vd (srcA f) 6 (fun k =>
    let p := fld f.sub 0 2
    let a := k.elems f.va .i8
    packReg f.ty ((List.range f.ty.lanes).map (fun j =>
      if p * 256 ≤ j ∧ j < (p + 1) * 256 then EType.saturate f.ty (signed 8 (nth a (j - p * 256))) else 0)))

/-- VUNPK: part p of an INT4 or INT3 register as INT8. -/
def execVunpk (m : Marks) (f : VOp) (s : State) : Out :=
  s.wholeV m f.vd (srcA f) 6 (fun k =>
    let p := fld f.sub 0 2
    let a := k.elems f.va f.ty
    packReg .i8 ((List.range 256).map (fun i =>
      if p * 256 + i < f.ty.lanes then wrap 8 (signed f.ty.width (nth a (p * 256 + i))) else 0)))

end Sys2Proof.Machine
end

