-- ==== Sys2Proof/Machine/VectorInt.lean ====
section
/-! DEFINITION. V words on integers and bits (R201, R202), lane movement (R203, R204), reductions and prefixes (R58, R59,
R205), and queue control (R210, R211). -/

namespace Sys2Proof.Machine

/-! Integer arithmetic (R201). -/

/-- An integer element as a number. -/
def EType.int (t : EType) (c : Nat) : Int := if t.isUnsigned then ((c % 2 ^ t.width : Nat) : Int) else signed t.width c

/-- The exact result modulo 2^w, or clamped with .sat. -/
def EType.keep (t : EType) (sat : Bool) (i : Int) : Nat := if sat then EType.saturate t i else wrap t.width i

def State.intV (s : State) (m : Marks) (f : VOp) (g : Int → Int → Int) : Out :=
  s.map2 m f 4 (fun a b => EType.keep f.ty (f.sub.getLsbD 0) (g (EType.int f.ty a) (EType.int f.ty b)))

def execViadd (m : Marks) (f : VOp) (s : State) : Out := s.intV m f (fun a b => a + b)
def execVisub (m : Marks) (f : VOp) (s : State) : Out := s.intV m f (fun a b => a - b)
/-- VIMUL: .hi takes bits [2w-1:w] of the exact product. -/
def execVimul (m : Marks) (f : VOp) (s : State) : Out :=
  s.intV m f (fun a b => if f.sub.getLsbD 1 then a * b / ((2 ^ f.ty.width : Nat) : Int) else a * b)
def execVimad (m : Marks) (f : VOp) (s : State) : Out :=
  s.map3 m f 4 (fun a b c => EType.keep f.ty (f.sub.getLsbD 0) (EType.int f.ty a * EType.int f.ty b + EType.int f.ty c))
def execVimin (m : Marks) (f : VOp) (s : State) : Out :=
  s.map2 m f 4 (fun a b => if EType.int f.ty b < EType.int f.ty a then b else a)
def execVimax (m : Marks) (f : VOp) (s : State) : Out :=
  s.map2 m f 4 (fun a b => if EType.int f.ty a < EType.int f.ty b then b else a)

/-! Bitwise words and shifts (R201, R202). -/

def execVand (m : Marks) (f : VOp) (s : State) : Out := s.map2 m f 4 (fun a b => a &&& b)
def execVor (m : Marks) (f : VOp) (s : State) : Out := s.map2 m f 4 (fun a b => a ||| b)
def execVxor (m : Marks) (f : VOp) (s : State) : Out := s.map2 m f 4 (fun a b => a ^^^ b)

/-- A shift by each element of vb, or by sub[4:0] when sub[7] is set, modulo w. -/
def State.shiftV (s : State) (m : Marks) (f : VOp) (g : Nat → Nat → Nat) : Out :=
  if f.sub.getLsbD 7 then s.map1 m f 4 (fun a => g a (fld f.sub 0 5 % f.ty.width))
  else s.map2 m f 4 (fun a b => g a (b % f.ty.width))

def execVshl (m : Marks) (f : VOp) (s : State) : Out := s.shiftV m f (fun a n => a * 2 ^ n % 2 ^ f.ty.width)
def execVshr (m : Marks) (f : VOp) (s : State) : Out := s.shiftV m f (fun a n => a / 2 ^ n)
def execVsha (m : Marks) (f : VOp) (s : State) : Out :=
  s.shiftV m f (fun a n => wrap f.ty.width (signed f.ty.width a / ((2 ^ n : Nat) : Int)))

/-- VIOTA (R202). -/
def execViota (m : Marks) (f : VOp) (s : State) : Out :=
  s.lanesV m f [] 4 1 (fun _ i => wrap f.ty.width (signed 8 f.sub.toNat + (i : Int)))

/-- VPOPC (R202). -/
def execVpopc (m : Marks) (f : VOp) (s : State) : Out := s.map1 m f 4 (fun a => countBits a f.ty.width)

/-! Lane movement (R203, R204). -/

/-- VPERM: indices are NAT16 for 16- and 32-bit types and NAT8 for 8-bit ones. -/
def execVperm (m : Marks) (f : VOp) (s : State) : Out :=
  s.lanesV m f (srcABC f) 4 1 (fun k =>
    let n := f.ty.lanes
    let a := k.elems f.va f.ty
    let b := k.headOf f.vb.toNat
    let c := k.elems f.vc f.ty
    let w := if f.ty.width = 8 then 8 else 16
    fun i => let x := elemAt b w i % (2 * n); if x < n then nth a x else nth c (x - n))

/-- VSLIDE: beyond both sources it reads zero. -/
def execVslide (m : Marks) (f : VOp) (s : State) : Out :=
  s.lanesV m f (srcAB f) 4 1 (fun k =>
    let x := k.elems f.va f.ty ++ k.elems f.vb f.ty
    fun i => nth x (i + f.sub.toNat))

def execVbcst (m : Marks) (f : VOp) (s : State) : Out :=
  s.lanesV m f (srcA f) 4 1 (fun k => let x := nth (k.elems f.va f.ty) f.sub.toNat; fun _ => x)

/-- VMOVI: every 32-bit word of the result is the immediate. -/
def execVmovi (m : Marks) (vd : BitVec 5) (imm : BitVec 32) (s : State) : Out :=
  s.wholeV m vd [] 4 (fun _ => packReg .n32 ((List.range 64).map (fun _ => imm.toNat)))

def execVmov (m : Marks) (f : VOp) (s : State) : Out := s.map1 m f 4 (fun a => a)

/-- A word that picks one source element for each destination element: true picks from a. -/
def State.pickV (s : State) (m : Marks) (f : VOp) (g : Nat → Nat → Nat → Bool × Nat) : Out :=
  s.lanesV m f (srcAB f) 4 1 (fun k =>
    let a := k.elems f.va f.ty
    let b := k.elems f.vb f.ty
    fun i => let (fromA, j) := g f.ty.lanes (fld f.sub 0 1) i; if fromA then nth a j else nth b j)

def execVzip (m : Marks) (f : VOp) (s : State) : Out := s.pickV m f (fun n h i => (i % 2 == 0, h * (n / 2) + i / 2))
def execVuzp (m : Marks) (f : VOp) (s : State) : Out :=
  s.pickV m f (fun n h i => if i < n / 2 then (true, 2 * i + h) else (false, 2 * (i - n / 2) + h))
def execVtrn (m : Marks) (f : VOp) (s : State) : Out :=
  s.pickV m f (fun _ h i => if i % 2 = 0 then (true, i + h) else (false, i - 1 + h))

/-! Reductions and prefixes (R58, R59, R205). -/

/-- One node: the operation sub[2:0] on two codes. -/
def redOp (t : EType) (op : Nat) (rm : RMode) (a b : Nat) : Nat :=
  match op with
  | 0 => if t.isFP then EType.rnd t rm (Val.add rm (EType.value t a) (EType.value t b)) else (a + b) % 2 ^ t.width
  | 1 => if t.isFP then EType.min2 t a b else if EType.int t b < EType.int t a then b else a
  | 2 => if t.isFP then EType.max2 t a b else if EType.int t a < EType.int t b then b else a
  | 3 => a &&& b
  | 4 => a ||| b
  | _ => a ^^^ b

/-- The identity that an excluded lane enters as. -/
def redIdentity (t : EType) (op : Nat) (rm : RMode) : Nat :=
  match op with
  | 0 => if t.isFP then EType.rnd t .rne (.zero (rm != .rdn)) else 0
  | 1 => if t.isFP then EType.rnd t .rne (.inf false) else wrap t.width (EType.maxInt t)
  | 2 => if t.isFP then EType.rnd t .rne (.inf true) else wrap t.width (EType.minInt t)
  | 3 => ones t.width
  | _ => 0

/-- One level of the tree: neighbours combined, the lower index first. -/
def pairUp (g : Nat → Nat → Nat) : List Nat → List Nat
  | a :: b :: r => g a b :: pairUp g r
  | l => l

/-- The fixed pairwise tree (R58), by levels. -/
def tree (g : Nat → Nat → Nat) : Nat → List Nat → Nat
  | 0, l => nth l 0
  | n + 1, l => tree g n (pairUp g l)

/-- The fixed doubling network (R59): d is the distance of the next level. -/
def network (g : Nat → Nat → Nat) : Nat → Nat → List Nat → List Nat
  | 0, _, l => l
  | n + 1, d, l => network g n (2 * d) (l.take d ++ List.zipWith g l (l.drop d))

/-- The source with its excluded lanes at the identity. -/
def Bank.redSource (k : Bank) (f : VOp) : List Nat :=
  ((k.elems f.va f.ty).zipIdx).map (fun p => if k.active f p.2 then p.1 else redIdentity f.ty (fld f.sub 0 3) f.rm)

/-- VRED: the tree's result in element 0, whatever its mask bit, and zero elsewhere. -/
def execVred (m : Marks) (f : VOp) (s : State) : Out :=
  s.issueV m (srcA f) [f.vd.toNat] [f.msel.toNat] 10 1 (fun k slots =>
    pushOne slots f.vd (BitVec.ofNat 2048
      (tree (redOp f.ty (fld f.sub 0 3) f.rm) (Nat.log2 f.ty.lanes) (k.redSource f) % 2 ^ f.ty.width)))

/-- VSCAN: prefix i in each active element. -/
def execVscan (m : Marks) (f : VOp) (s : State) : Out :=
  s.lanesV m f (srcA f) 12 1 (fun k =>
    let y := network (redOp f.ty (fld f.sub 0 3) f.rm) (Nat.log2 f.ty.lanes) 1 (k.redSource f)
    fun i => nth y i)

/-! Queue control (R210, R211). -/

/-- VQCFG: an empty, unbound queue takes its new depth. -/
def execVqcfg (m : Marks) (vd : BitVec 5) (depth : BitVec 3) (s : State) : Out :=
  let q := (s.bank s.focus.bank).queue vd.toNat
  let busy := !q.slots.isEmpty || q.prod != .none || q.cons != .none
  s.plainE m true (if busy then some (0x0B, vd.setWidth 64) else none)
    (fun s => s.modBank s.focus.bank (fun k => k.modQueue vd.toNat (fun q => { q with depth := depth.toNat + 1 })))

/-- VDROP: waits until no slot is reserved, then removes every arrived one; the freed slots count as free from the next
cycle (R175). -/
def execVdrop (m : Marks) (vd : BitVec 5) (s : State) : Out :=
  let q := (s.bank s.focus.bank).queue vd.toNat
  s.plainE m (q.reserved == 0) none
    (fun s => s.modBank s.focus.bank (fun k => k.modQueue vd.toNat (fun q =>
      { q with slots := [], popCyc := s.cycle + 1,
               popCnt := (if q.popCyc = s.cycle + 1 then q.popCnt else 0) + q.slots.length })))

/-! Loops (R218 to R221). -/

def execVloop (m : Marks) (stages : BitVec 3) (count : BitVec 24) (s : State) : Out := s.loopWord m (.vloop m stages count) true stages count
def execVlbrk (m : Marks) (f : BitVec 6) (s : State) : Out := s.breakWord m (.vlbrk m f) true f
def execVend (m : Marks) (s : State) : Out := s.endWord (.vend m)

end Sys2Proof.Machine
end

