-- ==== Sys2Proof/Machine/NearBank.lean ====
section
/-! DEFINITION. Near-bank arithmetic in cluster shared memory (R299 to R301). -/

namespace Sys2Proof.Machine

/-- The first in-bounds byte of a box that lies outside cluster shared memory (R299). -/
def boxOutside (r : Rec) : Option Nat :=
  (boxRuns r none).findSome? (fun x => match x.2.1 with
    | .ea a => outShared a x.2.2
    | .die .. => none)

/-- The conditions on gD (R299): the place of its bytes, and the rest. -/
def State.nearChecks (s : State) (g : BitVec 4) (int : Bool) : List (Option (Nat × W64)) :=
  let r := (s.bank s.focus.bank).mapReg g.toNat
  let t := mapType r
  let shape := mapLayc r || mapZc r || mapPgm r || boxBytes r % 256 != 0 || !(t == .fp32 || t == .bf16 || (int && t == .i32))
  [mapBad (!mapValid r) g, mapBad shape g, (boxOutside r).map (fun a => (0x05, BitVec.ofNat 64 a)), s.boundsCheck g]

/-- The operands of CNBR that its type refuses (R299). -/
def nearRm (t : EType) (op : Nat) (rm : RMode) (sat : Bool) : Bool :=
  (if t.isFP && op == 0 then rm == .sr else rm != .rne) || (sat && !(t == .i32 && op == 0))

/-- CNBR: it takes the queue as consumer until it completes. -/
def execCnbr (m : Marks) (gD : BitVec 4) (q : BitVec 5) (op : BitVec 2) (a : Bool) (rm : RMode) (sat : Bool) (s : State) : Out :=
  let k := s.bank s.focus.bank
  let r := k.mapReg gD.toNat
  let bad := nearRm (mapType r) op.toNat rm sat
  s.issueC m [gD] [] []
    (s.nearChecks gD true ++ [if bad then some (0x01, wordOf (.cnbr m gD q op a rm sat)) else none,
      mapBad ((k.queue q.toNat).cons != .none) gD])
    (fun k s =>
      ((s.startOp m 8 (.nbr r q.toNat op.toNat rm sat 0) [.unbindCons q.toNat]).advanceMaps k (advs a gD)).modBank s.focus.bank
        (fun k => k.modQueue q.toNat (fun x => { x with cons := .sink })))

/-- One element updated (R300). -/
def nearOp (t : EType) (op : Nat) (rm : RMode) (sat : Bool) (old x : Nat) : Nat :=
  match op with
  | 0 => if t.isFP then EType.rnd t rm (Val.add rm (EType.value t old) (EType.value t x))
         else EType.keep t sat (EType.int t old + EType.int t x)
  | 1 => if t.isFP then EType.max2 t old x else if EType.int t old < EType.int t x then x else old
  | _ => if t.isFP then EType.min2 t old x else if EType.int t x < EType.int t old then x else old

/-- Elements of shared memory updated in place, piece by piece: f takes an element's number in the stream and its old value. -/
def State.updateRuns (s : State) (b w : Nat) (f : Nat → Nat → Nat) : List (Nat × Loc × Nat) → State × Option Stop
  | [] => (s, none)
  | (so, l, n) :: t =>
    match s.readAt b l n 0 false true with
    | (s, _, some x) => (s, some x)
    | (s, v, none) =>
      let es := (unpackElems w (8 * n / w) v).zipIdx
      let new := packElems w (es.map (fun p => f (8 * so / w + p.2) p.1))
      match s.writeAt b l n new true false with
      | (s, some x) => (s, some x)
      | (s, none) => State.updateRuns s b w f t

/-- The next queue element of CNBR: when one has arrived it is popped and its lanes update the box. -/
def State.performNbr (s : State) (b : Nat) (r : Rec) (q op : Nat) (rm : RMode) (sat : Bool) (n : Nat) : State × Done :=
  match ((s.bank b).queue q).head with
  | none => (s, .more (.nbr r q op rm sat n) (s.cycle + 1))
  | some e =>
    let t := mapType r
    let s := s.modBank b (fun k => k.modQueue q (fun x => x.pop s.cycle))
    match s.updateRuns b t.width (fun i old => nearOp t op rm sat old (elemAt e t.width i)) (pieces (boxPart r none (256 * n) (256 * n + 256))) with
    | (s, some x) => (s, .stop x)
    | (s, none) => if 256 * (n + 1) < boxBytes r then (s, .more (.nbr r q op rm sat (n + 1)) (s.cycle + 1)) else (s, .ok [])

/-- The second pop of CNBU.vec: the element behind the head is present, arriving, or missing (R301). -/
def Bank.secondRes (k : Bank) (q : Nat) : QRes :=
  match (k.queue q).slots with
  | _ :: x :: _ => if x.data.isSome then .ok else .stall
  | _ => if (k.queue q).prod != .none || k.pushInFlight q then .stall else .trap 0x09 q

/-- CNBU: one coefficient element, or two with .vec. -/
def execCnbu (m : Marks) (gD : BitVec 4) (q : BitVec 5) (a vec : Bool) (rm : RMode) (s : State) : Out :=
  let b := s.focus.bank
  let k := s.bank b
  let r := k.mapReg gD.toNat
  let second := if vec then k.secondRes q.toNat else .ok
  let first := k.readRes s.focus.point q.toNat
  if first = .ok ∧ second = .stall then s.plainE m false none (fun s => s) else
  let missing := match second with
    | .trap c n => some (c, BitVec.ofNat 64 n)
    | _ => none
  s.issueC m [gD] [] [(q.toNat, false)]
    (s.nearChecks gD false ++ [if rm = .sr then some (0x01, wordOf (.cnbu m gD q a vec rm)) else none, missing])
    (fun k s =>
      let e2 := match (k.queue q.toNat).slots with
        | _ :: x :: _ => x.data.getD 0
        | _ => 0
      let s := if vec then s.modBank b (fun k => k.modQueue q.toNat (fun x => x.pop s.cycle)) else s
      (s.startOp m (moveTime (boxBytes r)) (.nbu r (k.headOf q.toNat) e2 vec rm) []).advanceMaps k (advs a gD))

/-- CNBU performed: the coefficients of box element n are those of its dimension-0 coordinate modulo 64, or lanes 0 and 1. -/
def State.performNbu (s : State) (b : Nat) (r : Rec) (e1 e2 : Elem) (vec : Bool) (rm : RMode) : State × Done :=
  let t := mapType r
  let co := fun n =>
    if vec then (elemAt e1 32 (n % mapBox r 0 % 64), elemAt e2 32 (n % mapBox r 0 % 64)) else (elemAt e1 32 0, elemAt e1 32 1)
  let f := fun n old =>
    EType.rnd t rm (Val.fma rm (fp32 (co n).1) (EType.value t old) (fp32 (co n).2))
  match s.updateRuns b t.width f (pieces (boxRuns r none)) with
  | (s, x) => (s, doneOr x)

end Sys2Proof.Machine
end

