-- ==== Sys2Proof/Machine/VectorMem.lean ====
section
/-! DEFINITION. V memory words (R206 to R209): addresses, the checks made at issue, and the accesses performed at completion. -/

namespace Sys2Proof.Machine

/-- The base of an access: 0, or the low 32 or 64 bits of va's head (R206, R207). -/
def Bank.vBase (k : Bank) (hasBase wide : Bool) (va : BitVec 5) : Nat :=
  if !hasBase then 0 else fld (k.headOf va.toNat) 0 (if wide then 64 else 32)

/-- The address of VLD and VST in iteration i (R207). -/
def Bank.vAddr (k : Bank) (f : VMemOp) (i : Nat) : Nat :=
  wrap 64 (((k.vBase f.hasBase f.wide f.va + 64 * f.offset.toNat : Nat) : Int) + 64 * signed 8 f.stride.toNat * (i : Int))

/-- The addresses of VGATH and VSCAT, lane by lane (R208). -/
def Bank.vAddrs (k : Bank) (f : VGatOp) : List Nat :=
  let idx := k.elems f.vi .n32
  (List.range 64).map (fun i => (k.vBase f.hasBase f.wide f.va + 256 * f.offset.toNat + 4 * nth idx i) % 2 ^ 64)

def baseSrc (hasBase : Bool) (va : BitVec 5) (ka : Bool) : List (Nat × Bool) := if hasBase then [(va.toNat, ka)] else []

/-- The fault of a list of accesses of n bytes, in the order of R209. A missing page is none: its request is made when the
access is performed. DESIGN CHOICE (log 76): the cause that comes first in that order is reported with the first address of the list that
meets it. -/
def State.checkV (s : State) (b n align : Nat) (wr : Bool) (eas : List Nat) : Option (Nat × W64) :=
  match eas.find? (fun a => decide (2 ^ 48 ≤ a)) with
  | some a => some (0x05, BitVec.ofNat 64 a)
  | none =>
    match eas.find? (fun a => a % align != 0) with
    | some a => some (0x04, BitVec.ofNat 64 a)
    | none =>
      (eas.flatMap (fun a => cut64 0 (.ea a) n (n / 64 + 2))).findSome? (fun x =>
        let (s', t) := s.locTgt b x.2.1 x.2.2 wr false
        match s'.tgtStop b x.2.1 wr t with
        | some (.fault c v) => some (c, v)
        | _ => none)

/-- The window that an address reaches, for a VST (R451). -/
def State.windowAt (s : State) (b ea : Nat) : Option (Nat × Nat) :=
  if 2 ^ 48 ≤ ea then none else
  match (s.resolve b ea 64 true false).2 with
  | .win die off => some (die, off)
  | _ => none

/-- The sources of an access-side word can be read now (R174): its address is known. -/
def State.known (s : State) (srcs : List (Nat × Bool)) : Bool :=
  qAll ((dedup (srcs.map (fun x => x.1))).map ((s.bank s.focus.bank).readRes .va)) == .ok

/-- VLD (R207): its slot is reserved at issue. -/
def execVld (m : Marks) (f : VMemOp) (s : State) : Out :=
  let b := s.focus.bank
  let srcs := baseSrc f.hasBase f.va f.ka
  let ea := (s.bank b).vAddr f s.focus.k
  s.issueE m true srcs [f.vq.toNat] (if s.known srcs then s.checkV b 256 64 false [ea] else none)
    (fun _ slots s => s.startOp m 6 (.vld ea f.vq.toNat (slotOf slots f.vq.toNat)) [])

/-- VST (R207). A window store appends in issue order, and discards the open packet when it may not (R451, R452). -/
def execVst (m : Marks) (f : VMemOp) (s : State) : Out :=
  let b := s.focus.bank
  let srcs := baseSrc f.hasBase f.va f.ka ++ [(f.vq.toNat, f.kq)]
  let ea := (s.bank b).vAddr f s.focus.k
  match (if s.known srcs && ea % 64 == 0 then s.windowAt b ea else none) with
  | some (die, off) =>
    let bad := winReserved off || (s.bank b).winFull (winKey die off) 256
    let drop := (s.bank b).winFull (winKey die off) 256 && !winReserved off
    (match s.issueE m true srcs [] (if bad then some (0x0B, BitVec.ofNat 64 ea) else none)
        (fun k _ s => (s.winAppend b die off (leBytes 256 (k.headOf f.vq.toNat).toNat) 0).startOp m 6 .none []) with
     | .next t => .next (if drop && (t.bank b).freeze.isSome then t.modBank b (fun k => k.winDrop (winKey die off)) else t)
     | r => r)
  | none =>
    s.issueE m true srcs [] (if s.known srcs then s.checkV b 256 64 true [ea] else none)
      (fun k _ s => s.startOp m 6 (.vst ea (k.headOf f.vq.toNat)) [])

/-- VGATH (R208). -/
def execVgath (m : Marks) (f : VGatOp) (s : State) : Out :=
  let b := s.focus.bank
  let srcs := baseSrc f.hasBase f.va f.ka ++ [(f.vi.toNat, f.ki)]
  let eas := (s.bank b).vAddrs f
  s.issueE m true srcs [f.vq.toNat] (if s.known srcs then s.checkV b 4 4 false eas else none)
    (fun _ slots s => s.startOp m 6 (.vgath eas f.vq.toNat (slotOf slots f.vq.toNat)) [])

/-- VSCAT (R208). -/
def execVscat (m : Marks) (f : VGatOp) (s : State) : Out :=
  let b := s.focus.bank
  let srcs := baseSrc f.hasBase f.va f.ka ++ [(f.vi.toNat, f.ki), (f.vq.toNat, f.kq)]
  let eas := (s.bank b).vAddrs f
  s.issueE m true srcs [] (if s.known srcs then s.checkV b 4 4 true eas else none)
    (fun k _ s => s.startOp m 6 (.vscat eas (k.headOf f.vq.toNat)) [])

/-! Performing. -/

def State.performVld (s : State) (b ea q slot : Nat) : State × Done :=
  match s.engRead b ea 256 false with
  | (s, v, none) => (s, .ok [.fill q slot (BitVec.ofNat 2048 v)])
  | (s, _, some x) => (s, .stop x)

def State.performVst (s : State) (b ea : Nat) (d : Elem) : State × Done :=
  match s.engWrite b ea 256 d.toNat false false with
  | (s, x) => (s, doneOr x)

def State.performVgath (s : State) (b : Nat) (eas : List Nat) (q slot : Nat) : State × Done :=
  match s.readPieces b 0 false false 0 ((eas.zipIdx).map (fun p => (4 * p.2, Loc.ea p.1, 4))) with
  | (s, v, none) => (s, .ok [.fill q slot (BitVec.ofNat 2048 v)])
  | (s, _, some x) => (s, .stop x)

/-- Every page is looked up before any lane is written; the highest lane of an address is written last. -/
def State.performVscat (s : State) (b : Nat) (eas : List Nat) (d : Elem) : State × Done :=
  match eas.findSome? (fun a =>
      let (s', t) := s.locTgt b (.ea a) 4 true false
      s'.tgtStop b (.ea a) true t) with
  | some x => (s, .stop x)
  | none =>
    match s.writePieces b d.toNat false false ((eas.zipIdx).map (fun p => (4 * p.2, Loc.ea p.1, 4))) with
    | (s, x) => (s, doneOr x)

end Sys2Proof.Machine
end

