-- ==== Sys2Proof/Machine/Perform.lean ====
section
/-! DEFINITION. The events of operations and results: completion (R18), landing (R92), and what one access of an operation in
flight does. -/

namespace Sys2Proof.Machine

/-- What operation o of bank b does when it is looked at: the accesses it has still to perform. -/
def State.performWork (s : State) (b : Nat) (o : Op) : State × Done :=
  match o.todo with
  | .none => (s, .ok [])
  | .vld ea q slot => s.performVld b ea q slot
  | .vst ea d => s.performVst b ea d
  | .vgath eas q slot => s.performVgath b eas q slot
  | .vscat eas d => s.performVscat b eas d
  | .vkst slot head ty k v i rows => s.performVkst b o.id slot head ty k v i rows
  | .cmap g addr => s.performCmap b g addr
  | .cmapSt addr r => s.performCmapSt b addr r
  | .copy r d lr => s.performCopy b r d lr o.lay
  | .fill d pat => s.performFill b d pat o.lay
  | .zc a => s.performZc b a o.lay
  | .gather r d idx => s.performRows b r d idx true o.lay
  | .scatter r d idx => s.performRows b r d idx false o.lay
  | .use a count dead => s.performUse b a count dead o.lay
  | .pref a l1 => s.performPref b a l1 o.lay
  | .seqLd k addr => s.performSeqLd b k addr
  | .seqSt addr r => s.performCmapSt b addr r
  | .seqRope pos d q => s.performSeqRope b pos d q
  | .kv g a d => s.performKv b g a d
  | .relPage h => s.performRelPage b h.toNat
  | .relWin k d => s.performRelWin b k d
  | .relTrunc k d nl => s.performRelTrunc b k d nl
  | .ckcfgLd k addr => s.performCfgLd b k addr
  | .ckcfgClr k => s.performCfgClr b k
  | .kgath k head query q vK vV => s.performKgath b k head query q vK vV
  | .pushes items => s.performPushes b items none
  | .pushesThen items v => s.performPushes b items (some v)
  | .nbr d q op rm sat n => s.performNbr b d q op rm sat n
  | .nbu d e1 e2 vec rm => s.performNbu b d e1 e2 vec rm
  | .halo a h mask flag dil par num => s.performHalo b o.id a h mask flag dil par num o.lay
  | .msg a key num => s.performMsg b a key num
  | .vkstWait | .haloWait .. | .msgWait _ | .bind .. | .sink .. | .peer .. => (s, .more o.todo (s.cycle + 1))
  | .failed .. | .mlease | .mrel | .mfmt .. | .mbld .. | .mbsel _ | .mma .. | .mzero .. | .mdrain .. | .mscale .. => s.performM b o

/-- Work performed whole, in the issue order of its stream, so that its accesses to one byte are (R166, R231, R354). -/
def Work.ordered (w : Work) : Bool :=
  match w with
  | .vld .. | .vst .. | .vgath .. | .vscat .. | .vkst .. | .cmap .. | .cmapSt .. | .copy .. | .fill .. | .zc _ | .gather .. | .scatter ..
  | .use .. | .pref .. | .seqLd .. | .seqSt .. | .seqRope .. | .kv .. | .relPage _ | .relWin .. | .relTrunc .. | .ckcfgLd ..
  | .ckcfgClr _ | .kgath .. | .nbu .. | .halo .. | .msg .. => true
  | _ => false

/-- Work that a C stream performs element by element, as a queue has room or elements. -/
def Work.streams : Work → Bool
  | .nbr .. | .bind .. | .sink .. | .pushes _ | .pushesThen .. => true
  | _ => false

/-- The runs that a bound stream has still to move, from element n of its map's box: as many elements as are left, and without a count
every box that still has an element in bounds. -/
def streamRuns (lay : Option Desc) (r : Rec) (n : Nat) (left : Option Nat) : Nat → List (Nat × Loc × Nat)
  | 0 => []
  | fuel + 1 =>
    let w := elemBytes r
    let total := ceilDiv (boxBytes r) w
    let here := match left with | some l => min l (total - n) | none => total - n
    let top := mapRank r - 1
    withBitmap r (boxPart r lay (w * n) (w * (n + here))) ++
      (if total = 0 ∨ left = some here ∨ (mapExt r top : Int) ≤ mapPos r top then []
       else streamRuns lay (advanceMap r) 0 (left.map (fun l => l - here)) fuel)

/-! The bytes that commands find through tables (R231): read as the command would read them now. -/

/-- Words at virtual addresses, each with its size, as runs. -/
def words (l : List (Nat × Nat)) : List (Nat × Loc × Nat) := l.map (fun x => (0, .ea x.1, x.2))

/-- The table entries and descriptors that the walk of R247 reads. -/
def State.kvReads (s : State) (b p lim : Nat) (d : Rec) : Nat → List (Nat × Nat)
  | 0 => []
  | fuel + 1 =>
    let j := p / 64
    let own := if sqOvl d ≠ 0 ∧ j < ceilDiv (sqFork d) 64 then [((sqOvl d + 8 * j) % 2 ^ 64, 8)] else []
    let hit := own.any (fun _ => (s.entryAt b (sqOvl d) j).2.1.getLsbD 63)
    if hit then own
    else if p < sqFork d then
      own ++ (sqParent d, 64) :: (match s.engRead b (sqParent d) 64 true with
        | (_, v, none) =>
          let d' : Rec := BitVec.ofNat 512 v
          let lim := min (min lim (sqFork d)) (sqLen d')
          if lim ≤ p then [] else State.kvReads s b p lim d' fuel
        | _ => [])
    else own ++ [((sqBtab d + 8 * j) % 2 ^ 64, 8)]

/-- The headers whose references a release drops, and what its frames touch of the free-frame ring (R248 to R250). -/
def State.releaseTouch (s : State) (b : Nat) (heads : List Nat) : List (Nat × Nat) :=
  heads.map (fun h => (h, 4)) ++ (match (s.freeRing b).2 with
    | .ok (some (base, size, hdr)) =>
      let i := (s.engRead b (hdr + 12) 4 true).2.1
      (hdr, 16) :: (List.range heads.length).map (fun k => (base + 8 * ((i + k) % 2 ^ size), 8))
    | _ => [])

/-- The entries that a release clears, with what it releases. -/
def State.entriesTouch (s : State) (b : Nat) (es : List (Nat × Nat)) : List (Nat × Nat) :=
  es.map (fun e => ((e.1 + 8 * e.2) % 2 ^ 64, 8)) ++ (match (s.planEntries b ⟨[], []⟩ es).2 with
    | .ok plan => s.releaseTouch b plan.heads
    | .error _ => [])

/-- The blocks of a bucket's chain (R311). -/
def State.chainReads (s : State) (b array limit i n : Nat) : Nat → List (Nat × Nat)
  | 0 => []
  | fuel + 1 =>
    if n = 0 ∨ !linked limit i then [] else
    let a := (array + 64 * i) % 2 ^ 64
    (a, 64) :: State.chainReads s b array limit ((s.homeBytes b 0 [(0, .ea a, 64)]).2.1 / 2 ^ 480 % 2 ^ 32) (n - 15) fuel

/-- A bucket and its chain. -/
def State.bucketReads (s : State) (b : Nat) (r : Rec) (a : Nat) : List (Nat × Nat) :=
  let v := (s.homeBytes b 0 [(0, .ea a, 64)]).2.1
  let c := min (v % 2 ^ 24) 74
  let p := (s.homeBytes b 0 [(0, .ea (hdOvp r), 16)]).2.1
  (a, 64) :: (if v / 2 ^ 31 % 2 = 1 ∨ c ≤ 14 then []
    else (hdOvp r, 16) :: s.chainReads b (p % 2 ^ 64) (p / 2 ^ 64 % 2 ^ 32) (v / 2 ^ 480 % 2 ^ 32) (c - 14) 4)

/-- What CKGATH reads: its four buckets, and the rows of its candidates. -/
def State.kgathReads (s : State) (b : Nat) (h : HeadSlot) (query : Elem) (q : Nat) : List (Nat × Nat) :=
  let r := h.record
  let x := rowElems r query 0
  let u := (s.allTokens b h x [0, 1, 2, 3]).2.2.1
  [0, 1, 2, 3].flatMap (fun t => s.bucketReads b r (bucketAddr r t (signature h.proj (hdType r) x t))) ++
    (candidates r q u).flatMap (fun t => [(keyRow r t, hdRow r), (valueRow r t, hdRow r)])

/-- The rows that pushes have still to read. -/
def rowReads (items : List PushItem) : List (Nat × Nat) :=
  items.filterMap (fun x => x.addr.map (fun a => (a, (x.parts.map (fun p => p.2.2)).sum)))

/-- The bytes that work of a C stream has still to touch, and whether it writes them. `one` asks for the next element only. -/
def State.touches (s : State) (b : Nat) (w : Work) (lay : Option Desc) (one : Bool) : List (Bool × List (Nat × Loc × Nat)) :=
  let some1 := fun (left : Option Nat) => if one then some 1 else left
  let box := fun (r : Rec) => withBitmap r (boxRuns r lay)
  match w with
  | .cmap _ a | .seqLd _ a => [(false, words [(a, 64)])]
  | .cmapSt a _ | .seqSt a _ => [(true, words [(a, 64)])]
  | .copy r d lr => [(false, box r), (true, box d)] ++
      (if lr then [(true, words (s.releaseTouch b [wrap 64 ((mapBase r : Int) - 64)]))] else [])
  | .fill d _ => [(true, box d)]
  | .zc a => [(true, zcRuns a lay)]
  | .msg a .. => [(false, box a)]
  | .halo a h mask _ _ par _ => (false, box a) :: (match lay with
      | some x => ((maskFaces mask).filter (fun f => (haloNeighbour (bankDie b) x f).isNone)).map (fun f =>
          (true, words [(haloBuf h a x f (if par.testBit f then 1 else 0), faceBuf a x f)]))
      | none => [])
  | .gather r d idx => [(false, withBitmap r (indexedRuns r lay idx)), (true, withBitmap d (orderedRuns d lay idx.length))]
  | .scatter r d idx => [(false, withBitmap r (orderedRuns r lay idx.length)), (true, withBitmap d (indexedRuns d lay idx))]
  | .seqRope pos d _ => [(false, words [(sqRope d + (if pos < (sqSwpos d : Int) then 0 else 256), 256)])]
  | .kv _ a d =>
    let p := mapPos a 1
    [(false, if p < 0 ∨ (sqLen d : Int) ≤ p then [] else words (s.kvReads b p.toNat (sqLen d) d 5))]
  | .relPage h => [(true, words (s.releaseTouch b [h.toNat]))]
  | .relWin _ d => [(true, words (s.entriesTouch b ((winPages d).flatMap (winEntries d))))]
  | .relTrunc _ d nl =>
    [(true, words (s.entriesTouch b (((List.range (ceilDiv (sqLen d) 64)).filter (fun j => decide (nl ≤ 64 * j))).map (fun j => (sqBtab d, j)))))]
  | .ckcfgLd _ a => [(false, words [(a, 832)])]
  | .kgath k head query q _ _ =>
    [(false, match head.or (s.headSlot b k) with | some h => words (s.kgathReads b h query (q.toNat % 2 ^ 32)) | none => [])]
  | .pushes items | .pushesThen items _ => [(false, words (rowReads items))]
  | .nbr d _ _ _ _ n => [(true, boxPart d none (256 * n) (if one then 256 * n + 256 else boxBytes d))]
  | .nbu d .. => [(true, boxRuns d none)]
  | .bind _ _ left n r => [(false, streamRuns lay r n (some1 left) 65536)]
  | .sink _ _ left n r => [(true, streamRuns lay r n (some1 left) 65536)]
  | _ => []

/-- Two C operations touch a common byte that one of them writes: all that the earlier has still to touch counts, and of the later what it
is about to (R231). -/
def State.conflict (s : State) (b : Nat) (x o : Op) : Bool :=
  (s.touches b x.todo x.lay false).any (fun p => (s.touches b o.todo o.lay true).any (fun q => (p.1 || q.1) && s.overlap b p.2 q.2))

/-- Accesses of the operation must follow those of an earlier one of its stream (R166, R231, R354): of work performed whole, of a C stream
that moves element by element where they share a byte, and of an MBLD of the same slot. -/
def State.behindOp (s : State) (b : Nat) (o : Op) : Bool :=
  ((s.bank b).ops.filter (fun x => x.point == o.point && decide (x.id < o.id))).any (fun x =>
    (o.todo.ordered && x.todo.ordered) ||
    ((x.todo.streams || o.todo.streams) && s.conflict b x o) ||
    (match x.todo, o.todo with
     | .mbld _ _ slot _, .mbld _ _ slot' _ => slot == slot'
     | _, _ => false))

/-- A dense fallback held by the bank is taken: its streams stop and S will take TCAUSE 0x0D (R312). -/
def State.takeHeld (s : State) (b : Nat) : State :=
  let k := s.bank b
  if k.ts || k.freeze.isSome then s else
  match k.held with
  | [] => s
  | (v, pos) :: t => (s.modBank b (fun k => { k with held := t })).freezeBy b (some .c) 0x0D v pos

/-- WORD_COMPLETION: operation id of bank b, when its time has come, performs what it can and completes. An operation that
waits for a page does so until the answer. -/
def execWordCompletion (b id : Nat) (s : State) : Out :=
  .next (match (s.bank b).ops.find? (fun o => o.id == id) with
    | none => s
    | some o =>
      if decide (s.cycle < o.ready) || s.behindOp b o || (o.parked && !(s.bank b).parked.isEmpty) then s else
      let (s, d) := s.performWork b { o with parked := false }
      (s.applyDone b { o with parked := false } d).takeHeld b)

/-- S_RESULT_LAND: pending result id of bank b lands in a cycle after its issue (R92), once it has its value. -/
def execSResultLand (b id : Nat) (s : State) : Out :=
  .next (match (s.bank b).pend.find? (fun p => p.id == id) with
    | none => s
    | some p =>
      if p.landed || decide (s.cycle ≤ p.issued) || p.page.isSome then s
      else (s.modBank b (fun k => k.land s.cycle p)).wakeFence b)

end Sys2Proof.Machine
end

