-- ==== Sys2Proof/Machine/ScalarFabric.lean ====
section
/-! DEFINITION. The S words of the fabric and the layout: FTIME (R438), FTHR (R447), RGRP (R456), LAYSEL (R405), RSHRD (R413),
FPOST (R459, R460), RASAVE and RALOAD (R449). -/

namespace Sys2Proof.Machine

/-! Fabric time (R437, R438). -/

def execFtime (m : Marks) (d : SReg) (s : State) : Out :=
  s.issueS m true none (fun s => s.resultS m d (BitVec.ofNat 64 s.ft) false 4)

/-- A waiting FTIME.until completes in the first cycle in which FT has reached its target. -/
def State.pollFtime (s : State) (b : Nat) : State :=
  match (s.bank b).blocked with
  | some ⟨.ftime d target, _, _⟩ => if target.toNat ≤ s.ft then s.unblock b (some (d, BitVec.ofNat 64 s.ft)) else s
  | _ => s

def execFtimeUntil (m : Marks) (d a : SReg) (s : State) : Out :=
  let b := s.focus.bank
  s.issueS m true (s.poisonTrap b [a.toNat]) (fun s => (s.blockS m (.ftime d.toNat (s.sVal b a.toNat))).pollFtime b)

/-- FTHR (R447): the throttle level and the deflections of the last window. -/
def execFthr (m : Marks) (d : SReg) (s : State) : Out :=
  s.issueS m true none (fun s =>
    let x := s.die (bankDie s.focus.bank)
    s.resultS m d (BitVec.ofNat 64 (x.level % 8 + min 255 x.lastWin * 256)) false 2)

/-! RGRP (R456). -/

/-- A group word that may not be installed: reserved bits, a box that leaves the domain, a reserved TYPE or OP. -/
def State.groupBad (s : State) (d : Nat) (w : W64) : Bool :=
  let (dx, dy, dz) := (s.die d).dims
  let ((ox, oy, oz), (nx, ny, nz)) := groupBox w
  fld w 34 29 != 0 || fld w 32 2 == 3 || (groupType w).isNone || decide (dx < ox + nx) || decide (dy < oy + ny) || decide (dz < oz + nz)

def execRgrp (m : Marks) (a c : SReg) (s : State) : Out :=
  let b := s.focus.bank
  let x := s.sVal b a.toNat
  let w := s.sVal b c.toNat
  s.issueS m true (firstTrap [s.poisonTrap b [a.toNat, c.toNat],
      trapIf (fld x 4 60 != 0 || s.groupBad (bankDie b) w) 0x0B w])
    (fun s => (s.modDie (bankDie b) (fun d =>
      let key := groupKey (s.bank b).seq (fld x 0 4)
      { d with groups := if w.getLsbD 63 then d.groups.set key w else SMap.erase d.groups key })).doneS m)

/-! LAYSEL (R405). -/

/-- The dies that hold jobs of a launch. -/
def State.launchDies (s : State) (seq : Nat) : List Nat :=
  match s.launchOf seq with
  | none => []
  | some l => l.diesUsed

/-- A layout on its way to Zenith; the bank waits for its install. -/
def State.sendLayout (s : State) (m : Marks) (desc : Option Desc) : State :=
  let b := s.focus.bank
  let seq := (s.bank b).seq
  let (id, s) := s.newId
  (s.modHub (pkgOfSeq seq) (fun h => { h with installs := h.installs ++ [⟨seq, b, id, desc⟩] })).blockS m (.laysel id)

def execLaysel (m : Marks) (a : SReg) (s : State) : Out :=
  let b := s.focus.bank
  let ea := s.sVal b a.toNat
  let seq := (s.bank b).seq
  let pre := firstTrap [s.poisonTrap b [a.toNat], trapIf (s.reshardLive seq) 0x12 5]
  if pre.isNone ∧ ea = 0 then s.issueS m true none (fun s => s.sendLayout m none) else
  s.issueRecord m true (firstTrap [pre, trapIf (ea.toNat % 128 != 0) 0x04 ea, trapIf (decide (2 ^ 48 ≤ ea.toNat)) 0x05 ea]) (.laysel m a) ea 16
    (fun v =>
      let x : Desc := BitVec.ofNat 1024 v
      firstTrap [trapIf (!x.valid (s.die (bankDie b)).dims) 0x12 3,
        trapIf (x.dies.foldl insertNat [] != s.launchDies seq) 0x12 4])
    (fun v s => s.sendLayout m (some (BitVec.ofNat 1024 v)))

/-! RSHRD (R412 to R414, R417). -/

/-- An entry of a re-shard table: DPOS and SLOTS. -/
def Die.rsEntry (d : Die) (t i : Nat) : Nat × Nat :=
  let w := d.rsTable.get 0 (t * 16384 + i)
  (fld w 0 16, fld w 16 8)

/-- A table is valid for a layout of n dies (R412). -/
def Die.rsValid (d : Die) (t n : Nat) : Bool :=
  let es := (List.range n).map (d.rsEntry t)
  fld (d.reg (0x30010 + 8 * t)) 0 15 == n && es.all (fun e => decide (1 ≤ e.2) && decide (e.1 < n)) && !hasRepeat (es.map (fun e => e.1))

/-- n bytes at a virtual address of a bank, read at home or in the local memory; none where they cannot be read. -/
def State.readHome (s : State) (b ea n : Nat) : Nat → State × Option Nat
  | 0 => (s, some 0)
  | fuel + 1 =>
    if n = 0 then (s, some 0) else
    let k := min n (64 - ea % 64)
    let (s, t) := s.resolve b ea k false false
    let got := match t with
      | .mem pa _ _ => (let (s, v, bad) := s.homeLoad pa k; (s, if bad then none else some v))
      | .sp c off => (s, if (s.core c).sp.marked off k then none else some ((s.core c).sp.load off k))
      | .shm c off => (s, if (s.cluster c).shm.marked off k then none else some ((s.cluster c).shm.load off k))
      | _ => (s, none)
    match got with
    | (s, none) => (s, none)
    | (s, some v) =>
      match State.readHome s b (ea + k) (n - k) fuel with
      | (s, none) => (s, none)
      | (s, some w) => (s, some (v + 256 ^ k * w))

/-- The report of a die whose last job has issued its RSHRD: 0, or reason 4 or 5 of R417, and the new layout (R414). -/
def State.reshardReport (s : State) (b : Nat) (seq : Nat) (a ctl : W64) : State × Nat × Option Desc :=
  let d := s.die (bankDie b)
  let n := match d.layout seq with | some x => ldDies x | none => 0
  if !d.rsValid (fld ctl 7 2) n then (s, 4, none)
  else if a = 0 then (s, 0, none)
  else match s.readHome b a.toNat 128 4 with
    | (s, none) => (s, 5, none)
    | (s, some v) =>
      let x : Desc := BitVec.ofNat 1024 v
      if x.valid d.dims then (s, 0, some x) else (s, 5, none)

/-- RSHRD (R413): it completes at issue; the last job on a die makes the die's report. -/
def execRshrd (m : Marks) (a c e : SReg) (s : State) : Out :=
  let b := s.focus.bank
  let die := bankDie b
  let seq := (s.bank b).seq
  let jidx := match (s.bank b).job with | some j => j.jidx | none => 0
  let (x, ctl, t0) := (s.sVal b a.toNat, s.sVal b c.toNat, s.sVal b e.toNat)
  let again := match (s.die die).reshardOf seq with
    | some r => r.inflight && (r.running || r.ops.any (fun o => o.1 == jidx))
    | none => false
  let lsip := (s.hub (pkgOfSeq seq)).installs.any (fun i => i.seq == seq)
  s.issueS m true (firstTrap [s.poisonTrap b [a.toNat, c.toNat, e.toNat],
      trapIf ((s.die die).layout seq).isNone 0x12 1, trapIf lsip 0x12 5, trapIf (x.toNat % 128 != 0) 0x04 x,
      trapIf (fld ctl 9 55 != 0) 0x15 1, trapIf again 0x15 2])
    (fun s =>
      let r : Reshard := match (s.die die).reshardOf seq with
        | some r => if r.inflight then r else ⟨seq, [], false, 0, none, false, 0, false, false, false, false, true, []⟩
        | none => ⟨seq, [], false, 0, none, false, 0, false, false, false, false, true, []⟩
      let r := { r with ops := r.ops ++ [(jidx, x, ctl, t0)] }
      let jobs := match s.launchOf seq with
        | some l => (l.jobs.filter (fun p => bankDie p.bank == die && !p.over)).length
        | none => 1
      let (s, r) := if r.ops.length < jobs then (s, r) else
        (let (s, bad, desc) := s.reshardReport b seq x ctl
         (s, { r with reported := true, bad := bad, newDesc := desc }))
      (s.modDie die (fun d => { d with reshards := d.reshards.filter (fun q => q.seq != seq) ++ [r] })).doneS m)

/-! Collective commands (R459 to R461). -/

def ccOp (c : Rec) : Nat := fld c 0 4
def ccRop (c : Rec) : Nat := fld c 4 2
def ccType (c : Rec) : Option EType := EType.fromNat (fld c 6 4)
def ccTT (c : Rec) : Bool := c.getLsbD 10
def ccDL (c : Rec) : Bool := c.getLsbD 11
def ccGrp (c : Rec) : Nat := fld c 12 4
def ccWflag (c : Rec) : Option Nat := if c.getLsbD 22 then some (fld c 16 6) else none
def ccSflag (c : Rec) : Option Nat := if c.getLsbD 29 then some (fld c 23 6) else none
def ccSrc (c : Rec) : Nat := fld c 64 48
def ccDst (c : Rec) : Nat := fld c 128 48
def ccExt (c : Rec) (i : Nat) : Nat := fld c (192 + 16 * i) 16
def ccStr (c : Rec) (i : Nat) : Int := signed 32 (fld c (224 + 32 * i) 32)
def ccMask (c : Rec) : Nat := fld c 352 64
def ccDlrel (c : Rec) : Nat := fld c 416 32
def ccStart (c : Rec) : Nat := fld c 448 64
def ccEsize (c : Rec) : Nat := match ccType c with | some t => t.esize | none => 1

/-- The address of the row of dimension 0 at (i1, i2, i3) from a base. -/
def ccAddr (c : Rec) (base i1 i2 i3 : Nat) : Nat :=
  ((base : Int) + (i1 : Int) * ccStr c 1 + (i2 : Int) * ccStr c 2 + (i3 : Int) * ccStr c 3).toNat

/-- Lowest address and end of the rows with dimension 3 from lo to hi - 1. -/
def ccSpan (c : Rec) (base lo hi : Nat) : Int × Int :=
  let far := fun (i : Nat) (n : Nat) => ((n : Int) - 1) * ccStr c i
  let d1 := far 1 (ccExt c 1)
  let d2 := far 2 (ccExt c 2)
  let e0 := (lo : Int) * ccStr c 3
  let e1 := ((hi : Int) - 1) * ccStr c 3
  let low := (base : Int) + min 0 d1 + min 0 d2 + min e0 e1
  let high := (base : Int) + max 0 d1 + max 0 d2 + max e0 e1 + ((ccExt c 0 * ccEsize c : Nat) : Int)
  (low, high)

/-- The dimension-3 indices of a member's box: the full box or slice m (R461); `src` chooses SRC or DST. -/
def ccSlice (c : Rec) (src : Bool) (n m : Nat) : Nat × Nat :=
  let full := (0, ccExt c 3)
  let part := (m * ccExt c 3 / n, (m + 1) * ccExt c 3 / n)
  match ccOp c with
  | 1 => if src then full else part
  | 2 => if src then (0, ccExt c 3 / n) else full
  | _ => full

/-- A span lies in the job's scratchpad range, in shared memory, or under the aperture (R459). -/
def Bank.spanOk (k : Bank) (lo hi : Int) : Bool :=
  decide (0 ≤ lo) &&
  (k.inRange lo.toNat (hi - lo).toNat ||
   (decide (0x400000 ≤ lo) && decide (hi ≤ 0x800000)) ||
   -- every 2 MiB block of the span lies in some entry
   (decide (0x1000000 ≤ lo) && decide (hi ≤ (2 ^ 48 : Nat)) &&
    ((k.apertures.filter apValid).foldl (fun (n : Nat) e =>
      n + (min hi.toNat (apBase e + 2 ^ apSize e) - max lo.toNat (apBase e))) 0) == (hi - lo).toNat))

/-- Member m of a group is admitted (R460). -/
def ccAdmits (c : Rec) (m : Nat) : Bool := (ccMask c).testBit (m % 64)

/-- The place after the result box where the summary stands (R463), and its length. -/
def ccSummaryAt (c : Rec) (lo hi : Int) : Nat := ccDst c + 256 * ceilDiv (hi - lo).toNat 256
def ccSummaryLen (n : Nat) : Nat := 8 + 8 * ceilDiv n 64

/-- The ERROR of a command, 0 when it is accepted (R459); the lowest code stands. -/
def State.postError (s : State) (b : Nat) (c : Rec) : Nat :=
  let die := bankDie b
  let t := fld c 6 4
  if fld c 30 34 != 0 || fld c 112 16 != 0 || fld c 176 16 != 0 || decide (4 < ccOp c) || ccRop c == 3 ||
     (decide (1 < ccOp c) && ccRop c != 0) || (!ccDL c && ccDlrel c != 0) || (!ccTT c && ccStart c != 0) ||
     [0, 1, 2, 3].any (fun i => ccExt c i == 0) || ccDst c % 256 != 0 || ccSrc c % ccEsize c != 0 then 1
  else match (s.die die).groups.find? (groupKey (s.bank b).seq (ccGrp c)) with
    | none => 2
    | some w =>
      let ds := groupDies w
      let n := ds.length
      match ds.findIdx? (fun d => d == die) with
      | none => 3
      | some me =>
        if (if ccOp c ≤ 1 then t != 0 && t != 2 && t != 6 else decide (10 < t) || t == 5) ||
           ((ccOp c == 1 || ccOp c == 2 || ccOp c == 4) && ccExt c 3 % n != 0) then 4
        else
          let (a, z) := ccSlice c true n me
          let (lo, hi) := ccSpan c (ccSrc c) a z
          let (a', z') := ccSlice c false n me
          let (lo', hi') := ccSpan c (ccDst c) a' z'
          let sum := ccSummaryAt c lo' hi'
          if !(s.bank b).spanOk lo hi || !(s.bank b).spanOk lo' hi' ||
             !(s.bank b).spanOk (sum : Int) ((sum + ccSummaryLen n : Nat) : Int) then 5
          else if !ccAdmits c me then 6
          else 0

/-- The dies of an instance's group, in member order, and the issuer's member index. -/
def State.collDies (s : State) (cl : Nat) (x : Coll) : List Nat :=
  match (s.die (cl / 16)).groups.find? (groupKey x.seq (ccGrp x.cmd)) with
  | some w => groupDies w
  | none => []
def State.collMe (s : State) (cl : Nat) (x : Coll) : Nat := ((s.collDies cl x).findIdx? (fun d => d == cl / 16)).getD 0

/-- The rows of a box with dimension 3 in a range, in box order, as addresses from a base. -/
def ccRows (c : Rec) (base : Nat) (r : Nat × Nat) : List Nat :=
  (List.range (r.2 - r.1)).flatMap (fun i3 => (List.range (ccExt c 2)).flatMap (fun i2 =>
    (List.range (ccExt c 1)).map (fun i1 => ccAddr c base i1 i2 (r.1 + i3))))
def ccRowLen (c : Rec) : Nat := ccExt c 0 * ccEsize c
def ccBytes (c : Rec) (r : Nat × Nat) : Nat := (r.2 - r.1) * ccExt c 2 * ccExt c 1 * ccRowLen c

/-- Rows read at home or in a local memory; what cannot be read is undefined (R9). -/
def State.ccRead (s : State) (b n : Nat) : List Nat → State × List Byte
  | [] => (s, [])
  | a :: t =>
    let (s, v) := match s.readHome b a n (n / 64 + 2) with
      | (s, some v) => (s, v)
      | (s, none) => (s.spend, (s.freeWord (8 * n) 0).toNat)
    let (s, rest) := State.ccRead s b n t
    (s, leBytes n v ++ rest)

/-- What SRC holds, for what the members take of it. -/
def State.ccImage (s : State) (cl : Nat) (x : Coll) : List Byte :=
  let n := (s.collDies cl x).length
  if ccOp x.cmd = 3 ∧ s.collMe cl x ≠ 0 then [] else
  let e := ccExt x.cmd 3
  (s.ccRead x.bank (ccRowLen x.cmd) (ccRows x.cmd (ccSrc x.cmd) (0, if ccOp x.cmd = 2 then e / n else e))).2

/-- FPOST (R459): the master core's alone; it waits while the engine holds 16 commands. -/
def execFpost (m : Marks) (d a : SReg) (s : State) : Out :=
  let b := s.focus.bank
  let k := s.bank b
  let ea := s.sVal b a.toNat
  let cl := bankCluster b
  let sp := (s.core (bankCore b)).sp
  let bad := (List.range 8).find? (fun i => sp.marked (ea.toNat + 8 * i) 8)
  let trap := firstTrap [(if s.isMaster b then none else some (privilege (.fpost m d a))), s.poisonTrap b [a.toNat],
    trapIf (ea.toNat % 64 != 0) 0x04 ea, trapIf (!k.inRange ea.toNat 64) 0x05 ea,
    (match bad with | some i => some ⟨0x16, ea + BitVec.ofNat 64 (8 * i)⟩ | none => none)]
  s.issueS m (trap.isSome || decide ((s.cluster cl).coll.length < 16)) trap (fun s =>
    let c : Rec := BitVec.ofNat 512 (sp.load ea.toNat 64)
    let err := s.postError b c
    if err ≠ 0 then s.nowS m d (BitVec.ofNat 64 (err * 256)) else
    let key := groupKey k.seq (ccGrp c)
    let n := (s.cluster cl).inst.get 0 key
    let x : Coll := ⟨c, n % 65536, b, k.seq, pkgOf (bankDie b), false, false, .queued, 0, false, false, false, [], [], [], []⟩
    (s.modCluster cl (fun y => { y with
      coll := y.coll ++ [{ x with image := s.ccImage cl x }], inst := y.inst.set key ((n + 1) % 65536),
      collDone := y.collDone.filter (fun q => q != (k.seq, ccGrp c, n % 65536)) })).nowS m d
      (BitVec.ofNat 64 (1 + n % 65536 * 65536)))

/-! RASAVE and RALOAD (R449). -/

/-- The header of a reassembly entry, with IDX and AGE zero (R439). -/
def RasmEntry.header (e : RasmEntry) (die : Nat) : Nat :=
  die + e.src * 2 ^ 14 + e.kind * 2 ^ 37 + (e.nf - 1) * 2 ^ 47 + e.pkt * 2 ^ 53 + e.offset * 2 ^ 65 + e.aux * 2 ^ 107

/-- The flits an entry has received, as a mask. -/
def RasmEntry.mask (e : RasmEntry) : Nat := (List.range 64).foldl (fun m i => if (e.got.find? i).isSome then m + 2 ^ i else m) 0

/-- The 4,160 bytes of an entry in an image: header, mask, and slots. -/
def RasmEntry.image (e : RasmEntry) (die : Nat) : Nat :=
  e.header die + e.mask * 2 ^ 128 + (packElems 512 ((List.range 64).map (fun i => (e.got.get 0 i).toNat))) * 2 ^ 512

/-- A save image is checked in blocks of 64 bytes: each must be memory that the bank's aperture reaches (R95 to R98). -/
def State.imageTrap (s : State) (b ea blocks : Nat) (wr : Bool) : Option Trap :=
  firstTrap ((List.range blocks).map (fun i =>
    let a := BitVec.ofNat 64 (ea + 64 * i)
    match (s.resolve b (ea + 64 * i) 64 wr false).2 with
    | .mem .. => none
    | .absent .. => some ⟨0x06, a⟩
    | .win .. | .red .. => some ⟨0x0B, a⟩
    | _ => some ⟨0x05, a⟩))

/-- 64-byte blocks written at home at a virtual address of the bank. -/
def State.writeImage (s : State) (b ea data : Nat) : Nat → State
  | 0 => s
  | n + 1 =>
    let s := State.writeImage s b ea data n
    match s.resolve b (ea + 64 * n) 64 true false with
    | (s, .mem pa _ _) => s.physWrite (bankDie b) pa 64 (data / 2 ^ (512 * n) % 2 ^ 512) false 3
    | (s, _) => s

/-- Entries charged to a bank as destination: messages and bulk writes for its job (R449). -/
def State.rasmOf (s : State) (b : Nat) : List RasmEntry :=
  (s.die (bankDie b)).rasm.filter (fun e => e.bank == b && e.seq == (s.bank b).seq && (e.kind == 8 || e.kind == 9))

/-- The entries in images but those of the job of a launch on a bank. -/
def Die.dropKept (d : Die) (b seq : Nat) : List RasmEntry := d.rasmKept.filter (fun e => !(e.bank == b && e.seq == seq))

def execRasave (m : Marks) (a : SReg) (s : State) : Out :=
  let b := s.focus.bank
  let ea := s.sVal b a.toNat
  let es := s.rasmOf b
  let blocks := 1 + 65 * es.length
  s.issueS m true
    (firstTrap [(if (s.bank b).sv then none else some (privilege (.rasave m a))), s.poisonTrap b [a.toNat],
      trapIf (ea.toNat % 256 != 0) 0x04 ea, trapIf ((s.readCw b cwRASTAT).getLsbD 0) 0x0B (s.readCw b cwRASTAT),
      s.imageTrap b ea.toNat blocks true])
    (fun s =>
      let image := es.length + packElems 33280 (es.map (fun e => e.image (bankDie b))) * 2 ^ 512
      let s := s.writeImage b ea.toNat image blocks
      let s := s.modDie (bankDie b) (fun d => { d with
        rasm := d.rasm.filter (fun e => !es.contains e),
        rasmKept := d.dropKept b (s.bank b).seq ++ es })
      let s := s.modBank b (fun k => ((k.putCw cwRASTAT 0 1 1).putCw cwRASTAT 7 6 es.length).putCw cwRASTAT 16 40 (ea.toNat / 256))
      s.doneS m)

/-- An entry of an image. The die's interface still knows the sender, the launch, the length and the markers of a packet it removed;
they have no place in the image (DEDUCED, log 23). -/
def rasmFrom (kept : List RasmEntry) (b v : Nat) : RasmEntry :=
  let src := v / 2 ^ 14 % 2 ^ 14
  let pkt := v / 2 ^ 53 % 2 ^ 12
  let nf := v / 2 ^ 47 % 64 + 1
  let k := kept.find? (fun e => e.src == src && e.pkt == pkt)
  let mask := v / 2 ^ 128 % 2 ^ 64
  { src := src, pkt := pkt, nf := nf, bank := b, kind := v / 2 ^ 37 % 16,
    len := (match k with | some e => e.len | none => nf * 64), offset := v / 2 ^ 65 % 2 ^ 42, aux := v / 2 ^ 107 % 2 ^ 16,
    marks := (match k with | some e => e.marks | none => 0),
    srcBank := (match k with | some e => e.srcBank | none => 0), seq := (match k with | some e => e.seq | none => 0),
    got := (List.range 64).filterMap (fun i =>
      if mask.testBit i then some (i, BitVec.ofNat 512 (v / 2 ^ (512 * (i + 1)) % 2 ^ 512)) else none) }

/-- The image of a RALOAD: its entries, or the trap it raises (R449). -/
def State.readImage (s : State) (b ea : Nat) : State × Except Trap (List RasmEntry) :=
  match s.imageTrap b ea 1 false with
  | some t => (s, .error t)
  | none =>
    match s.readHome b ea 64 2 with
    | (s, none) => (s, .error ⟨0x16, BitVec.ofNat 64 ea⟩)
    | (s, some h) =>
      let n := h % 65536
      let stat := s.readCw b cwRASTAT
      if 32 < n then (s, .error ⟨0x0B, stat⟩) else
      match s.imageTrap b ea (1 + 65 * n) false with
      | some t => (s, .error t)
      | none =>
        match s.readHome b (ea + 64) (4160 * n) (65 * n + 2) with
        | (s, none) => (s, .error ⟨0x16, BitVec.ofNat 64 ea⟩)
        | (s, some v) =>
          let d := s.die (bankDie b)
          let es := (unpackElems 33280 n v).map (rasmFrom (d.rasmKept.filter (fun e => e.bank == b && e.seq == (s.bank b).seq)) b)
          if es.any (fun e => d.rasm.any (fun x => x.src == e.src && x.pkt == e.pkt)) then (s, .error ⟨0x0B, stat⟩)
          else (s, .ok es)

/-- The entries reinstated, with SAVED cleared. -/
def State.reinstate (s : State) (b : Nat) (es : List RasmEntry) : State :=
  let s := s.modDie (bankDie b) (fun d => { d with
    rasm := d.rasm ++ es, rasmKept := d.dropKept b (s.bank b).seq })
  s.modBank b (fun k => k.putCw cwRASTAT 0 1 0)

def execRaload (m : Marks) (a : SReg) (s : State) : Out :=
  let b := s.focus.bank
  let ea := s.sVal b a.toNat
  let pre := firstTrap [(if (s.bank b).sv then none else some (privilege (.raload m a))), s.poisonTrap b [a.toNat],
    trapIf (ea.toNat % 256 != 0) 0x04 ea]
  match pre with
  | some t => s.issueS m true (some t) (fun s => s)
  | none =>
    match s.readImage b ea.toNat with
    | (_, .error t) => s.issueS m true (some t) (fun s => s)
    | (s', .ok es) =>
      s'.issueS m (decide ((s.die (bankDie b)).rasm.length + es.length ≤ 256)) none (fun s => (s.reinstate b es).doneS m)

end Sys2Proof.Machine
end

