-- ==== Sys2Proof/Machine/EvStream.lean ====
section
/-! DEFINITION. The events of a bank's streams: flags (R20, R22), fetching ahead (R26, R148), waits (R33, R112, R129, R438), the
watchdog (R127) and traps (R142, R147, R390). -/

namespace Sys2Proof.Machine

/-! Flags. -/

/-- FLAG_UNIT_CYCLE: step 1 of R20. Step 2 is part of each word's own issue. -/
def execFlagUnitCycle (b : Nat) (s : State) : Out := .next (s.flagUnit b)

/-- The job of a launch that a bank held when it was pre-empted (R387). -/
def State.savedOn (s : State) (b seq : Nat) : Bool :=
  match s.launchOf seq with
  | some l => l.jobs.any (fun p => p.bank == b && p.phase == .saved)
  | none => false

/-- A live job: it has started and its bank is not yet freed (R22). -/
def Bank.started (k : Bank) : Bool :=
  match k.job with
  | some j => j.phase != .placed
  | none => false

/-- A flag increment for the job of a launch on a bank: made, or held while the job is pre-empted (R19, R387). -/
def State.agentFlag (s : State) (b seq f : Nat) : State :=
  let x := s.bank b
  if x.started && x.seq == seq then s.modBank b (fun k => k.agentInc s.cycle f)
  else if !s.savedOn b seq then s
  else
    let i : RIncr := ⟨b, f, some seq, s.cycle, b⟩
    if 1024 ≤ (s.die (bankDie b)).heldIncs.length then { s with incs := s.incs ++ [i] }
    else s.modDie (bankDie b) (fun d => { d with heldIncs := d.heldIncs ++ [i] })

/-- REMOTE_INCREMENT: the k-th increment in transit arrives (R22): it is applied to a live job of its launch, held for a
pre-empted one (up to 1,024 to a die, R387), or discarded. -/
def execRemoteIncrement (k : Nat) (s : State) : Out :=
  .next (match s.incs[k]? with
    | none => s
    | some i =>
      let s' := { s with incs := s.incs.eraseIdx k }
      let x := s.bank i.bank
      let mine := match i.seq with | none => true | some q => x.seq == q
      if x.started && mine then s'.modBank i.bank (fun x => x.agentInc s.cycle i.flag)
      else match i.seq with
        | none => s'
        | some q =>
          if !s.savedOn i.bank q then s'
          else if 1024 ≤ (s.die (bankDie i.bank)).heldIncs.length then s
          else s'.modDie (bankDie i.bank) (fun d => { d with heldIncs := d.heldIncs ++ [i] }))

/-! Fetching ahead. -/

/-- RING_FETCH: an issue point takes the word at its position from the scratchpad before its turn (R26). -/
def execRingFetch (b : Nat) (p : Point) (s : State) : Out :=
  let k := s.bank b
  let pos := k.pointPos p
  .next (if p == .s || !k.running || s.fetchable b p == 0 then s else
    let (w, bad) := s.ringWord b p pos
    (if s.ringSpoilt b p pos then s.spend else s).modBank b (fun k => { k with ringBuf := k.ringBuf.set p.index (pos, w, bad) }))

/-- S_FETCH: the word at pc is fetched ahead; what keeps it from being fetched raises nothing now (R148). -/
def execSFetch (b : Nat) (s : State) : Out :=
  let k := s.bank b
  .next (if !k.running || k.fetched.any (fun x => x.1 == k.pc.toNat) then s else
    match s.fetchWord b k.pc with
    | (s', .word w bad) => s'.modBank b (fun k => { k with fetched := k.fetched ++ [(k.pc.toNat, w, bad)] })
    | _ => s)

/-! Waits. -/

/-- No page request and no freeze holds the bank. -/
def Bank.awake (k : Bank) : Bool := k.parked.isEmpty && k.freeze.isNone

/-- WAITF_COMPLETE. -/
def execWaitfComplete (b : Nat) (s : State) : Out := .next (if (s.bank b).awake then s.pollWaitf b else s)
/-- PARK_WAKE. -/
def execParkWake (b : Nat) (s : State) : Out := .next (if (s.bank b).awake then s.pollPark b else s)
/-- PHASE_BARRIER_COMPLETE. -/
def execPhaseBarrierComplete (b : Nat) (s : State) : Out := .next (s.wakePhase b)
/-- FTIME_UNTIL_TARGET_REACHED. -/
def execFtimeUntilTargetReached (b : Nat) (s : State) : Out := .next (if (s.bank b).awake then s.pollFtime b else s)

/-- A blocking word that a fault of S takes the place of: it will run again at EPC, with its consume and its at-issue increment made
(R23, R152), and a PHASE has not arrived (DEDUCED, log 18). -/
def Bank.abandon (k : Bank) : Bank :=
  match k.blocked with
  | none => k
  | some w =>
    if k.resumable then k else
    { k with blocked := none, skipWait := true, heldWait := false,
             phases := match w.kind with
               | .phase level => k.phases.set level (k.phases.get 0 level - 1)
               | _ => k.phases }

/-- WATCHDOG_EXPIRY: no stream of a running job has issued in LIMIT x 1,024 whole cycles while one waits (R127). A job whose four streams
have reached the rendezvous waits for nothing of its own. -/
def execWatchdogExpiry (b : Nat) (s : State) : Out :=
  let k := s.bank b
  let limit := fld (k.cw cwWDOG) 0 24
  let waits := match k.blocked with
    | some ⟨.rendez _, _, _⟩ => [Engine.v, .c, .m].all k.atRendezvous
    | _ => false
  .next (if limit == 0 || waits || !k.awake || !(match k.job with | some j => j.phase == .running | none => false) ||
      decide (s.cycle ≤ k.idleSince + limit * 1024) then s
    else (s.modBank b (fun k => { k.abandon with idleSince := s.cycle })).freezeBy b (some .s) 0x13 0 0)

/-! Traps. -/

/-- S stands at a word boundary at which a request may land (R142). DESIGN CHOICE (log 81): a START or a RALOAD that stalls before its
issue is one, as a PUSH, MBOX, LAUNCH or FPOST is. -/
def Bank.atBoundary (k : Bank) : Bool :=
  (match k.job with | some j => j.phase == .running | none => false) && k.awake && (k.blocked.isNone || k.landable) && !k.nullified &&
  !k.unperformed

/-- TRAP_ENTRY: at a word boundary, a held fallback (R312), a re-shard fault (R414), or a core event (R155), in that order
(DESIGN CHOICE, log 15). -/
def execTrapEntry (b : Nat) (s : State) : Out :=
  let k := s.bank b
  .next (if !k.atBoundary then s
    else if !k.ts && !k.held.isEmpty then s.takeHeld b
    else match k.reshardTrap with
      | some v => (s.modBank b (fun k => { k with reshardTrap := none })).freezeBy b (some .s) 0x15 v 0
      | none =>
        if k.eie && !k.ts && k.cw cwCEVT != 0 then s.takeRequest b ⟨0x11, k.cw cwCEVT⟩ k.pc else s)

/-- COMPOSITE_RECORD_WRITE: the freeze of a bank ends once its operations have completed (R390). A blocked RDQ or EVT completes first
when it can. -/
def execCompositeRecordWrite (b : Nat) (s : State) : Out :=
  let s := if (s.bank b).freeze.isSome then (s.pollRdq b).pollEvt b else s
  .next (match (s.bank b).freeze with
    | some fr => if (s.bank b).settled then s.finishFreeze b fr else s
    | none => s)

/-- Every collective instance that a bank posted and that has not formed its result is cancelled, and what it had received is
gone (R464). -/
def State.cancelColls (s : State) (b : Nat) : State :=
  let s := s.modCluster (bankCluster b) (fun c => { c with coll := c.coll.map (fun (x : Coll) =>
    if x.bank = b then { x with phase := .cancelled, got := [], served := [], none_ := [] } else x) })
  { s with pkts := s.pkts.filter (fun (p : Pkt) => !(p.stage == .arrived && bankCluster p.bank == bankCluster b && p.seq == (s.bank b).seq &&
      (match p.coll with | some (.ready ..) => true | _ => false))) }

/-- PREEMPTION_LANDING: the request is taken outside trap state and outside S loops (R142). A YIELD that asked for it leaves
issue here; its result lands at resumption (R119, R389). DESIGN CHOICE (log 71): a YIELD in trap state that asked for it waits until the job
leaves trap state. -/
def execPreemptionLanding (b : Nat) (s : State) : Out :=
  let k := s.bank b
  .next (match k.blocked with
    | some ⟨.yielded d, sig, _⟩ =>
      if !k.preempt || k.ts || !k.awake || k.unperformed then s else
      let s := (s.cancelColls b).modBank b (fun k => { (k.advance none) with blocked := none, yielded := some (d, sig), stopS := true }.noteLead)
      s.takeRequest b ⟨0x0F, 0⟩ (s.bank b).pc
    | _ =>
      if !k.preempt || k.stopS || k.ts || k.loopAct || !k.atBoundary then s
      else ((s.cancelColls b).modBank b (fun k => ({ k with stopS := true } : Bank).noteLead)).takeRequest b ⟨0x0F, 0⟩ k.pc)

end Sys2Proof.Machine
end

