-- ==== Sys2Proof/Machine/EvArray.lean ====
section
/-! DEFINITION. The events of a cluster and of queue bindings: the array's grant and its planes (R266 to R270), bound streams
(R241), peer links (R243) and the mailbox (R316 to R318). -/

namespace Sys2Proof.Machine

/-! The array grant (R269, R270). -/

/-- The holder may lose the array: its lease is over, or no array command is in flight and its run is full, or none has stood
at its issue point for 64 cycles. -/
def State.grantEnds (s : State) (cl : Nat) : Bool :=
  let a := (s.cluster cl).array
  match a.grant with
  | none => true
  | some h => !(s.bank h).leaseHeld ||
      (!(s.bank h).arrayBusy && (a.run == 64 || decide (a.lastCmd + 65 ≤ s.cycle)))

/-- The next waiting bank in round-robin order from the one after the holder; from bank 0 of core 0 where there has been none (DESIGN
CHOICE, log 88). -/
def State.nextHolder (s : State) (cl : Nat) : Option Nat :=
  let start := match (s.cluster cl).array.grant with | some h => h % 8 + 1 | none => 0
  ((List.range 8).map (fun i => 8 * cl + (start + i) % 8)).find? (fun b => (s.bank b).wantsArray && !s.hasGrant b)

/-- A pre-emption ends the bank's lease once M has stopped and its issued words have completed (R295). -/
def Bank.leaseEnds (k : Bank) : Bool := k.leaseHeld && k.preempting && k.mloop.isNone && (k.opsOf .m).isEmpty

/-- The leases of a cluster that pre-emptions end. -/
def State.endLeases (s : State) (cl : Nat) : State :=
  (List.range 8).foldl (fun (s : State) i => if (s.bank (8 * cl + i)).leaseEnds then s.dropLease (8 * cl + i) true else s) s

/-- A holder that loses the grant records its active slot (R270). -/
def State.recordSlot (s : State) (cl : Nat) : State :=
  let a := (s.cluster cl).array
  match a.grant with
  | none => s
  | some h =>
    let p := a.activePlane
    if (s.bank h).leaseHeld && (p.valid || p.loading.isSome) then
      s.modBank h (fun k => (k.putCw cwMSTAT 27 7 p.tag).putCw cwMSTAT 34 1 1)
    else s

/-- The planes as a new holder finds them: its recorded slot being loaded into the active one, or both empty. A slot with an uncorrectable
error stays out of the planes, and the command that selects it meets the error (R272). DESIGN CHOICE (log 87): the slot goes into plane 0,
which is active after every grant. -/
def State.grantPlanes (s : State) (cl b : Nat) : State :=
  let w := (s.bank b).cw cwMSTAT
  let slot := fld w 27 7
  let reload := w.getLsbD 34 && s.slotOwner cl slot == some b
  let (s, err) := if reload then s.scanSlots cl slot (slot % 2 == 0) else (s, none)
  let p := if reload && err.isNone then (s.cluster cl).beginLoad s.cycle slot (slot % 2 == 0) else Plane.empty
  let s := s.modArray cl (fun a => { a with
    grant := some b, run := 0, lastCmd := s.cycle - 1, firstCmd := if reload then s.cycle + 256 else s.cycle,
    plane0 := p, plane1 := Plane.empty, active := false })
  s.modBank b (fun k => (k.putCw cwMSTAT 2 1 0).putCw cwMSTAT 34 1 0)

/-- A pending MLEASE completes with the grant (R269, R284). -/
def State.completeLease (s : State) (b : Nat) : State :=
  match (s.bank b).ops.find? (fun o => o.todo == .mlease) with
  | none => s
  | some o => ((s.finishOp b o).modBank b (fun k => { k with leaseHeld := true })).holdM b (s.cycle + 1)

/-- ARRAY_GRANT_PASS. The leases that pre-emptions end go first. -/
def execArrayGrantPass (cl : Nat) (s : State) : Out :=
  let s := s.endLeases cl
  .next (match s.nextHolder cl with
    | none => s
    | some b => if s.grantEnds cl then ((s.recordSlot cl).grantPlanes cl b).completeLease b else s)

/-- PLANE_LOAD_COMPLETE: 256 cycles after its load began, a plane is valid (R266). -/
def execPlaneLoadComplete (cl : Nat) (plane : Bool) (s : State) : Out :=
  let done := fun (p : Plane) => match p.loading with
    | some c => if c ≤ s.cycle then p.loaded else p
    | none => p
  .next (s.modArray cl (fun a => if plane then { a with plane1 := done a.plane1 } else { a with plane0 := done a.plane0 }))

/-! Bound streams (R241, R255). -/

/-- The bound streams of a bank move: its job runs, no page holds it, and its streams were not stopped by a trap. -/
def Bank.streamsMove (k : Bank) : Bool :=
  (match k.job with | some j => j.phase == .running | none => false) && k.parked.isEmpty && !(k.stopped && k.freeze.isNone)

/-- A stream after one element of the box of r: the count goes down, and the binding ends with it. After the last element of the box the map
advances, and the stream takes it as it stands then (R179, R241). -/
def State.streamOn (s : State) (b : Nat) (o : Op) (g : Nat) (left : Option Nat) (n : Nat) (r : Rec) (todo : Option Nat → Nat → Rec → Work) :
    State :=
  let last := decide (boxBytes r ≤ elemBytes r * (n + 1))
  let next := advanceMap ((s.bank b).mapReg g)
  let s := if last then s.modBank b (fun k => k.applyEff (.map g next)) else s
  if left = some 1 then s.endBinding b o
  else s.replaceOp b { o with
    todo := (if last then todo (left.map (fun x => x - 1)) 0 next else todo (left.map (fun x => x - 1)) (n + 1) r), parked := false }

/-- Why a stream stops before the first element of a box: an element out of bounds, or a byte in no live range (R165, R226). -/
def State.boxStop (s : State) (b : Nat) (o : Op) (g n : Nat) (r : Rec) : Option Stop :=
  if n ≠ 0 then none
  else if boxFaults r then some (.fault 0x0B (BitVec.ofNat 64 g))
  else s.cspStop b (withBitmap r (boxRuns r o.lay))

/-- Element n of a box as a queue holds it. The groups of a last element of .i3 that the box does not fill are free values (log 40). -/
def State.elemOf (s : State) (r : Rec) (n v : Nat) : Elem :=
  let w := elemBytes r
  let here := boxBytes r - w * n
  if w ≤ here then BitVec.ofNat 2048 v
  else BitVec.ofNat 2048 (v + fld (s.freeWord 2048 0) 0 (8 * (w - here)) * 256 ^ here)

/-- One element of a CBIND: read from the box and pushed, unless the queue is full. -/
def State.bindElement (s : State) (b : Nat) (o : Op) (g q : Nat) (left : Option Nat) (n : Nat) (r : Rec) : State :=
  let x := (s.bank b).queue q
  match s.boxStop b o g n r with
  | some y => s.stopOp b o y
  | none =>
    if x.depth ≤ x.occupied s.cycle then s else
    match s.runsRead b r (boxPart r o.lay (elemBytes r * n) (elemBytes r * (n + 1))) with
    | (s, _, some y) => s.stopOp b o y
    | (s, v, none) =>
      let (id, s) := s.newId
      let e := s.elemOf r n v
      (s.spend.modBank b (fun k => k.modQueue q (fun x => x.append id e))).streamOn b o g left n r (fun l n r => .bind g q l n r)

/-- One element of a CSINK: an arrived head is written into the box and popped. -/
def State.sinkElement (s : State) (b : Nat) (o : Op) (g q : Nat) (left : Option Nat) (n : Nat) (r : Rec) : State :=
  match ((s.bank b).queue q).head with
  | none => s
  | some e =>
    match s.boxStop b o g n r with
    | some y => s.stopOp b o y
    | none =>
      match s.runsWrite b r (boxPart r o.lay (elemBytes r * n) (elemBytes r * (n + 1))) e.toNat with
      | (s, some y) => s.stopOp b o y
      | (s, none) => (s.modBank b (fun k => k.modQueue q (fun x => x.pop s.cycle))).streamOn b o g left n r (fun l n r => .sink g q l n r)

/-- BOUND_STREAM_ELEMENT: the stream of operation id moves one element, from the cycle after its issue. -/
def execBoundStreamElement (b id : Nat) (s : State) : Out :=
  .next (match (s.bank b).ops.find? (fun o => o.id == id) with
    | none => s
    | some o =>
      if !(s.bank b).streamsMove || decide (s.cycle < o.ready) || s.behindOp b o then s else
      match o.todo with
      | .bind g q left n r => s.bindElement b o g q left n r
      | .sink g q left n r => s.sinkElement b o g q left n r
      | _ => s)

/-! Peer links (R243). -/

/-- The operation of a bank that names an end back: the other direction, and each other's queue. -/
def State.peerMatch (s : State) (b : Nat) (tx : Bool) (q pb vp : Nat) : Option Op :=
  (s.bank pb).ops.find? (fun x => match x.todo with
    | .peer tx' q' pb' vp' false => tx' != tx && q' == vp && pb' == b && vp' == q
    | _ => false)

/-- PEER_LINK_FORM: both ends have issued a CPEER that names the other. -/
def execPeerLinkForm (b id : Nat) (s : State) : Out :=
  let form := fun (s : State) (b : Nat) (o : Op) => match o.todo with
    | .peer tx q pb vp _ => s.replaceOp b { o with todo := .peer tx q pb vp true }
    | _ => s
  .next (match (s.bank b).ops.find? (fun o => o.id == id) with
    | some o =>
      (match o.todo with
       | .peer tx q pb vp false =>
         (match s.peerMatch b tx q pb vp with
          | some x => form (form s b o) pb x
          | none => s)
       | _ => s)
    | none => s)

/-- PEER_ELEMENT_FORWARD: the head element of the sender goes to the receiver's queue when that has a free slot; it arrives in
the same step (log 1). -/
def execPeerElementForward (b id : Nat) (s : State) : Out :=
  .next (match (s.bank b).ops.find? (fun o => o.id == id) with
    | some o =>
      (match o.todo, s.otherEnd b o, ((s.bank b).queue (match o.todo with | .peer _ q _ _ _ => q | _ => 0)).head with
       | .peer true q pb vp true, some _, some e =>
         let x := (s.bank pb).queue vp
         if !(s.bank b).streamsMove || !(s.bank pb).streamsMove || decide (x.depth ≤ x.occupied s.cycle) then s else
         let s := s.modBank b (fun k => k.modQueue q (fun y => y.pop s.cycle))
         let (n, s) := s.newId
         s.modBank pb (fun k => k.modQueue vp (fun y => y.append n e))
       | _, _, _ => s)
    | none => s)

/-! The mailbox (R317, R318). -/

/-- MBCFG of the job of a launch on a bank, in the bank or with what is kept of a pre-empted job (R318, R388). -/
def State.mailConfig (s : State) (b seq : Nat) : W64 :=
  if (s.bank b).live && (s.bank b).seq == seq then (s.bank b).cw cwMBCFG else
  match s.launchOf seq with
  | some l => (match (l.jobs.find? (fun p => p.bank == b)).bind (fun p => p.kept) with
    | some kept => kept.mbcfg
    | none => 0)
  | none => 0

/-- A bank of the master core counts an entry of its launch when MBCFG.EN is 1; the increment waits for a job that is pre-empted
(R318, R387). -/
def State.countMail (s : State) (e : MailEntry) (b : Nat) : State :=
  let w := s.mailConfig b e.seq
  if s.isMaster b && w.getLsbD 6 then s.agentFlag b e.seq (fld w 0 6) else s

/-- MAILBOX_ENTRY_VISIBLE: entry k becomes visible in its cycle, is counted, and a waiting MBRD finds it. -/
def execMailboxEntryVisible (cl k : Nat) (s : State) : Out :=
  .next (match (s.cluster cl).mail[k]? with
    | none => s
    | some e =>
      if decide (s.cycle < e.at_) then s else
      let banks := (List.range 8).map (fun i => 8 * cl + i)
      let s := if e.visible then s else
        banks.foldl (fun (s : State) b => s.countMail e b) (s.modCluster cl (fun c => { c with mail := c.mail.set k { e with visible := true } }))
      banks.foldl (fun (s : State) b => if (s.bank b).awake then s.pollMbrd b else s) s)

end Sys2Proof.Machine
end

