-- ==== Sys2Proof/Machine/EvLayout.lean ====
section
/-! DEFINITION. The events of layouts: the install of a LAYSEL (R405), and the check, steps, skew and end of a re-shard (R414 to
R417). -/

namespace Sys2Proof.Machine

/-- A layout, or none, made active for a launch on all its dies (R403). -/
def State.installOn (s : State) (seq : Nat) (x : Option Desc) : State :=
  (s.launchDies seq).foldl (fun (s : State) d => s.modDie d (fun y => y.installLayout seq x)) s

/-- LAYOUT_INSTALL: the LAYSEL that Zenith received first is installed on every die of its launch, and completes. -/
def execLayoutInstall (pkg : Nat) (s : State) : Out :=
  .next (match (s.hub pkg).installs with
    | [] => s
    | i :: rest =>
      let s := (s.modHub pkg (fun h => { h with installs := rest })).installOn i.seq i.desc
      match (s.bank i.bank).blocked with
      | some ⟨.laysel t, _, _⟩ => if t = i.ticket then s.unblock i.bank none else s
      | _ => s)

/-! Re-shard. -/

/-- Control word fields of RSHRD (R413). -/
def rsBack (ctl : W64) : Bool := ctl.getLsbD 0
def rsFlag (ctl : W64) : Nat := fld ctl 1 6
def rsTab (ctl : W64) : Nat := fld ctl 7 2

/-- The operands of a record's first RSHRD: new layout, control word, start time. -/
def Reshard.operands (r : Reshard) : W64 × W64 × W64 :=
  match r.ops.head? with
  | some (_, a, c, t) => (a, c, t)
  | none => (0, 0, 0)

def State.modReshard (s : State) (die seq : Nat) (f : Reshard → Reshard) : State :=
  s.modDie die (fun d => { d with reshards := d.reshards.map (fun r => if r.seq = seq then f r else r) })

/-- The dies of a launch whose jobs are not all over, each with its record in flight. -/
def State.reshardDies (s : State) (seq : Nat) : List (Nat × Option Reshard) :=
  let ds := match s.launchOf seq with
    | some l => ((l.jobs.filter (fun (p : Place) => !p.over)).map (fun (p : Place) => bankDie p.bank)).foldl insertNat []
    | none => []
  ds.map (fun d => (d, match (s.die d).reshardOf seq with
    | some r => if r.inflight then some r else none
    | none => none))

/-- Fabric time has reached a start, or the die is not synchronised (R437). -/
def State.startPassed (s : State) (die t : Nat) : Bool :=
  decide (t ≤ s.ft) || !((s.die die).reg 0x100008).getLsbD 6

/-- The failure of a re-shard: its reason and the die, operands before reports and the lowest die first (DEDUCED, log 27). -/
def reshardFailure (rs : List (Nat × Reshard)) : Option (Nat × Nat) :=
  let ref := match rs.head? with | some (_, r) => r.operands | none => (0, 0, 0)
  match rs.find? (fun (x : Nat × Reshard) => x.2.ops.any (fun o => o.2 != ref)) with
  | some (d, _) => some (3, d)
  | none => match rs.find? (fun (x : Nat × Reshard) => x.2.bad != 0) with
    | some (d, r) => some (r.bad, d)
    | none => none

/-- Every job of a launch takes a trap value at its next word boundary. -/
def State.reshardTrapAll (s : State) (seq : Nat) (v : W64) : State :=
  match s.launchOf seq with
  | none => s
  | some l =>
    let s := l.jobs.foldl (fun (s : State) p =>
      if (s.bank p.bank).started && (s.bank p.bank).seq == seq && !p.over then s.modBank p.bank (fun k => { k with reshardTrap := some v }) else s) s
    s.modLaunch seq (fun l => { l with jobs := l.jobs.map (fun p => { p with kept := p.kept.map (fun k => { k with reshardTrap := some v }) }) })

/-- RESHARD_CHECK: once every die has reported, the re-shard fails whole or starts on every die (R414). -/
def execReshardCheck (seq : Nat) (s : State) : Out :=
  let ds := s.reshardDies seq
  let rs : List (Nat × Reshard) := ds.filterMap (fun x => x.2.map (fun r => (x.1, r)))
  .next (if ds.isEmpty || rs.length != ds.length || rs.any (fun x => !x.2.reported || x.2.running) then s else
    match reshardFailure rs with
    | some (reason, die) =>
      let s := rs.foldl (fun (s : State) x => s.modReshard x.1 seq (fun r => { r with inflight := false })) s
      s.reshardTrapAll seq (BitVec.ofNat 64 (reason + die * 256))
    | none =>
      rs.foldl (fun (s : State) x =>
        let late := s.startPassed x.1 x.2.operands.2.2.toNat
        s.modReshard x.1 seq (fun r => { r with running := true, late := late })) s)

/-- S(k): the slots before step k of a table. -/
def Die.slotSum (d : Die) (t k : Nat) : Nat := (List.range k).foldl (fun n i => n + (d.rsEntry t i).2) 0

/-- The window of step k: its first fabric time and the first one after it. -/
def Die.rsWindow (d : Die) (ctl t0 : W64) (k : Nat) : Nat × Nat :=
  (t0.toNat + 256 * d.slotSum (rsTab ctl) k, t0.toNat + 256 * d.slotSum (rsTab ctl) (k + 1))

/-- SrcRow and DstRow of R402. -/
def srcRow (x : Desc) (t h w j : Nat) : Nat :=
  ldSbase x + ((t % ldBlk x 2 * ldBlk x 1 + h % ldBlk x 1) * ldBlk x 0 + w % ldBlk x 0) * (ldExt x 0 * ldEsize x) + j * ldRow x
def dstRow (x : Desc) (t h w j : Nat) : Nat :=
  let n := (t * ldExt x 2 + h) * ldExt x 1 + w
  ldDbase x + ((j % ldHpd x) * ldTpart x + n % ldTpart x) * ldRow x
def dstDie (x : Desc) (t h w j : Nat) : Nat :=
  let n := (t * ldExt x 2 + h) * ldExt x 1 + w
  ((Desc.dies x)[j / ldHpd x * ldSplit x + n / ldTpart x]?).getD 0

/-- The rows that a die holds as source and another receives: source and destination offsets (R414). -/
def reshardRows (x : Desc) (back : Bool) (die dest : Nat) : List (Nat × Nat) :=
  let tokens := (List.range (ldExt x 3)).flatMap (fun t => (List.range (ldExt x 2)).flatMap (fun h =>
    (List.range (ldExt x 1)).map (fun w => (t, h, w))))
  let blockDie := if back then dest else die
  let headDie := if back then die else dest
  (tokens.filter (fun p => ldOwner x p.2.2 p.2.1 p.1 == blockDie)).flatMap (fun p =>
    ((List.range (ldHeads x)).filter (fun j => dstDie x p.1 p.2.1 p.2.2 j == headDie)).map (fun j =>
      let a := srcRow x p.1 p.2.1 p.2.2 j
      let z := dstRow x p.1 p.2.1 p.2.2 j
      if back then (z, a) else (a, z)))

/-- n 8-byte words moved from home to home, each with its marker. -/
def State.moveWords (s : State) (d1 o1 d2 o2 : Nat) : Nat → State
  | 0 => s
  | n + 1 =>
    let s := State.moveWords s d1 o1 d2 o2 n
    let (d, v, bad) := (s.die d1).read (o1 + 8 * n) 8
    (s.setDie d1 d).modDie d2 (fun x => x.write (o2 + 8 * n) 8 v bad)

/-- Bytes of a row of a launch's source region that the launch has written while the re-shard was in flight: at home since the die's
report, or in an L1 from which they have still to come (R415; DEDUCED, log 27). -/
def State.rowWritten (s : State) (seq die off n : Nat) : Bool :=
  (match (s.die die).reshardOf seq with
   | some r => (List.range (n / 256 + 2)).any (fun i =>
       let line := off / 256 + i
       let lo := max off (line * 256)
       let hi := min (off + n) (line * 256 + 256)
       decide (lo < hi) && r.wrote.get 0 line &&& (ones (hi - lo) <<< (lo - line * 256)) != 0)
   | none => false) ||
  s.cores.any (fun c => c.2.l1.any (fun l => lineMask l.line (die * 2 ^ 42 + off) n &&& l.dirty != 0))

/-- A row that the launch has written while the re-shard is in flight is undefined where it goes (R415). -/
def State.spoilRow (s : State) (seq d1 d2 n : Nat) (r : Nat × Nat) : State :=
  if s.rowWritten seq d1 r.1 n then (s.modDie d2 (fun x => x.write r.2 n (s.freeWord (8 * n) 0).toNat false)).spend else s

/-- A row moved; a bad row keeps its markers word by word. -/
def State.moveRow (s : State) (seq d1 d2 n : Nat) (r : Nat × Nat) : State :=
  if s.rowWritten seq d1 r.1 n then s.spoilRow seq d1 d2 n r else
  let (d, v, bad) := (s.die d1).read r.1 n
  let s := s.setDie d1 d
  if bad then s.moveWords d1 r.1 d2 r.2 (n / 8) else s.modDie d2 (fun x => x.write r.2 n v false)

/-- The rows of one step of a die: the die they go to, their size, and their places there and here. -/
def State.stepRows (s : State) (seq die k : Nat) : Nat × Nat × List (Nat × Nat) :=
  match (s.die die).reshardOf seq, (s.die die).layout seq with
  | some r, some x =>
    let ctl := r.operands.2.1
    let dest := ((Desc.dies x)[((s.die die).rsEntry (rsTab ctl) k).1]?).getD die
    (dest, ldRow x, reshardRows x (rsBack ctl) die dest)
  | _, _ => (die, 0, [])

/-- The rows of one step of a die moved. -/
def State.reshardMove (s : State) (seq die k : Nat) : State :=
  let (dest, n, rows) := s.stepRows seq die k
  rows.foldl (fun (s : State) q => s.moveRow seq die dest n q) s

/-- The steps a re-shard has, one to a die of the layout. -/
def State.reshardCount (s : State) (seq die : Nat) : Nat :=
  match (s.die die).layout seq with | some x => ldDies x | none => 0

/-- The rows of a die that the launch has written since they were moved. -/
def State.reshardSpoil (s : State) (seq die : Nat) : State :=
  (List.range (s.reshardCount seq die)).foldl (fun (s : State) k =>
    let (dest, n, rows) := s.stepRows seq die k
    rows.foldl (fun (s : State) q => s.spoilRow seq die dest n q) s) s

/-- RESHARD_STEP: a die whose window has begun runs its next step. Rows that would reach another die more than 256 fabric cycles before the
window, or 256 or more after it, bring a report of skew, and go with what is left. A die that loses synchronisation while it waits for T0
begins at once, late (R437). -/
def execReshardStep (seq die : Nat) (s : State) : Out :=
  .next (match (s.die die).reshardOf seq with
    | none => s
    | some r =>
      let (_, ctl, t0) := r.operands
      let win := (s.die die).rsWindow ctl t0 r.step
      if !r.inflight || !r.running || r.sentAll || !s.startPassed die win.1 then s else
      let (dest, _, rows) := s.stepRows seq die r.step
      let s := s.modReshard die seq (fun q => { q with late := q.late || (r.step == 0 && decide (s.ft < win.1)) })
      if dest != die && !rows.isEmpty && (decide (s.ft + 256 < win.1) || decide (win.2 + 256 ≤ s.ft)) then
        { s with agenda := .event (.reshardSkew seq) :: s.agenda }
      else (s.reshardMove seq die r.step).modReshard die seq (fun q => { q with
        step := q.step + 1, sentAll := decide (s.reshardCount seq die ≤ q.step + 1) }))

/-- RESHARD_SKEW: every die marks the re-shard and sends its remaining rows at once; a determinism launch loses its claim. -/
def execReshardSkew (seq : Nat) (s : State) : Out :=
  let one := fun (s : State) (d : Nat) =>
    match (s.die d).reshardOf seq with
    | some r =>
      if !r.inflight || !r.running then s else
      let s := if r.sentAll then s else ((List.range (s.reshardCount seq d)).filter (fun k => decide (r.step ≤ k))).foldl
        (fun (s : State) k => s.reshardMove seq d k) s
      s.modReshard d seq (fun q => { q with skew := true, sentAll := true })
    | none => s
  .next (((s.launchDies seq).foldl one s).modLaunch seq (fun l => { l with nd := l.nd || lrDet l.record }))

/-- RESHARD_COMPLETE: every row has been performed, and those written since are undefined (R415); the new layout is installed, and then
every job's flag counts. -/
def execReshardComplete (seq : Nat) (s : State) : Out :=
  let ds := s.reshardDies seq
  let rs : List (Nat × Reshard) := ds.filterMap (fun x => x.2.map (fun r => (x.1, r)))
  .next (match rs with
    | [] => s
    | (_, r) :: _ =>
      if rs.length != ds.length || rs.any (fun x => !x.2.running || !x.2.sentAll) then s else
      let s := rs.foldl (fun (s : State) x => s.reshardSpoil seq x.1) s
      let s := match r.newDesc with
        | some x => s.installOn seq (some x)
        | none => s
      let s := rs.foldl (fun (s : State) x => s.modReshard x.1 seq (fun q => { q with done := true, running := false, inflight := false })) s
      match s.launchOf seq with
      | some l => l.jobs.foldl (fun (s : State) p => s.agentFlag p.bank seq (rsFlag r.operands.2.1)) s
      | none => s)

end Sys2Proof.Machine
end

