-- ==== Sys2Proof/Machine/EvFabric.lean ====
section
/-! DEFINITION. The events of the fabric: routing (R442 to R445), throttling (R446), synchronisation (R437), reassembly (R448), and
the packets of R440 at their destinations (R441, R454). The loads, stores and atomics of cores and engines are performed at once at a home
on another die (log 16), so packets of kinds 0 to 4 and 0xA are only those of the other agents that stand in the state. -/

namespace Sys2Proof.Machine

/-! Geometry (R399, R442). -/

def axisLen (dims : Nat × Nat × Nat) (a : Nat) : Nat := match a with | 0 => dims.1 | 1 => dims.2.1 | _ => dims.2.2

/-- The flits a port carries in one cycle: 8 inside the package, 4 outside, 16 ejected (port 6). -/
def portCap (die port : Nat) : Nat :=
  if 6 ≤ port then 16 else if dieCoord die (port / 2) % 2 = port % 2 then 8 else 4

/-- The die that a port leads to. -/
def portDie (dims : Nat × Nat × Nat) (die port : Nat) : Nat :=
  let a := port / 2
  let n := axisLen dims a
  let c := dieCoord die a
  moveDie die a (if port % 2 = 0 then (c + 1) % n else (c + n - 1) % n)

/-- The productive ports of a die toward another, in order; ejection is the only one at the destination. -/
def productive (dims : Nat × Nat × Nat) (die dst : Nat) : List Nat :=
  if die = dst then [6] else
  [0, 1, 2].flatMap (fun a =>
    let n := axisLen dims a
    let up := (dieCoord dst a + n - dieCoord die a) % n
    if up = 0 then [] else if up * 2 < n then [2 * a] else if up * 2 = n then [2 * a, 2 * a + 1] else [2 * a + 1])

/-- AnchorPort (R444). -/
def anchorPort (dims : Nat × Nat × Nat) (die dst : Nat) : Nat := if die = dst then 6 else firstHop dims die dst

/-! Routing (R443). -/

/-- The rank of flits: anchored, then higher AGE, lower SRC, lower PKT, lower IDX. -/
def Flit.before (f g : Flit) : Bool :=
  if f.anc != g.anc then f.anc
  else if f.age ≠ g.age then decide (g.age < f.age)
  else if f.src ≠ g.src then decide (f.src < g.src)
  else if f.pkt ≠ g.pkt then decide (f.pkt < g.pkt)
  else decide (f.idx ≤ g.idx)

def rankIn (f : Flit) : List Flit → List Flit
  | [] => [f]
  | g :: t => if f.before g then f :: g :: t else g :: rankIn f t

def rankFlits (fs : List Flit) : List Flit := fs.foldl (fun l f => rankIn f l) []

/-- A router in one cycle: positions filled by port, flits placed, those left, deflections, and flits anchored. -/
structure Routed where
  used : SMap Nat
  placed : List (Nat × Flit)
  left : List Flit
  defl : Nat
  anch : Nat
  deriving Repr

def Routed.free (r : Routed) (die : Nat) (p : Nat) : Bool := decide (r.used.get 0 p < portCap die p)
def Routed.place (r : Routed) (p : Nat) (f : Flit) : Routed :=
  { r with used := r.used.set p (r.used.get 0 p + 1), placed := r.placed ++ [(p, f)] }

/-- One arriving flit. -/
def Routed.arrive (dims : Nat × Nat × Nat) (die : Nat) (r : Routed) (f : Flit) : Routed :=
  let ps := if f.anc then [anchorPort dims die f.dst] else productive dims die f.dst
  match ps.find? (r.free die) with
  | some p => r.place p f
  | none =>
    match [0, 1, 2, 3, 4, 5].find? (r.free die) with
    | none => { r with left := r.left ++ [f] }
    | some p =>
      let age := min (f.age + 1) 255
      let anchors := age == 255 && !f.anc
      { (r.place p { f with age := age, anc := f.anc || anchors }) with
        defl := r.defl + 1, anch := r.anch + (if anchors then 1 else 0) }

/-- One flit that the die offers, of at most 16: a free productive position, or it stays. -/
def Routed.inject (dims : Nat × Nat × Nat) (die : Nat) (x : Routed × Nat) (f : Flit) : Routed × Nat :=
  if 16 ≤ x.2 then ({ x.1 with left := x.1.left ++ [f] }, x.2) else
  match (productive dims die f.dst).find? (x.1.free die) with
  | some p => (x.1.place p f, x.2 + 1)
  | none => ({ x.1 with left := x.1.left ++ [f] }, x.2)

/-! Packets as flits (R439, R440). -/

/-- Flits of a packet whose payload has n bytes. -/
def flitsOf (n : Nat) : Nat := max 1 (ceilDiv n 64)

/-- Where the flits of a packet come from and go to: an entry's grant or refusal goes back (R448). -/
def Pkt.ends (p : Pkt) : Nat × Nat := if p.kind = 7 then (p.dst, p.src) else (p.src, p.dst)

/-- The packet is itself of several flits: read responses, messages and bulk writes; a masked write has its mask flit first. -/
def Pkt.flitCount (p : Pkt) : Nat :=
  if p.kind = 1 || p.kind = 8 || p.kind = 9 then flitsOf p.len else if p.kind = 2 then 1 + flitsOf p.len else 1

/-- The bytes that travel. -/
def Pkt.wire (p : Pkt) : Nat :=
  if p.kind = 2 then p.mask.toNat + 2 ^ 512 * leNat p.data else if p.kind = 6 || p.kind = 7 then 0 else leNat p.data

/-- The markers that travel: the mask flit of a masked write has none. -/
def Pkt.wireMarks (p : Pkt) : Nat := if p.kind = 2 then p.marks * 2 ^ 8 else if p.kind = 6 || p.kind = 7 then 0 else p.marks

/-- The flits of the packet that an entry request stands for. -/
def Pkt.bodyFlits (p : Pkt) : Nat := if p.body = 2 then 1 + flitsOf p.len else flitsOf p.len

def Pkt.toFlits (p : Pkt) : List Flit :=
  let n := p.flitCount
  let nfm1 := if p.kind = 6 then p.bodyFlits - 1 else n - 1
  (List.range n).map (fun i => ⟨p.ends.2, p.ends.1, 0, false, p.kind, i, nfm1, p.num, p.offset,
    if p.kind = 6 then p.len else p.aux, BitVec.ofNat 512 (p.wire / 2 ^ (512 * i) % 2 ^ 512),
    BitVec.ofNat 8 (p.wireMarks / 2 ^ (8 * i) % 256)⟩)

/-- The port and bank that a message is for. -/
def Pkt.samePort (p q : Pkt) : Bool := p.body == 8 && q.body == 8 && p.bank == q.bank && p.aux == q.aux

/-- The entry that a request's answer of several flits will fill, which its sender takes before it sends it: charged to the requesting
bank, and for a reduce read held by the router (R440, R448). -/
def Pkt.answerEntry (p : Pkt) : Option RasmEntry :=
  if (p.kind = 0 ∨ p.kind = 0xA) ∧ 1 < flitsOf p.len then
    some ⟨p.dst, p.num, flitsOf p.len, p.srcBank, if p.kind = 0 then 1 else 0xA, p.len, p.offset, p.aux, p.bank, p.seq, [], 0⟩
  else none

/-- There is room at the source for the answer of a request. -/
def State.answerRoom (s : State) (p : Pkt) : Bool :=
  p.answerEntry.isNone || (decide ((s.die p.src).rasm.length < 256) && (p.kind == 0xA || decide (s.rasmLive p.srcBank < 32)))

/-- A packet may start in this cycle: not held by the throttle, its entry request after those of earlier packets to its port, and with an
entry for its answer (R446, R448). -/
def State.mayStart (s : State) (die : Nat) (p : Pkt) : Bool :=
  let free := p.kind == 1 || p.kind == 4 || p.kind == 5 || p.kind == 7
  let earlier := s.pkts.takeWhile (fun q => q != p)
  p.stage == .source && p.ends.1 == die && (free || decide (s.ft % 8 < 8 - (s.die die).level)) &&
  (p.kind != 6 || !earlier.any (fun q => q.src == p.src && q.samePort p && (q.kind == 6 || q.kind == 7))) && s.answerRoom p

/-- A packet starts: its flits are offered after those of packets begun before, but the flit of a flag increment ahead of every other
kind (R445). -/
def State.startPacket (s : State) (die : Nat) (p : Pkt) : State :=
  let s := s.modDie die (fun d => { d with
    flitsOut := (if p.kind = 5 then d.flitsOut.takeWhile (fun f => f.kind == 5) ++ p.toFlits ++ d.flitsOut.dropWhile (fun f => f.kind == 5)
      else d.flitsOut ++ p.toFlits),
    rasm := d.rasm ++ p.answerEntry.toList })
  { s with pkts := s.pkts.map (fun q => if q = p then { q with stage := .travelling } else q) }

/-- The packets of a die that start now, in order. -/
def State.startPackets (s : State) (die : Nat) : State :=
  s.pkts.foldl (fun (s : State) p => if s.mayStart die p then s.startPacket die p else s) s

/-- FSTAT with more deflections and anchored flits, each count saturating (R436). -/
def fstatAdd (w : W64) (defl anch : Nat) : W64 :=
  putFld (putFld w 0 32 (min 0xFFFFFFFF (fld w 0 32 + defl))) 32 16 (min 0xFFFF (fld w 32 16 + anch))

/-- FLIT_ARRIVAL: one cycle of a router. A hop takes one cycle (log 1). -/
def execFlitArrival (die : Nat) (s : State) : Out :=
  let s := s.startPackets die
  let d := s.die die
  let now := (d.flitsIn.filter (fun x => decide (x.1 ≤ s.cycle))).map (fun x => x.2)
  let r := (rankFlits now).foldl (Routed.arrive d.dims die) ⟨[], [], [], 0, 0⟩
  let kept := r.left
  let x := d.flitsOut.foldl (Routed.inject d.dims die) ({ r with left := [] }, 0)
  let s := s.modDie die (fun d => { d.setReg 0x100018 (fstatAdd (d.reg 0x100018) r.defl r.anch) with
    flitsIn := kept.map (fun f => (s.cycle + 1, f)) ++ d.flitsIn.filter (fun x => decide (s.cycle < x.1)),
    flitsOut := x.1.left, winDefl := d.winDefl + r.defl, winPos := d.winPos + x.1.placed.length,
    ejected := d.ejected ++ (x.1.placed.filter (fun y => y.1 == 6)).map (fun y => y.2) })
  .next ((x.1.placed.filter (fun y => y.1 != 6)).foldl (fun (s : State) y =>
    s.modDie (portDie d.dims die y.1) (fun z => { z with flitsIn := z.flitsIn ++ [(s.cycle + 1, y.2)] })) s)

/-- FLIT_HEADER_ERROR: the launches of both dies are killed (R439). -/
def execFlitHeaderError (src dst : Nat) (s : State) : Out :=
  let hit := s.hubs.flatMap (fun (h : Nat × Hub) =>
    (h.2.launches.filter (fun (l : Launch) => l.phase != .ended && l.phase != .queued &&
      (l.diesUsed.contains src || l.diesUsed.contains dst))).map (fun l => l.seq))
  .next (hit.foldl (fun (s : State) q => s.killLaunch q) s)

/-- THROTTLE_WINDOW: the level moves by the window's deflections and filled positions (R446). -/
def execThrottleWindow (die : Nat) (s : State) : Out :=
  .next (s.modDie die (fun d =>
    let w := d.reg 0x100010
    let up := decide (fld w 0 4 * d.winPos ≤ 16 * d.winDefl)
    let down := decide (16 * d.winDefl < fld w 4 4 * d.winPos)
    let level := max (fld w 8 3) (min 7 (d.level + (if up then 1 else 0) - (if down then 1 else 0)))
    let last := if d.winPos = 0 then 0 else min 255 (256 * d.winDefl / d.winPos)
    { d with level := level, lastWin := last, winDefl := 0, winPos := 0 }))

/-- FT_SYNC_LOST and FT_SYNC_ACHIEVED (R437). -/
def execFtSyncLost (die : Nat) (s : State) : Out :=
  .next (s.modDie die (fun d => d.setReg 0x100008 (putFld (putFld (d.reg 0x100008) 6 1 0) 7 1 1)))
def execFtSyncAchieved (die : Nat) (s : State) : Out :=
  .next (s.modDie die (fun d => d.setReg 0x100008 (putFld (d.reg 0x100008) 6 1 1)))

/-! Packets at their destination. -/

def State.dropPkt (s : State) (p : Pkt) : State := { s with pkts := s.pkts.filter (fun q => q != p) }
def State.setPkt (s : State) (p q : Pkt) : State := { s with pkts := s.pkts.map (fun x => if x = p then q else x) }

/-- An answer of one flit: an acknowledgement with a packet's number, for the bank that sent it. -/
def State.answer (s : State) (p : Pkt) (data : List Byte) : State :=
  let a : Pkt := { p with
    kind := 4, src := p.dst, dst := p.src, data := data, len := data.length, bank := p.srcBank, srcBank := p.bank, body := 4,
    stage := .source, coll := none, marks := 0 }
  { s with pkts := s.pkts ++ [a] }

/-- Bytes of an entry, in flit order. -/
def RasmEntry.bytes (e : RasmEntry) : List Byte :=
  leBytes e.len (packElems 512 ((List.range e.nf).map (fun i => (e.got.get 0 i).toNat)))

def State.entryOf (s : State) (die src num : Nat) : Option RasmEntry :=
  (s.die die).rasm.find? (fun e => e.src == src && e.pkt == num)

def State.freeEntry (s : State) (die src num : Nat) : State :=
  s.modDie die (fun d => { d with rasm := d.rasm.filter (fun e => !(e.src == src && e.pkt == num)) })

/-- The markers of the packet's words as its entry holds them, or as its single flit brought them (R439). -/
def State.pktMarks (s : State) (p : Pkt) : Nat :=
  match s.entryOf p.dst p.src p.num with
  | some e => if p.flitCount = 1 then p.marks else e.marks
  | none => p.marks

/-- The packet's bytes as its entry holds them, or as its single flit brought them. -/
def State.pktData (s : State) (p : Pkt) : List Byte :=
  match s.entryOf p.dst p.src p.num with
  | some e => if p.flitCount = 1 then p.data else e.bytes
  | none => p.data

/-- FSTAT.DROP of a die, one more (R436). -/
def Die.drop (d : Die) : Die := d.setReg 0x100018 (putFld (d.reg 0x100018) 48 16 (min 0xFFFF (fld (d.reg 0x100018) 48 16 + 1)))

/-- A packet discarded at its destination (R454). -/
def State.discard (s : State) (p : Pkt) : State :=
  (((s.dropPkt p).freeEntry p.dst p.src p.num).modDie p.dst Die.drop).answer p []

/-- The destination bank is pre-empted, or its entries are in an image: what comes for it is held (R387, R449). -/
def State.pktHeld (s : State) (p : Pkt) : Bool :=
  s.savedOn p.bank p.seq || ((s.bank p.bank).started && (s.bank p.bank).seq == p.seq && ((s.bank p.bank).cw cwRASTAT).getLsbD 0)

/-- The increment that a packet of kind 5 carries (R22). -/
def Pkt.increment (p : Pkt) (cyc : Nat) : RIncr := ⟨p.bank, p.aux, if p.seq = 0 then none else some p.seq, cyc, p.srcBank⟩

/-! Halo deliveries (R409, R440). -/

/-- The bank of the job of a launch on a die with a DOM.DIE.IDX. -/
def State.haloReceiver (s : State) (seq die member : Nat) : Option Nat :=
  (List.find? (fun (p : Nat × Bank) => bankDie p.1 == die && (match p.2.job with
    | some j => j.seq == seq && j.phase != .placed && fld (p.2.cw (cwDOM + 1)) 0 20 == member
    | none => false)) s.banks).map (fun p => p.1)

/-- The receiving job is pre-empted, or its bank is being saved: the face is held in transit (R387). -/
def State.haloHeld (s : State) (f : HaloFace) : Bool :=
  (match s.launchOf f.seq with
   | some l => l.jobs.any (fun p => p.phase == .saved && bankDie p.bank == f.die &&
       l.dieIdx p.jidx == f.member)
   | none => false) ||
  (match s.haloReceiver f.seq f.die f.member with
   | some b => match (s.bank b).job with | some j => j.phase == .saving | none => false
   | none => false)

/-- Every byte of the buffer, which may have none, lies in the receiving job's scratchpad range or its launch's shared-memory range. -/
def State.haloPlace (s : State) (b a n : Nat) : Bool :=
  n == 0 || (s.bank b).inRange a n ||
  (match (s.bank b).job with
   | some j => lrShmv j.launchRec && decide (0x400000 + (lrShm j.launchRec).1 * 65536 ≤ a) &&
       decide (a + n ≤ 0x400000 + (lrShm j.launchRec).2 * 65536)
   | none => false)

/-- The sender learns of one of its faces; the last one ends the operation, with a fault when one was refused. -/
def State.haloAck (s : State) (f : HaloFace) (bad : Option W64) : State :=
  match (s.bank f.srcBank).ops.find? (fun o => o.id == f.op) with
  | some o =>
    (match o.todo with
     | .haloWait n old =>
       let bad := old.or bad
       if 1 < n then s.modBank f.srcBank (fun k => { k with ops := k.ops.map (fun x =>
         if x.id = o.id then { x with todo := .haloWait (n - 1) bad } else x) })
       else
         (match bad with
          | none => s.finishOp f.srcBank o
          | some v => (s.failOp f.srcBank o []).faultE f.srcBank o.point 0x05 v o.pos)
     | _ => s)
  | none => s

/-- A packet carries a part of a face. -/
def HaloFace.holds (f : HaloFace) (p : Pkt) : Bool :=
  p.body == 9 && p.src == bankDie f.srcBank && p.dst == f.die && f.parts.any (fun x => x.1 == p.num)
def State.isFace (s : State) (p : Pkt) : Bool := s.faces.any (fun f => f.holds p)

/-- The parts of a face that have come. -/
def State.faceParts (s : State) (f : HaloFace) : List Pkt :=
  s.pkts.filter (fun p => p.kind == 9 && p.stage == .arrived && f.holds p && !s.pktHeld p)

/-- A part of a face judged at the receiver's die: written, with nobody to take it, or with a buffer outside the receiver's memory. -/
def State.takePart (x : State × HaloFace) (p : Pkt) : State × HaloFace :=
  let (s, f) := x
  let data := s.pktData p
  let place := match f.parts.find? (fun y => y.1 == p.num) with | some y => y.2 | none => 0
  let s := (s.dropPkt p).freeEntry p.dst p.src p.num
  let (s, fate) := match s.haloReceiver f.seq f.die f.member with
    | none => (s, FaceFate.lost)
    | some b =>
      if !s.haloPlace b f.addr f.room then (s, .refused)
      else ((s.engWrite b (f.addr + place) data.length (leNat data) true false).1, .good)
  (s, { f with parts := f.parts.filter (fun y => y.1 != p.num), fate := if f.fate == .good then fate else f.fate })

/-- Every part of a face has come: its increment is made, or it was dropped. -/
def State.endFace (s : State) (f : HaloFace) : State :=
  match f.fate, s.haloReceiver f.seq f.die f.member with
  | .refused, _ => (s.modDie f.die Die.drop).haloAck f (some (BitVec.ofNat 64 (f.face + f.die * 2 ^ 8)))
  | .good, some b =>
    let s := s.haloMatch b ⟨f.num, f.face ^^^ 1, f.par, f.addr, f.len, f.box, f.buf⟩
    (s.modBank b (fun x => x.agentInc s.cycle f.flag)).haloAck f none
  | _, _ => (s.modDie f.die Die.drop).haloAck f none

/-- HALO_DELIVERY: the parts of the k-th face in transit that have come are judged at the receiver's die: discarded with no receiver,
refused outside the receiver's memory, or written; the face counts once the last of them is written. -/
def execHaloDelivery (k : Nat) (s : State) : Out :=
  .next (match s.faces[k]? with
    | none => s
    | some f =>
      if s.haloHeld f || (s.faceParts f).isEmpty then s else
      let (s, f) := (s.faceParts f).foldl State.takePart (s, f)
      if f.parts.isEmpty then ({ s with faces := s.faces.eraseIdx k }).endFace f else { s with faces := s.faces.set k f })

/-- FLIT_EJECT: a single flit is its packet, and a flag increment is one that has come to its die; others fill their entry by IDX, and the
packet is whole with the last. A flit whose entry is gone is discarded with its packet, or held while the entry is in an image; a part of
a halo face is then judged with its face. Kinds 0xC to 0xF are never sent (R440). -/
def execFlitEject (die k : Nat) (s : State) : Out :=
  match (s.die die).ejected[k]? with
  | none => .next s
  | some f =>
    if 0xC ≤ f.kind then .fault .neverSent else
    let gone := s.modDie die (fun d => { d with ejected := d.ejected.eraseIdx k })
    .next (match s.pkts.find? (fun p => p.stage == .travelling && p.kind == f.kind && p.num == f.pkt && p.ends == (f.src, die)) with
      | none => gone
      | some p =>
        if f.kind = 5 then { (gone.dropPkt p) with incs := s.incs ++ [p.increment s.cycle] } else
        if p.flitCount = 1 then gone.setPkt p { p with stage := .arrived } else
        match s.entryOf die f.src f.pkt with
        | none =>
          if s.pktHeld p then s
          else if s.isFace p then gone.setPkt p { p with stage := .arrived }
          else if p.body = 8 then gone.discard p else gone.dropPkt p
        | some e =>
          let e' : RasmEntry := { e with got := e.got.set f.idx f.payload, marks := e.marks ||| (f.marks.toNat <<< (8 * f.idx)) }
          let s := gone.modDie die (fun d => { d with rasm := d.rasm.map (fun x => if x.src == e.src && x.pkt == e.pkt then e' else x) })
          if e'.nf ≤ e'.got.length then s.setPkt p { p with stage := .arrived } else s)

/-! Message ports (R454). -/

/-- Units of a packet of n bytes. -/
def portUnits (n : Nat) : Nat := ceilDiv (n + 8) 64
def portRing (w : W64) : Nat := portBytes w / 64

/-- Units written and not yet read. -/
def portUsed (w : W64) : Nat := (fld w 30 13 + 2 * portRing w - fld w 17 13 % (2 * portRing w)) % (2 * portRing w)

/-- Units reserved by entries granted for a port, those that RASAVE has put into an image among them, for the launch of its bank. -/
def State.portReserved (s : State) (bank port : Nat) : Nat :=
  let d := s.die (bankDie bank)
  let seq := (s.bank bank).seq
  (d.rasm ++ d.rasmKept).foldl (fun n e =>
    if e.bank = bank ∧ e.kind = 8 ∧ e.aux = port ∧ e.seq = seq then n + portUnits e.len else n) 0

/-- The port of a message, the launch of its sender being live on the bank. -/
def State.portOf (s : State) (p : Pkt) : Option W64 :=
  let k := s.bank p.bank
  if k.started && k.seq == p.seq then some (k.cw (cwMPORT + p.aux % 8)) else none

/-- The port has room for one more packet of n bytes. -/
def State.portRoom (s : State) (p : Pkt) (w : W64) : Bool :=
  decide (portUsed w + s.portReserved p.bank (p.aux % 8) + portUnits p.len ≤ portRing w)

/-- Nobody takes the packet of an entry request: its port is off, or its bank has no job of the launch. -/
def State.unwanted (s : State) (p : Pkt) : Bool :=
  if p.body = 8 then (match s.portOf p with | some w => !w.getLsbD 0 | none => true)
  else p.coll.isSome && !((s.bank p.bank).started && (s.bank p.bank).seq == p.seq)

/-- The three conditions of a grant (R448). -/
def State.grantable (s : State) (p : Pkt) : Bool :=
  let d := s.die p.dst
  decide (d.rasm.length < 256) && (p.body == 2 || decide (s.rasmLive p.bank < 32)) &&
  (p.body != 8 || (match s.portOf p with | some w => s.portRoom p w | none => false))

/-- The key of a waiting request. -/
def Pkt.key (p : Pkt) : Nat := p.src * 4096 + p.num

/-- The request that a die may grant next, among those that wait and are not held. -/
def State.waitHead (s : State) (die : Nat) : Option Nat :=
  (s.die die).waitList.find? (fun w => s.pkts.any (fun p => p.kind == 6 && p.dst == die && p.key == w && p.stage == .waiting && !s.pktHeld p))

def State.leaveWait (s : State) (p : Pkt) : State :=
  s.modDie p.dst (fun d => { d with waitList := d.waitList.filter (fun w => w != p.key) })

/-- ENTRY_REQUEST: packet k asks for an entry at its destination: discarded, granted in order of arrival, put on the wait list, or
refused (R448, R454). -/
def execEntryRequest (k : Nat) (s : State) : Out :=
  .next (match s.pkts[k]? with
    | none => s
    | some p =>
      let waits := p.stage == .waiting && p.retryAt.isNone
      if p.kind != 6 || !(p.stage == .arrived || waits) || s.pktHeld p then s
      else if s.unwanted p then
        (let s := s.leaveWait p
         if p.body = 8 then s.discard p else s.dropPkt p)
      else if s.grantable p && (match s.waitHead p.dst with | some w => w == p.key | none => true) then
        let e : RasmEntry := ⟨p.src, p.num, p.bodyFlits, p.bank, p.body, p.len, p.offset, p.aux, p.srcBank, p.seq, [], 0⟩
        ((s.leaveWait p).modDie p.dst (fun d => { d with rasm := d.rasm ++ [e] })).setPkt p
          { p with kind := 7, granted := true, stage := .source }
      else if waits then s
      else if (s.die p.dst).waitList.length < 64 then
        (s.modDie p.dst (fun d => { d with waitList := d.waitList ++ [p.key] })).setPkt p { p with stage := .waiting }
      else s.setPkt p { p with kind := 7, granted := false, stage := .source })

/-- ENTRY_GRANT: the source sends the packet into its entry, or asks again 512 fabric cycles later. -/
def execEntryGrant (k : Nat) (s : State) : Out :=
  .next (match s.pkts[k]? with
    | none => s
    | some p =>
      if p.kind != 7 || p.stage != .arrived then s
      else if p.granted then s.setPkt p { p with kind := p.body, stage := .source }
      else s.setPkt p { p with kind := 6, retryAt := some (s.ft + 512), stage := .waiting })

/-- ENTRY_REQUEST_RETRY. -/
def execEntryRequestRetry (k : Nat) (s : State) : Out :=
  .next (match s.pkts[k]? with
    | none => s
    | some p =>
      match p.retryAt with
      | some t => if p.kind == 6 && decide (t ≤ s.ft) then s.setPkt p { p with retryAt := none, stage := .source } else s
      | none => s)

/-- The first n words of a packet's bytes written into a port's ring from a place on, wrapping at its end, each with its marker (R439). -/
def ringPut (m : Mem) (w : W64) (at_ marks : Nat) (data : List Byte) : Nat → Mem
  | 0 => m
  | n + 1 =>
    let m := ringPut m w at_ marks data n
    let bs := (data.drop (8 * n)).take 8
    m.write (portBase w + (at_ + 8 * n) % portBytes w) bs.length (leNat bs) (marks.testBit n)

/-- The descriptor of a packet (R454). -/
def portHeader (p : Pkt) (n : Nat) : Nat := n + p.src * 2 ^ 16 + coreOnDie p.srcBank * 2 ^ 30 + p.srcBank % 2 * 2 ^ 36

/-- MESSAGE: packet k is written into its port's ring, the write pointer moves, and the port's flag counts; packets of one sending
bank to one port go in the order they were sent. A packet of one flit has had no entry request, so it is judged here. -/
def execMessage (k : Nat) (s : State) : Out :=
  .next (match s.pkts[k]? with
    | none => s
    | some p =>
      let before := (s.pkts.take k).any (fun q => q.srcBank == p.srcBank && q.samePort p)
      let one := p.flitCount == 1
      if p.kind != 8 || p.stage != .arrived || before || (if one then s.savedOn p.bank p.seq else s.pktHeld p) then s else
      match s.portOf p with
      | none => s.discard p
      | some w =>
        if one && !w.getLsbD 0 then s.discard p
        else if one && !s.portRoom p w then s
        else
          let data := s.pktData p
          let wp := fld w 30 13
          let at_ := wp % portRing w * 64
          let here := min (8 + data.length) (portBytes w - at_)
          let s := s.modCore (bankCore p.bank) (fun c => { c with
            ringed := unringed (unringed c.ringed (portBase w + at_) here) (portBase w) (8 + data.length - here)
            sp := ringPut c.sp w at_ (2 * s.pktMarks p) (leBytes 8 (portHeader p data.length) ++ data) (1 + ceilDiv data.length 8) })
          let s := s.modBank p.bank (fun x =>
            (x.putCw (cwMPORT + p.aux % 8) 30 13 ((wp + portUnits data.length) % (2 * portRing w))).agentInc s.cycle (fld w 1 6))
          ((s.dropPkt p).freeEntry p.dst p.src p.num).answer p [])

/-! The other kinds (R440, R441). -/

/-- A packet of a kind that has arrived. -/
def State.arrivedPkt (s : State) (k kind : Nat) : Option Pkt :=
  match s.pkts[k]? with
  | some p => if p.kind == kind && p.stage == .arrived then some p else none
  | none => none

/-- READ_REQUEST: the home reads and answers with the bytes and their markers; a reduce read is read alike (R458). The requester holds the
entry of an answer of several flits. -/
def execReadRequest (k : Nat) (s : State) : Out :=
  .next (match (s.arrivedPkt k 0).or (s.arrivedPkt k 0xA) with
    | none => s
    | some p =>
      let (d, v, _) := (s.die p.dst).homeRead p.offset p.len (p.aux % 16) false (p.len / 256 + 2)
      let s := (s.dropPkt p).setDie p.dst d
      let r : Pkt := { p with
        kind := 1, src := p.dst, dst := p.src, data := leBytes p.len v, bank := p.srcBank, srcBank := p.bank, body := 1,
        stage := .source, marks := d.wordMarks p.offset p.len }
      { s with pkts := s.pkts ++ [r] })

/-- READ_RESPONSE: the bytes reach the requester with their markers. -/
def execReadResponse (k : Nat) (s : State) : Out :=
  .next (match s.arrivedPkt k 1 with
    | none => s
    | some p => ((s.dropPkt p).freeEntry p.dst p.src p.num).reads (s.pktData p) (s.pktMarks p))

/-- A masked write, or the entry request of one. -/
def Pkt.isWrite (p : Pkt) : Bool := p.kind == 2 || ((p.kind == 6 || p.kind == 7) && p.body == 2)

/-- Masked write q of the same source and destination comes before p in PKT order, which counts modulo 4,096 (R439, R441). -/
def Pkt.writeBefore (q p : Pkt) : Bool :=
  q.isWrite && q.src == p.src && q.dst == p.dst && q.num != p.num && decide ((p.num + 4096 - q.num % 4096) % 4096 < 2048)

/-- MASKED_WRITE: the bytes of one 256-byte line with their markers, in PKT order of their source (R441). -/
def execMaskedWrite (k : Nat) (s : State) : Out :=
  .next (match s.arrivedPkt k 2 with
    | none => s
    | some p =>
      if s.pkts.any (fun q => q.writeBefore p) then s else
      let o := p.offset % 256
      let s := s.modDie p.dst (fun d => d.writeLine (p.offset / 256) (leNat p.data * 2 ^ (8 * o)) (p.mask.toNat * 2 ^ o) (p.marks * 2 ^ (o / 8)))
      ((s.dropPkt p).freeEntry p.dst p.src p.num).answer p [])

/-- BANK_ALU_REQUEST: AUX names the operation and the size. -/
def execBankAluRequest (k : Nat) (s : State) : Out :=
  .next (match s.arrivedPkt k 3 with
    | none => s
    | some p =>
      let n := 2 ^ (p.aux / 16 % 4)
      let x := leNat p.data
      let (s, old, _) := (s.dropPkt p).homeAtomic (p.dst * 2 ^ 42 + p.offset) n (fun old =>
        if p.aux % 16 ≤ 9 then some (amoOp (p.aux % 16) n old (x % 256 ^ n)) else none)
      s.answer p (leBytes n old))

/-- ACKNOWLEDGEMENT: the operation that waits for it completes (R453). -/
def execAcknowledgement (k : Nat) (s : State) : Out :=
  .next (match s.arrivedPkt k 4 with
    | none => s
    | some p =>
      let s := (s.dropPkt p).reads p.data 0
      match (s.bank p.bank).ops.find? (fun o => o.todo == .msgWait (p.src * 4096 + p.num)) with
      | some o => s.finishOp p.bank o
      | none => s)

/-- REDUCE_READ: a line combined over a group of a launch (R458). -/
def execReduceRead (die seq off : Nat) (s : State) : Out :=
  let (s, l, marks) := s.reduceLine die seq off
  .next (s.reads (leBytes 256 l.toNat) marks)

end Sys2Proof.Machine
end

