-- ==== Sys2Proof/Machine/EvCollective.lean ====
section
/-! DEFINITION. The events of collectives: start, control packets, data, results and deadlines (R459 to R464). -/

namespace Sys2Proof.Machine

/-! Members (R461). -/

/-- The members whose data a member's result takes, itself among them. -/
def ccSources (c : Rec) (n : Nat) : List Nat :=
  if ccOp c = 3 then (if ccAdmits c 0 then [0] else []) else (List.range n).filter (ccAdmits c)

/-- The dimension-3 range of SRC that a member gives to another, and where it stands in the receiver's DST. -/
def ccGives (c : Rec) (n taker : Nat) : Nat × Nat :=
  let e := ccExt c 3
  match ccOp c with
  | 1 => (taker * e / n, (taker + 1) * e / n)
  | 2 => (0, e / n)
  | 4 => (taker * e / n, (taker + 1) * e / n)
  | _ => (0, e)
def ccTakes (c : Rec) (n me source : Nat) : Nat × Nat :=
  let e := ccExt c 3
  match ccOp c with
  | 1 => (me * e / n, (me + 1) * e / n)
  | 2 => (source * e / n, (source + 1) * e / n)
  | 4 => (source * e / n, (source + 1) * e / n)
  | _ => (0, e)

/-- A contribution: a dimension-3 range of SRC, as it is while SRC is unchanged since the instance was posted; a write made since leaves it
undefined (R464). -/
def State.ccGiven (s : State) (x : Coll) (r : Nat × Nat) : State × List Byte :=
  let (s, now) := s.ccRead x.bank (ccRowLen x.cmd) (ccRows x.cmd (ccSrc x.cmd) r)
  if now = (x.image.drop (ccBytes x.cmd (0, r.1))).take (ccBytes x.cmd r) then (s, now)
  else (s.spend, leBytes now.length (s.freeWord (8 * now.length) 0).toNat)

/-- Rows written at home or in a local memory. -/
def State.ccWrite (s : State) (b n : Nat) : List Nat → List Byte → State
  | [], _ => s
  | a :: t, bs => State.ccWrite (s.engWrite b a n (leNat (bs.take n)) true true).1 b n t (bs.drop n)

/-! Packets. -/

/-- What a READY's digest is made of (R462). -/
def ccDigest (c : Rec) : BitVec 80 := BitVec.ofNat 80 (fld c 0 10 + fld c 12 4 * 2 ^ 10 + fld c 192 64 * 2 ^ 14)

/-- Two commands agree as far as a READY shows. -/
def digestAgree (a b : BitVec 80) : Bool := a == b || Config.digest a == Config.digest b

def State.modColl (s : State) (cl inst grp seq : Nat) (f : Coll → Coll) : State :=
  s.modCluster cl (fun c => { c with coll := c.coll.map (fun x =>
    if x.inst = inst ∧ ccGrp x.cmd = grp ∧ x.seq = seq then f x else x) })

def State.findColl (s : State) (cl inst grp seq : Nat) : Option Coll :=
  (s.cluster cl).coll.find? (fun x => x.inst == inst && ccGrp x.cmd == grp && x.seq == seq)

/-- A control packet of an instance's member to the same cluster of another die. -/
def State.sendControl (s : State) (cl die b seq : Nat) (m : CollMsg) : State :=
  s.offer (cl / 16) die 0xB 0 0 [] ((die * 16 + cl % 16) * 8) b seq (some m) 0

/-- Data cut into packets of at most 4,096 bytes. -/
def State.sendParts (s : State) (die dst bank b seq : Nat) (msg : Nat → CollMsg) (data : List Byte) : Nat → State
  | 0 => s
  | n + 1 =>
    let s := State.sendParts s die dst bank b seq msg data n
    s.offer die dst 9 0 0 ((data.drop (4096 * n)).take 4096) bank b seq (some (msg n)) 0

/-! Start (R462 steps 1 to 3). -/

/-- The wait flag is consumed, or needs no consuming. -/
def State.takeWflag (s : State) (cl : Nat) (x : Coll) : State × Bool :=
  match ccWflag x.cmd with
  | none => (s, true)
  | some f =>
    if x.wc then (s, true) else
    if (s.bank x.bank).flag f = 0 then (s, false) else
    ((s.modBank x.bank (fun k => k.consume s.cycle f 1)).modColl cl x.inst (ccGrp x.cmd) x.seq (fun y => { y with wc := true }), true)

/-- COLLECTIVE_START: queued instance k, each earlier one of its master having begun, passes its flag and its time and sends its
READYs. -/
def execCollectiveStart (cl k : Nat) (s : State) : Out :=
  .next (match (s.cluster cl).coll[k]? with
    | none => s
    | some x =>
      let earlier := ((s.cluster cl).coll.take k).any (fun y => y.phase != .exchanging)
      if x.phase != .queued || earlier || !(s.bank x.bank).live then s else
      match s.takeWflag cl x with
      | (s, false) => s
      | (s, true) =>
        let c := x.cmd
        let sync := ((s.die (cl / 16)).reg 0x100008).getLsbD 6
        if ccTT c && sync && decide (s.ft < ccStart c) then
          s.modColl cl x.inst (ccGrp c) x.seq (fun y => { y with waited := true }) else
        let late := ccTT c && (if x.resumed then !sync && decide (s.ft < ccStart c) else (decide (ccStart c < s.ft) && !x.waited) || !sync)
        let s := s.modColl cl x.inst (ccGrp c) x.seq (fun y => { y with phase := .exchanging, began := s.ft, late := late })
        let ds := s.collDies cl x
        let me := s.collMe cl x
        ((ccSources c ds.length).filter (fun m => m != me)).foldl (fun (s : State) m =>
          s.sendControl cl ((ds[m]?).getD 0) x.bank x.seq (.ready (ccGrp c) x.inst me (ccDigest c))) s)

/-! Answers (R462 step 4, R464). -/

/-- A posted instance answers a READY with its data. -/
def State.giveData (s : State) (cl : Nat) (x : Coll) (p : Pkt) (member : Nat) : State :=
  let n := (s.collDies cl x).length
  let me := s.collMe cl x
  let (s, bytes) := s.ccGiven x (ccGives x.cmd n member)
  s.sendParts (cl / 16) p.src p.srcBank x.bank x.seq (fun i => .data (ccGrp x.cmd) x.inst me i) bytes (ceilDiv bytes.length 4096)

/-- A READY can be answered: its instance is posted and not cancelled, or has completed. Until then it is held (R464). -/
def State.readyAnswer (s : State) (cl inst grp seq : Nat) : Bool :=
  match s.findColl cl inst grp seq with
  | some x => x.phase != .cancelled
  | none => (s.cluster cl).collDone.contains (seq, grp, inst)

/-- COLLECTIVE_CONTROL: packet k, a READY or a NONE. -/
def execCollectiveControl (k : Nat) (s : State) : Out :=
  .next (match s.arrivedPkt k 0xB with
    | none => s
    | some p =>
      let cl := bankCluster p.bank
      let back := bankCluster p.srcBank
      let none_ := fun (s : State) (grp inst : Nat) (member : Nat) (bad : Bool) =>
        s.offer p.dst p.src 0xB 0 0 [] (8 * back) p.bank p.seq (some (.none_ grp inst member bad)) 0
      match p.coll with
      | some (.ready grp inst member dig) =>
        if !s.readyAnswer cl inst grp p.seq then s else
        let s := s.dropPkt p
        let at_ := (groupDies (((s.die p.dst).groups.find? (groupKey p.seq grp)).getD 0)).findIdx? (fun d => d == p.dst)
        (match s.findColl cl inst grp p.seq with
         | some x =>
           let s := s.modColl cl inst grp p.seq (fun y => { y with served := y.served ++ [member] })
           if digestAgree (ccDigest x.cmd) dig then s.giveData cl x p member
           else none_ (s.modColl cl inst grp p.seq (fun y => { y with err := true })) grp inst (at_.getD 0) true
         | none => none_ s grp inst (at_.getD 0) false)
      | some (.none_ grp inst member bad) =>
        (s.dropPkt p).modColl cl inst grp p.seq (fun y =>
          if y.phase == .exchanging then { y with none_ := y.none_ ++ [member], err := y.err || bad } else y)
      | _ => s.dropPkt p)

/-- The number of the 64 MiB block of HBM that is a die's staging area (R436). -/
def Die.stageArea (d : Die) : Nat := fld (d.reg 0x100020) 26 10

/-- Collective data reach the staging area of a die: the bytes that others keep in it are undefined from then on (R436). Where in the area
the data stand the manual leaves open, so they stand in `Coll.got` (DESIGN CHOICE, log 69). -/
def State.stage (s : State) (die : Nat) : State :=
  let d := s.die die
  let s' := s.setDie die { d with
    hbm := d.hbm.blur (d.stageArea * 2 ^ 26) (2 ^ 26) (fun i => s.freeWord 8 i),
    msc := d.msc.map (fun l => if l.line / 2 ^ 18 = d.stageArea then { l with data := s.freeWord 2048 (l.line % 2 ^ 18) } else l) }
  -- 2 ^ 26 free values are used up
  { s' with freeCtr := s.freeCtr + 2 ^ 14 }

/-- A live bank reaches the staging area of a die: through a direct entry of its aperture, or in a frame granted to it. -/
def State.reachesStage (s : State) (die b : Nat) : Bool :=
  let k := s.bank b
  let lo := die * 2 ^ 42 + (s.die die).stageArea * 2 ^ 26
  let meets := fun (a n : Nat) => decide (a < lo + 2 ^ 26) && decide (lo < a + n)
  k.live && (k.apertures.any (fun e => apValid e && !apPaged e &&
      meets ((if apLocal e then bankDie b else paDie (apTarget e)) * 2 ^ 42 + paOff (apTarget e)) (2 ^ apSize e)) ||
    k.tlb.any (fun t => meets (leafPa t.root t.leaf 0) (2 ^ 16)))

/-- The staging area of a die shares bytes with an aperture or with the save pool of its package (R388, R436). -/
def State.stageShared (s : State) (die : Nat) : Bool :=
  let pool := fld ((s.hub (pkgOf die)).reg 0x20020) 22 14
  let area := (s.die die).stageArea
  (decide (area * 16 < pool + 128) && decide (pool < area * 16 + 16)) || s.banks.any (fun x => s.reachesStage die x.1)

/-- A contribution as the staging area holds it: undefined where the area is shared (R436). -/
def State.stagedData (s : State) (die : Nat) (data : List Byte) : State × List Byte :=
  if s.stageShared die then (s.spend, leBytes data.length (s.freeWord (8 * data.length) 0).toNat) else (s, data)

/-- BULK_WRITE: packet k; data of a collective reaches the requester's staging area, unless its instance has been released; other
bytes are written at home with their markers (R439, R440, R462). A part of a halo face is its face's (R409). -/
def execBulkWrite (k : Nat) (s : State) : Out :=
  .next (match s.arrivedPkt k 9 with
    | none => s
    | some p =>
      let data := s.pktData p
      let marks := s.pktMarks p
      let s0 := s
      let s := (s.dropPkt p).freeEntry p.dst p.src p.num
      match p.coll with
      | some (.data grp inst member part) =>
        let (s, data) := (s.stage p.dst).stagedData p.dst data
        s.modColl (bankCluster p.bank) inst grp p.seq (fun y =>
          if y.phase != .exchanging then y else
          { y with got := y.got.filter (fun g => g.1 != member * 65536 + part) ++ [(member * 65536 + part, data)] })
      | _ =>
        if s.isFace p then s0 else
        (s.modDie p.dst (fun d => d.writeWords p.offset data.length (leNat data) marks (ceilDiv data.length 8))).answer p [])

/-! Results (R462 step 5, R463). -/

/-- The bytes of a source that have all arrived, when they have. -/
def Coll.whole (x : Coll) (n me m : Nat) : Option (List Byte) :=
  let parts := ceilDiv (ccBytes x.cmd (ccGives x.cmd n me)) 4096
  let get := fun i => (x.got.find? (fun g => g.1 == m * 65536 + i)).map (fun g => g.2)
  if (List.range parts).all (fun i => (get i).isSome) then some ((List.range parts).flatMap (fun i => (get i).getD [])) else none

/-- The result from the contributions at hand: each contributor's bytes, in member order. -/
def State.collContributions (s : State) (cl : Nat) (x : Coll) : State × List (Nat × List Byte) :=
  let n := (s.collDies cl x).length
  let me := s.collMe cl x
  (ccSources x.cmd n).foldl (fun (a : State × List (Nat × List Byte)) m =>
    if m = me then
      (let (s, bs) := a.1.ccGiven x (ccGives x.cmd n me)
       (s, a.2 ++ [(m, bs)]))
    else match x.whole n me m with
      | some bs => (a.1, a.2 ++ [(m, bs)])
      | none => a) (s, [])

/-- The bitmap of contributors. -/
def bitmapOf (ms : List Nat) : Nat := ms.foldl (fun v m => v + 2 ^ m) 0

/-- The result written to DST, with its summary after it, and the instance over: SFLAG counts, and a release in a determinism
launch loses its claim. -/
def State.collFinish (s : State) (cl : Nat) (x : Coll) (rel : Bool) : State :=
  let c := x.cmd
  let n := (s.collDies cl x).length
  let me := s.collMe cl x
  let forget := fun (s : State) => s.modCluster cl (fun y => { y with
    coll := y.coll.filter (fun q => !(q.inst == x.inst && ccGrp q.cmd == ccGrp c && q.seq == x.seq)),
    collDone := y.collDone ++ [(x.seq, ccGrp c, x.inst)] })
  if !((s.bank x.bank).live && (s.bank x.bank).seq == x.seq) then forget s else
  let (s, parts) := s.collContributions cl x
  let put := fun (s : State) (m : Nat) (bs : List Byte) => s.ccWrite x.bank (ccRowLen c) (ccRows c (ccDst c) (ccTakes c n me m)) bs
  let s := match ccOp c, ccType c with
    | 0, some t | 1, some t =>
      let len := match parts.head? with | some p => p.2.length | none => 0
      put s me (leBytes len (combineBlocks t (ccRop c) (len / t.esize) (parts.map (fun (p : Nat × List Byte) => leNat p.2))))
    | _, _ => parts.foldl (fun (s : State) (p : Nat × List Byte) => put s p.1 p.2) s
  let (a, z) := ccSlice c false n me
  let (lo, hi) := ccSpan c (ccDst c) a z
  let summary := parts.length + (if x.late then 2 ^ 32 else 0) + (if rel then 2 ^ 33 else 0) + (if x.err then 2 ^ 34 else 0)
  let len := ccSummaryLen n
  let s := (s.engWrite x.bank (ccSummaryAt c lo hi) len (summary + bitmapOf (parts.map (fun (p : Nat × List Byte) => p.1)) * 2 ^ 64) true true).1
  let s := match ccSflag c with
    | some f => s.agentFlag x.bank x.seq f
    | none => s
  let s := if rel then s.modLaunch x.seq (fun l => { l with nd := l.nd || lrDet l.record }) else s
  forget s

/-- The members whose result takes this member's data. -/
def ccTakers (c : Rec) (n me : Nat) : List Nat :=
  if ccOp c = 3 ∧ me ≠ 0 then [] else ((List.range n).filter (ccAdmits c)).filter (fun m => m != me)

/-- Member m of an instance has completed it. -/
def State.collPeerDone (s : State) (cl : Nat) (x : Coll) (m : Nat) : Bool :=
  (s.cluster ((((s.collDies cl x)[m]?).getD 0) * 16 + cl % 16)).collDone.contains (x.seq, ccGrp x.cmd, x.inst)

/-- Every source has answered, and every member that needs this one's data has asked for it and has its answer: a member that
never posts leaves the others waiting, and members of a BCAST get member 0's box although member 0 itself takes nobody's (R461,
R462, R464; DEDUCED, log 29). -/
def State.collReady (s : State) (cl : Nat) (x : Coll) : Bool :=
  let n := (s.collDies cl x).length
  let me := s.collMe cl x
  x.phase == .exchanging && (ccSources x.cmd n).all (fun m => m == me || x.none_.contains m || (x.whole n me m).isSome) &&
    (ccTakers x.cmd n me).all (fun m => x.served.contains m || x.none_.contains m || s.collPeerDone cl x m)

/-- COLLECTIVE_RESULT. -/
def execCollectiveResult (cl k : Nat) (s : State) : Out :=
  .next (match (s.cluster cl).coll[k]? with
    | none => s
    | some x => if s.collReady cl x then s.collFinish cl x false else s)

/-- The deadline of an instance that has begun (R463, R464). -/
def Coll.deadline (x : Coll) : Option Nat :=
  if !ccDL x.cmd then none
  else some ((if ccTT x.cmd && !x.resumed then ccStart x.cmd else x.began) + ccDlrel x.cmd)

/-- COLLECTIVE_DEADLINE: a live instance is released with the contributions that have arrived whole. -/
def execCollectiveDeadline (cl k : Nat) (s : State) : Out :=
  .next (match (s.cluster cl).coll[k]? with
    | none => s
    | some x =>
      match x.deadline with
      | some t => if x.phase == .exchanging && decide (t ≤ s.ft) then s.collFinish cl x true else s
      | none => s)

end Sys2Proof.Machine
end

