-- ==== Sys2Proof/Machine/ScalarTrap.lean ====
section
/-! DEFINITION. Return from trap (R157). -/

namespace Sys2Proof.Machine

/-- TRET (R157): privileged, legal in trap state outside delay slots. A fatal cause ends the job instead, as a kill does (R30,
R396; DEDUCED, log 25), with TCAUSE as the exit code it reports; the TRET of a pre-empted bank waits for the save (R387). -/
def execTret (m : Marks) (s : State) : Out :=
  let b := s.focus.bank
  let k := s.bank b
  let i : Instr := .tret m
  let trap := firstTrap [(if !k.sv then some (privilege i) else none),
    (if !k.ts || !k.targets.isEmpty then some (illegal i) else none),
    trapIf (badEstat (k.cw cwESTAT)) 0x0B (k.cw cwESTAT)]
  s.issueS m (trap.isSome || k.pend.all (fun p => p.landed)) trap
    (fun s =>
      if k.ftl then s.killJobAs b (fld (k.cw cwTCAUSE) 0 32) 0x0A
      else if k.stopS then s.blockS m .tret
      else s.modBank b (fun k => (k.returnTrap s.cycle).signalDone s.cycle .s m.signal))

end Sys2Proof.Machine
end

