-- ==== Sys2Proof/Machine/EvJob.lean ====
section
/-! DEFINITION. The events in a job's life: its start (R28, R378), its retirement (R30), and its save (R387, R388) and
resumption (R389). -/

namespace Sys2Proof.Machine

/-! Start. -/

/-- n bytes of an image of a launch. What could be read when the launch issued and cannot now is undefined. -/
def State.imageRead (s : State) (l : Launch) (a n : Nat) : State × Nat :=
  match s.zenithRead l a n (n / 64 + 2) with
  | (s, some v) => (s, v)
  | (s, none) => (s.spend, (s.freeWord (8 * n) 0).toNat)

/-- A DOM word (R32): in use, or the job alone. -/
def domWord (on : Bool) (idx cnt inst : Nat) : W64 :=
  if on then BitVec.ofNat 64 (idx % 2 ^ 20 + cnt % 2 ^ 21 * 2 ^ 20 + inst % 2 ^ 20 * 2 ^ 41 + 2 ^ 63) else BitVec.ofNat 64 (2 ^ 20)

/-- The DOM words of job j (R376). -/
def domWords (r : Rec) (j : Nat) : List W64 :=
  let level := fun (on : Bool) (n : Nat) => domWord on (j % n) n (j / n)
  [level (lrClj r != 0) (lrA r), level (lrCld r != 0) (lrB r), level (lrDpk r != 0) (lrC r),
   domWord (r.getLsbD 6) j (lrJobs r) 0]

/-- The words of a ring copied into the scratchpad from position p on (R378 step 2). -/
def Mem.putRing (m : Mem) (ring : W64) (p v : Nat) : Nat → Mem
  | 0 => m
  | n + 1 => (Mem.putRing m ring p v n).write (ringAddr ring (p + n)) 8 (v / 2 ^ (64 * n) % 2 ^ 64) false

/-- The scratchpad word w (address / 8) lies in the job's range. -/
def Job.ownsWord (j : Job) (w : Nat) : Bool := decide (j.spBase ≤ 8 * w) && decide (8 * w < j.spBase + j.spSize)

/-- The scratchpad words (address / 8) that a ring preloads. -/
def ringWords (w : W64) : List Nat :=
  let w := ringNormal w
  (List.range (ringPreloaded w)).map (fun i => ringAddr w (ringRP w + i) / 8)

/-- The three rings of an image, in order V, C, M, and the scratchpad that holds their words. -/
def Mem.putRings (m : Mem) : List W64 → Nat → Mem
  | [], _ => m
  | w :: t, v =>
    let n := ringPreloaded w
    Mem.putRings (m.putRing (ringNormal w) (ringRP (ringNormal w)) (v % 2 ^ (64 * n)) n) t (v / 2 ^ (64 * n))

/-- The control words that a start writes (R378 step 3); every other one but SCRA and SCRB (R154) is at its reset value. HP and CLOSED of
a ring's word in the image are ignored. -/
def startCtl (j : Job) (rings : List W64) : SMap W64 :=
  let r := j.record
  let put := fun (m : SMap W64) (x : Nat × W64) => m.set x.1 x.2
  let doms := (domWords j.launchRec j.jidx).zipIdx.map (fun p => (cwDOM + p.2, p.1))
  let rs := rings.zipIdx.map (fun p => (cwVRING + p.2, putFld (ringNormal p.1) 63 1 0))
  ([(cwSTAT, if r.getLsbD 53 then 4 else 0), (cwTVEC, BitVec.ofNat 64 (jrTvec r / 8 * 8)), (cwFAREA, BitVec.ofNat 64 (jrFarea r)),
    (cwWDOG, BitVec.ofNat 64 (fld r 345 24)), (cwJOBID, BitVec.ofNat 64 (j.seq % 2 ^ 32 + j.jidx * 2 ^ 32 + j.tag * 2 ^ 48)),
    (cwCTXB, if j.paired then 2 else 0)] ++ doms ++ rs).foldl put []

/-- The bank as R28 leaves it: parameters in s1 to s16, and everything else undefined (without poison, R9) or empty. Its translation
buffer and the record of its last issues stay (R335, R159). -/
def State.startBank (s : State) (b : Nat) (j : Job) (apt params : Nat) (rings : List W64) : Bank :=
  let k := s.bank b
  let free := fun (n i : Nat) => s.freeWord n i
  let given := (List.range 16).map (fun i => (i + 1, (⟨BitVec.ofNat 64 (params / 2 ^ (64 * i)), false⟩ : SCell)))
  let open_ := (List.range 47).map (fun i => (i + 17, (⟨free 64 (i + 17), false⟩ : SCell)))
  let ctl := ((startCtl j rings).set 0x00B (free 64 64)).set 0x00C (free 64 65)
  { Bank.reset with
    job := some { j with phase := .running }, sregs := given ++ open_, preds := free 8 0, ctl := ctl, pc := BitVec.ofNat 64 (jrEntry j.record),
    vaPos := ringRP (ctl.get 0 cwVRING), masks := (List.range 3).map (fun i => (i + 1, free 512 i)),
    maps := (List.range 16).map (fun g => (g, free 512 (16 + g))), seqSlots := (List.range 4).map (fun i => (i, free 512 (32 + i))),
    ascaleFill := .free s.nextId, scaleErr := k.scaleErr, apertures := apTable apt, tlb := k.tlb, stamp := s.cycle, preempt := k.preempt,
    idleSince := s.cycle, lastPoint := k.lastPoint }

/-- The tiles and slots of a job are undefined when it starts (R171, R263). -/
def State.freshArrays (s : State) (b : Nat) (j : Job) : State :=
  let seed := s.nextId + 1
  let mine := fun (i half : Nat) => !j.paired || i / half == b % 2
  let s := s.modCore (bankCore b) (fun c => { c with
    phaseAt := s.cycle
    tiles := (List.range 4).foldl (fun (m : SMap Tile) t => if mine t 2 then m.set t ⟨.free (seed + t), []⟩ else m) c.tiles })
  let first := bankCore b % 4 * 32
  let s := s.modCluster (bankCluster b) (fun c => { c with
    bstore := (List.range 32).foldl (fun (m : SMap BSlot) i =>
      let x := m.get BSlot.empty (first + i)
      if mine i 16 then m.set (first + i) { x with fill := .free (seed + 4 + i), data := [], gen := x.gen + 1 } else m) c.bstore })
  { s with nextId := s.nextId + 64 }

/-- The steps of R378, for a job of a launch that has its bank. -/
def State.startJob (s : State) (l : Launch) (b : Nat) : State :=
  match (s.bank b).job with
  | none => s
  | some j =>
    if j.phase != .placed || j.seq != l.seq then s else
    let (s, apt) := s.imageRead l (jrApt j.record) 4096
    let (s, head) := s.imageRead l (jrRimg j.record) 64
    let rings := (unpackElems 64 3 head).map (fun x => (BitVec.ofNat 64 x : W64))
    let (s, words) := s.imageRead l (jrRimg j.record + 64) (8 * rings.foldl (fun n w => n + ringPreloaded w) 0)
    let (s, params) := s.imageRead l (jrParam j.record) (8 * jrPlen j.record)
    let s := s.modCore (bankCore b) (fun c => { (c.l1Map (fun l => l.dropClean (BitVec.ofNat 64 (ones 64)))) with
      sp := c.sp.putRings rings words, ringed := (rings.flatMap ringWords).foldl insertNat (c.ringed.filter (fun w => !j.ownsWord w)), ic := [] })
    let s := s.setBank b (s.startBank b j apt params rings)
    let s := (s.freshArrays b j).spend
    s.modLaunch j.seq (fun l => l.modPlace j.jidx (fun p => { p with phase := .running }))

/-- JOB_START: a job that has its bank starts (R378); with GANG, every job of its launch starts with it (R380). -/
def execJobStart (b : Nat) (s : State) : Out :=
  .next (match (s.bank b).job with
    | none => s
    | some j =>
      match s.launchOf j.seq with
      | none => s
      | some l => if lrGang l.record then l.jobs.foldl (fun (s : State) p => s.startJob l p.bank) s else s.startJob l b)

/-! Retirement. -/

/-- Every increment that a bank sent has been applied (R30 step 2). -/
def State.sentAll (s : State) (b : Nat) : Bool :=
  s.incs.all (fun i => i.src != b) && s.pkts.all (fun p => !(p.kind == 5 && p.srcBank == b)) &&
  s.dies.all (fun d => d.2.heldIncs.all (fun i => i.src != b))

/-- JOB_RETIRE: all four streams are at the rendezvous; the job's bytes are published, and the bank is discarded. -/
def execJobRetire (b : Nat) (s : State) : Out :=
  let k := s.bank b
  .next (match k.blocked with
    | some ⟨.rendez exit, _, _⟩ =>
      if !k.retiring || !k.awake || !s.sentAll b || k.pend.any (fun p => !p.landed) then s
      else (s.publish b 5).jobOver b .retired exit 0
    | _ => s)

/-! The save area (R388). -/

/-- The HBM offset of a bank's save area. -/
def State.saveBase (s : State) (b : Nat) : Nat :=
  fld ((s.hub (pkgOf (bankDie b))).reg 0x20020) 22 14 * 2 ^ 22 + 2 ^ 22 * (b % 128)

/-- The tiles of a job, by name, and its slots, by number in the cluster. -/
def Job.tiles (j : Job) (b : Nat) : List Nat := if j.paired then [b % 2 * 2, b % 2 * 2 + 1] else [0, 1, 2, 3]
def Job.slots (j : Job) (b : Nat) : List Nat :=
  (List.range (if j.paired then 16 else 32)).map (fun i => bankCore b % 4 * 32 + (if j.paired then b % 2 * 16 else 0) + i)

/-- The collective instances that a bank posted, in post order. -/
def State.collsOf (s : State) (b : Nat) : List Coll := (s.cluster (bankCluster b)).coll.filter (fun c => c.bank == b)

/-- The fields of a save area outside the scratchpad, tiles and slots: offset, bytes, contents. The entries of bound streams
have no layout, so they hold undefined bytes (log 26); the streams themselves are kept apart. -/
def State.saveFields (s : State) (b : Nat) (wd : Bool) : List (Nat × Nat × Nat) :=
  let k := s.bank b
  let all := fun (n w : Nat) (f : Nat → Nat) => packElems w ((List.range n).map f)
  let cell := fun (i : Nat) => k.sregs.get ⟨0, false⟩ i
  let packet := fun (i : Nat) => match k.openPkts[i]? with
    | none => 0
    | some p => p.key / 2 ^ 10 + p.key / 16 % 64 * 2 ^ 14 + p.key / 8 % 2 * 2 ^ 20 + p.key % 8 * 2 ^ 21 + 2 ^ 24 +
        p.data.length * 2 ^ 64 + leNat p.data * 2 ^ 512
  let coll := fun (i : Nat) => match (s.collsOf b)[i]? with
    | none => 0
    | some c => c.cmd.toNat + c.inst * 2 ^ 512 + 2 ^ 528 + (if c.wc then 2 ^ 529 else 0)
  [(0x0, 512, all 64 64 (fun i => (cell i).val.toNat)), (0x200, 8, all 64 1 (fun i => if (cell i).poison then 1 else 0)),
   (0x208, 8, k.preds.toNat + (if wd then 256 else 0)), (0x400, 128, all 64 16 k.flag),
   (0x480, 192, all 3 512 (fun i => (k.maskReg (i + 1)).toNat)), (0x600, 1024, all 16 512 (fun i => (k.mapReg i).toNat)),
   (0xA00, 256, all 4 512 (fun i => (k.seqSlots.get 0 i).toNat)), (0xB00, 128, all 16 64 (fun i => (k.fmt.get 0 i).toNat)),
   (0xB80, 128, all 32 32 (fun i => (k.queue i).stat)), (0xC00, 1024, (s.freeWord 8192 0).toNat),
   (0x1000, 32768, all 4096 64 (fun i => if selAssignedNat i then (s.readCw b i).toNat else 0)),
   (0x9000, 2048, all 256 64 (fun i => (k.scaleRow i).toNat)), (0xA000, 4096, packElems 128 (k.apertures.map (fun e => e.toNat))),
   (0x10000, 65536, all 256 2048 (fun i => match (k.queue (i / 8)).slots[i % 8]? with
     | some x => (x.data.getD 0).toNat
     | none => 0)),
   (0x20000, 17408, all 4 34816 packet), (0x24400, 2048, all 16 1024 coll)]

/-- n 256-byte lines of a local memory from a, with their markers, written at home from an HBM line. -/
def Die.saveLines (d : Die) (m : Mem) (a line : Nat) : Nat → Die
  | 0 => d
  | n + 1 => (Die.saveLines d m a line n).writeLine (line + n) (m.load (a + 256 * n) 256) (ones 256) (m.marksAt ((a + 256 * n) / 8) 32)

/-- The same lines read back. -/
def Die.loadLines (d : Die) (m : Mem) (a line : Nat) : Nat → Die × Mem
  | 0 => (d, m)
  | n + 1 =>
    let (d, m) := Die.loadLines d m a line n
    let (d, l) := d.readLine (line + n) 0 false
    (d, m.merge ((a + 256 * n) / 8) l.data.toNat (ones 256) l.marks.toNat 32)

/-- The words of the bank's tables, tiles, slots and open packets that hold an uncorrectable error or a marker, as offset, bytes and
contents: they are saved with poison markers (R341, R349; DEDUCED, log 13). -/
def State.saveMarked (s : State) (b : Nat) (j : Job) : State × List (Nat × Nat × Nat) :=
  let k := s.bank b
  let c := s.core (bankCore b)
  let tables := k.fmtErr.map (fun i => (0xB00 + 8 * i, 8, (k.fmt.get 0 i).toNat)) ++
    k.scaleErr.map (fun r => (0x9000 + 8 * r, 8, (k.scaleRow r).toNat)) ++
    (List.range 32).flatMap (fun q => ((k.queue q).slots.zipIdx.filter (fun x => k.slotErr.contains x.1.id)).map (fun x =>
      (0x10000 + 2048 * q + 256 * x.2, 8, (x.1.data.getD 0).toNat % 2 ^ 64))) ++
    (k.openPkts.zipIdx).flatMap (fun p => ((List.range 512).filter p.1.marks.testBit).map (fun i =>
      (0x20000 + 4352 * p.2 + 64 + 8 * i, 8, leNat ((p.1.data.drop (8 * i)).take 8))))
  let rows := (j.tiles b).zipIdx.flatMap (fun p => (c.tileErr.filter (fun e => e.1 == p.1)).map (fun e =>
    (0xC0000 + 0x40000 * p.2 + 1024 * e.2, 1024, packElems 32 ((s.tile b p.1).row e.2 |>.map (fun x => x.toNat)))))
  (j.slots b).zipIdx.foldl (fun (a : State × List (Nat × Nat × Nat)) p =>
    let (s, _) := a.1.scanSlot (bankCluster b) p.1
    let x := (s.cluster (bankCluster b)).bstore.get BSlot.empty p.1
    (s, a.2 ++ x.marks.map (fun w =>
      (0x1C0000 + 0x10000 * p.2 + 8 * w, 8, leNat ((x.bytes.drop (8 * w)).take 8))))) (s, tables ++ rows)

/-- The save area written. -/
def State.writeSave (s : State) (b : Nat) (j : Job) (wd : Bool) : State :=
  let base := s.saveBase b
  let c := s.core (bankCore b)
  let fields := s.saveFields b wd ++
    (j.tiles b).zipIdx.map (fun p => (0xC0000 + 0x40000 * p.2, 0x40000,
      packElems 8192 ((List.range 256).map (fun r => packElems 32 ((s.tile b p.1).row r |>.map (fun x => x.toNat)))))) ++
    (j.slots b).zipIdx.map (fun p => (0x1C0000 + 0x10000 * p.2, 0x10000,
      leNat ((s.cluster (bankCluster b)).bstore.get BSlot.empty p.1).bytes))
  let (s, marked) := s.saveMarked b j
  s.modDie (bankDie b) (fun d =>
    let d := fields.foldl (fun (d : Die) f => d.write (base + f.1) f.2.1 f.2.2 false) d
    (marked.foldl (fun (d : Die) f => d.write (base + f.1) f.2.1 f.2.2 true) d).saveLines c.sp j.spBase ((base + 0x40000) / 256) (j.spSize / 256))

/-! Pre-emption. -/

/-- The word at EPC has made its consume: a WAITF or PARK is pending (R388). -/
def Bank.wordPending (k : Bank) : Bool := (k.cw cwESTAT).getLsbD 20 && k.heldWait

/-- A bank that may be saved: its handler's TRET waits, and every operation, increment and collective of it is over
(R387 step 4). Its bound streams stand between elements. -/
def State.maySave (s : State) (b : Nat) : Bool :=
  let k := s.bank b
  k.stopS && (match k.blocked with | some ⟨.tret, _, _⟩ => true | _ => false) && k.awake && k.ops.all Op.isBound &&
  k.vloop.isNone && k.cloop.isNone && k.mloop.isNone && k.incs.isEmpty && (s.collsOf b).all (fun c => c.phase == .cancelled) &&
  k.pend.all (fun p => p.landed)

/-- PREEMPT_SAVE: the bank is published at fabric scope, saved, and freed. -/
def execPreemptSave (b : Nat) (s : State) : Out :=
  let k := s.bank b
  .next (match k.job with
    | none => s
    | some j =>
      if !s.maySave b then s else
      let tret := match k.blocked with | some w => w.signal | none => 0
      let s := (s.publish b 5).dropLease b true
      let s := (s.writeSave b j k.wordPending).spend
      let s := s.modCluster (bankCluster b) (fun c => { c with coll := c.coll.filter (fun x => x.bank != b) })
      let kept : Kept := {
        job := j, ops := k.ops, behind := k.veDyn - k.vaDyn, phases := k.phases, sloop := k.sloop,
        mbcfg := k.cw cwMBCFG, halo := k.halo, lease := (s.bank b).leaseOwed, tret := tret, yielded := k.yielded, held := k.held,
        reshardTrap := k.reshardTrap,
        ringed := (s.core (bankCore b)).ringed.filter j.ownsWord }
      let s := s.setBank b { Bank.reset with tlb := k.tlb, lastPoint := k.lastPoint, stamp := k.stamp, scaleErr := k.scaleErr }
      (s.modLaunch j.seq (fun l => l.modPlace j.jidx (fun p => { p with phase := .saved, kept := some kept }))).checkEnd j.seq)

/-! Resumption. -/

/-- Field x of a save area. -/
def State.loadField (s : State) (b off n : Nat) : State × Nat :=
  let (d, v, _) := (s.die (bankDie b)).read (s.saveBase b + off) n
  (s.setDie (bankDie b) d, v)

/-- The 8-byte words of n bytes of a save area (n a multiple of 256) that are marked poisoned, by number. -/
def State.markedWords (s : State) (b off n : Nat) : State × List Nat :=
  let line := (s.saveBase b + off) / 256
  let skip := (s.saveBase b + off) % 256 / 8
  let (d, ws) := (List.range (n / 256 + 1)).foldl (fun (a : Die × List Nat) i =>
    let (d, l) := a.1.readLine (line + i) 0 false
    (d, if l.marks = 0 then a.2 else a.2 ++ ((List.range 32).filter (fun w => l.marks.getLsbD w)).map (fun w => 32 * i + w)))
    (s.die (bankDie b), [])
  (s.setDie (bankDie b) d, (ws.filter (fun w => decide (skip ≤ w) && decide (w < skip + n / 8))).map (fun w => w - skip))

/-- A queue from its QSTAT group and its elements. -/
def queueFrom (stat elems : Nat) (id : Nat) : Queue :=
  let n := stat % 16
  { depth := stat / 16 % 16 + 1, slots := (List.range n).map (fun i => ⟨agentSlot (id + i), some (BitVec.ofNat 2048 (elems / 2 ^ (2048 * i)))⟩),
    prod := (match stat / 256 % 4 with | 0 => .none | 1 => .stream | _ => .peer),
    cons := (match stat / 1024 % 4 with | 0 => .none | 1 => .sink | 2 => .peer | _ => .m), popCyc := 0, popCnt := 0 }

/-- Open packets from their records, and the words of these that are marked. -/
def packetsFrom (v : Nat) (marked : List Nat) : List OpenPkt :=
  ((unpackElems 34816 4 v).zipIdx).filterMap (fun (x, i) =>
    if x.testBit 24 then
      some ⟨x % 2 ^ 14 * 2 ^ 10 + x / 2 ^ 14 % 64 * 16 + x / 2 ^ 20 % 2 * 8 + x / 2 ^ 21 % 8, leBytes (x / 2 ^ 64 % 2 ^ 16) (x / 2 ^ 512),
        ((marked.filter (fun w => decide (544 * i + 8 ≤ w) && decide (w < 544 * i + 544))).map (fun w => 2 ^ (w - 544 * i - 8))).sum⟩
    else none)

/-- Collective instances queued again, in their post order, ahead of any other of the bank (R464). -/
def collsFrom (b seq pkg v : Nat) : List Coll :=
  (unpackElems 1024 16 v).filterMap (fun x =>
    if x.testBit 528 then
      some ⟨BitVec.ofNat 512 x, x / 2 ^ 512 % 2 ^ 16, b, seq, pkg, x.testBit 529, true, .queued, 0, false, false, false, [], [], [], []⟩
    else none)

/-- The bank as its save area and what was kept of it give it, before its increments and its TRET. -/
def State.loadBank (s : State) (b : Nat) (kept : Kept) : State :=
  let j := kept.job
  let cut := fun (n w v : Nat) => (unpackElems w n v).zipIdx.map (fun p => (p.2, p.1))
  let (s, regs) := s.loadField b 0 512
  let (s, bad) := s.loadField b 0x200 8
  let (s, preds) := s.loadField b 0x208 8
  let (s, flags) := s.loadField b 0x400 128
  let (s, masks) := s.loadField b 0x480 192
  let (s, maps) := s.loadField b 0x600 1024
  let (s, seqs) := s.loadField b 0xA00 256
  let (s, fmt) := s.loadField b 0xB00 128
  let (s, fmtErr) := s.markedWords b 0xB00 128
  let (s, scaleErr) := s.markedWords b 0x9000 2048
  let (s, elemErr) := s.markedWords b 0x10000 65536
  let (s, qstat) := s.loadField b 0xB80 128
  let (s, ctl) := s.loadField b 0x1000 32768
  let (s, ascale) := s.loadField b 0x9000 2048
  let (s, apt) := s.loadField b 0xA000 4096
  let (s, elems) := s.loadField b 0x10000 65536
  let (s, pkts) := s.loadField b 0x20000 17408
  let (s, pktMarks) := s.markedWords b 0x20000 17408
  let (s, colls) := s.loadField b 0x24400 2048
  let old := s.bank b
  let ctl := (cut 4096 64 ctl).filter (fun p => selAssignedNat p.1) |>.map (fun p => (p.1, (BitVec.ofNat 64 p.2 : W64)))
  let vring := SMap.get ctl 0 cwVRING
  let n2 := 2 * ringN vring
  let lead := fld (SMap.get ctl 0 cwVLSTAT) 27 6
  let k : Bank := { Bank.reset with
    job := some { j with phase := .running },
    sregs := (cut 64 64 regs).map (fun p => (p.1, ⟨BitVec.ofNat 64 p.2, bad.testBit p.1⟩)),
    preds := BitVec.ofNat 8 preds, heldWait := preds.testBit 8,
    flags := (cut 64 16 flags).map (fun p => (p.1, BitVec.ofNat 16 p.2)),
    masks := (cut 3 512 masks).map (fun p => (p.1 + 1, BitVec.ofNat 512 p.2)),
    maps := (cut 16 512 maps).map (fun p => (p.1, BitVec.ofNat 512 p.2)),
    seqSlots := (cut 4 512 seqs).map (fun p => (p.1, BitVec.ofNat 512 p.2)),
    fmt := (cut 16 64 fmt).map (fun p => (p.1, BitVec.ofNat 64 p.2)),
    queues := (cut 32 32 qstat).map (fun p => (p.1, queueFrom p.2 (elems / 2 ^ (16384 * p.1) % 2 ^ 16384) (s.nextId + 8 * p.1))),
    ctl := ctl,
    ascale := (cut 256 64 ascale).map (fun p => (p.1, BitVec.ofNat 64 p.2)),
    fmtErr := fmtErr, scaleErr := scaleErr,
    slotErr := ((elemErr.map (fun w => w / 32)).foldl insertNat []).map (fun e => agentSlot (s.nextId + e)),
    apertures := apTable apt,
    openPkts := packetsFrom pkts pktMarks,
    vaPos := (ringRP vring + lead + (n2 - kept.behind % n2)) % n2,
    vaDyn := lead, veDyn := kept.behind, vaSeen := lead, veSeen := kept.behind,
    ops := kept.ops, phases := kept.phases, sloop := kept.sloop, held := kept.held, reshardTrap := kept.reshardTrap, halo := kept.halo,
    tlb := old.tlb, lastPoint := old.lastPoint, stamp := s.cycle, idleSince := s.cycle }
  let s := { s.setBank b k with nextId := s.nextId + 256 }
  s.modCluster (bankCluster b) (fun c => { c with coll := collsFrom b j.seq j.pkg colls ++ c.coll })

/-- Its tiles, slots and scratchpad range. -/
def State.loadArrays (s : State) (b : Nat) (j : Job) : State :=
  let s := (j.tiles b).zipIdx.foldl (fun (s : State) p =>
    let (s, v) := s.loadField b (0xC0000 + 0x40000 * p.2) 0x40000
    (unpackElems 8192 256 v).zipIdx.foldl (fun (s : State) r =>
      s.setTileRow b p.1 r.2 ((unpackElems 32 256 r.1).map (fun x => BitVec.ofNat 32 x))) s) s
  let s := (j.tiles b).zipIdx.foldl (fun (s : State) p =>
    let (s, ws) := s.markedWords b (0xC0000 + 0x40000 * p.2) 0x40000
    let rows := (ws.map (fun w => w / 128)).foldl insertNat []
    s.modCore (bankCore b) (fun c => { c with tileErr := c.tileErr ++ rows.map (fun r => (p.1, r)) })) s
  let s := (j.slots b).zipIdx.foldl (fun (s : State) p =>
    let (s, v) := s.loadField b (0x1C0000 + 0x10000 * p.2) 0x10000
    let (s, ws) := s.markedWords b (0x1C0000 + 0x10000 * p.2) 0x10000
    s.modCluster (bankCluster b) (fun c =>
      let x := (c.bstore.get BSlot.empty p.1).put 0 0x10000 v
      { c with bstore := c.bstore.set p.1 { x with gen := x.gen + 1, marks := ws } })) s
  let (d, sp) := (s.die (bankDie b)).loadLines (s.core (bankCore b)).sp j.spBase ((s.saveBase b + 0x40000) / 256) (j.spSize / 256)
  (s.setDie (bankDie b) d).modCore (bankCore b) (fun c => { c with sp := sp })

/-- The entries that the handler's RASAVE removed, reinstated from their image (R449). An image that may not be reinstated
raises the trap of RALOAD. -/
def State.resumeRasm (s : State) (b : Nat) : State × Option Trap :=
  let w := (s.bank b).cw cwRASTAT
  if !w.getLsbD 0 then (s, none) else
  match s.readImage b (fld w 16 40 * 256) with
  | (s, .error t) => (s, some t)
  | (s, .ok es) => (s.reinstate b es, none)

/-- Increments held for the bank on its die are made in their arrival order (R389 step 3). -/
def State.applyHeld (s : State) (b : Nat) (seq : Nat) : State :=
  let d := s.die (bankDie b)
  let mine : RIncr → Bool := fun i => i.bank == b && i.seq == some seq
  let s := s.modDie (bankDie b) (fun d => { d with heldIncs := d.heldIncs.filter (fun i => !mine i) })
  (d.heldIncs.filter mine).foldl (fun (s : State) i => s.modBank b (fun k => k.agentInc s.cycle i.flag)) s

/-- The interrupted TRET completes, a YIELD lands its 1, and a bank that held a lease asks for the array again. -/
def State.completeTret (s : State) (b : Nat) (kept : Kept) (trap : Option Trap) : State :=
  let s := s.modBank b (fun k => (k.returnTrap s.cycle).signalDone s.cycle .s kept.tret)
  let s := s.modBank b (fun k => match kept.yielded with
    | some (d, sig) => (k.setS d 1 false).signalDone s.cycle .s sig
    | none => k)
  let (id, s) := s.newId
  let s := if !kept.lease then s else s.modBank b (fun k => { (k.putCw cwMSTAT 2 1 1) with
    ops := k.ops ++ [⟨id, .m, 0, 0, s.cycle, s.cycle + 1, .mlease, [], none, false⟩] })
  match trap with
  | some t => s.trapS b t
  | none => s

/-- The collectives that a bank's save area queues again start from its restored SRC (R464). -/
def State.recollect (s : State) (b : Nat) : State :=
  let cl := bankCluster b
  s.modCluster cl (fun c => { c with coll := c.coll.map (fun x =>
    if x.bank = b ∧ x.phase = .queued then { x with image := s.ccImage cl x } else x) })

/-- One bank of a launch resumes (R389). Its core's instruction-cache lines are dropped as at a job start: R389 does not say so,
and a line may leave the cache at any time (R170; DESIGN CHOICE, log 11). -/
def State.resumeBank (s : State) (seq : Nat) (p : Place) : State :=
  match p.kept with
  | none => s
  | some kept =>
    let b := p.bank
    let s := ((s.loadBank b kept).loadArrays b kept.job).recollect b
    let s := s.modCore (bankCore b) (fun c => { (c.l1Map (fun l => l.dropClean (BitVec.ofNat 64 (ones 64)))) with
      ic := [], ringed := kept.ringed.foldl insertNat (c.ringed.filter (fun w => !kept.job.ownsWord w)) })
    let (s, trap) := s.resumeRasm b
    let s := (s.applyHeld b seq).completeTret b kept trap
    s.modLaunch seq (fun l => l.modPlace p.jidx (fun p => { p with phase := .running, kept := none }))

/-- LAUNCH_RESUME: a pre-empted launch resumes on the same banks, all of them free, like a waiting launch of its level: at the
head of it, and after the launches of higher levels that fit (R381, R389). The reassembly entries of its images must fit
(R449). -/
def execLaunchResume (pkg seq : Nat) (s : State) : Out :=
  .next (match s.launchOf seq with
    | none => s
    | some l =>
      let room := (l.diesUsed).all (fun d => decide ((s.die d).rasm.length + (l.jobs.foldl (fun n p =>
        if bankDie p.bank = d then n + ((s.die d).rasmKept.filter (fun e => e.bank == p.bank && e.seq == seq)).length else n) 0) ≤ 256))
      let turn := (match (s.hub pkg).level l.level with | h :: _ => h.seq == seq | [] => false) &&
        (List.range 8).all (fun n => decide (n ≤ l.level) || (match (s.hub pkg).level n with
          | h :: _ => !s.couldIssue h
          | [] => true))
      if pkgOfSeq seq != pkg || l.phase != .preempted || !s.banksFree l [] || !room || !turn || (s.hub pkg).stopped ||
        !((s.hub pkg).reg 0x20000).getLsbD 0 then s else
      let s := s.modLaunch seq (fun l => { l with phase := .live, issuedAt := s.cycle })
      l.jobs.foldl (fun (s : State) p => s.resumeBank seq p) s)

end Sys2Proof.Machine
end

