-- ==== Sys2Proof/Machine/EvMemory.lean ====
section
/-! DEFINITION. The events of a die's memory and of control space: requests at the MSC (R337), gateway reads (R344), the host's
accesses (R367, R419), the patrol scrubber (R350), and writes of control registers (R7, R8, R348, R351, R397, R412, R427, R436). -/

namespace Sys2Proof.Machine

/-! Requests. -/

/-- MSC_READ: n bytes at a local offset; a use count and dead mark travel with the request (R338). -/
def execMscRead (die off n : Nat) (use : BitVec 4) (dead : Bool) (s : State) : Out :=
  let (d, v, _) := (s.die die).homeRead off n use.toNat dead (n / 256 + 2)
  .next ((s.setDie die d).reads (leBytes n v) (d.wordMarks off n))

/-- MSC_MASKED_WRITE: the bytes of one 64-byte block that its mask names. -/
def execMscMaskedWrite (die off : Nat) (data : BitVec 512) (mask : BitVec 64) (s : State) : Out :=
  let sh := off / 64 % 4
  .next (s.modDie die (fun d => d.writeLine (off / 256) (data.toNat <<< (512 * sh)) (mask.toNat <<< (64 * sh)) 0))

/-- MSC_BANK_ALU_OP: one read and write as a whole; an operation code that R104 does not assign writes nothing. -/
def execMscBankAluOp (die off : Nat) (op : BitVec 4) (size : BitVec 2) (x : W64) (s : State) : Out :=
  let n := 2 ^ size.toNat
  let (s, old, bad) := s.homeAtomic (die * 2 ^ 42 + off) n (fun old =>
    if op.toNat ≤ 9 then some (amoOp op.toNat n old (x.toNat % 256 ^ n)) else none)
  .next (s.reads (leBytes n old) (if bad then 1 else 0))

/-- GATEWAY_READ: n bytes at a domain address for a bank, past its L1. -/
def execGatewayRead (b addr n : Nat) (s : State) : Out :=
  let (s, v, bad) := s.physRead b addr n 0 false (n / 256 + 2)
  .next (s.reads (leBytes n v) (if bad then ones (ceilDiv n 8) else 0))

/-- PATROL_SCRUB: the scrubber reads an HBM word, unless it is stopped. -/
def execPatrolScrub (die off : Nat) (s : State) : Out :=
  .next (if fld ((s.die die).reg 0x10030) 0 16 = 0 then s else s.modDie die (fun d => d.scan (off / 8) 1))

/-! The host (R419). -/

/-- The die and the local offset of a host offset, and whether it is control space. -/
def hdmTarget (pkg off : Nat) : Nat × Nat × Bool :=
  if off < 2 ^ 39 then (pkgDie pkg (off / 2 ^ 36), off % 2 ^ 36, false)
  else (pkgDie pkg (off / 2 ^ 30 % 8), off % 2 ^ 30, true)

/-- HOST_MEM_READ. An offset from `hostBase` on names the host's own memory, with the host as its home (R367, log 64). -/
def execHostMemRead (pkg off n : Nat) (s : State) : Out :=
  if hostBase ≤ off then .next (s.reads (leBytes n (s.hostMem.load (off - hostBase) n)) 0) else
  let (die, o, ctl) := hdmTarget pkg off
  if ctl then .next ((s.afterCtl (ctlReadEvents die o n)).reads (leBytes n (s.ctlBytes die o n)) 0) else
  let (s, v, _) := s.homeLoad (die * 2 ^ 42 + o) n
  .next (s.reads (leBytes n v) ((s.die die).wordMarks o n))

/-- HOST_MEM_WRITE: performed at home; a 64-byte write into the launch window submits a record, and a write of another size
there is discarded (R374). A write of the host's own memory is performed there (R367, log 64). -/
def execHostMemWrite (pkg off : Nat) (data : List Byte) (s : State) : Out :=
  let n := data.length
  let v := leNat data
  if hostBase ≤ off then .next { s with hostMem := s.hostMem.write (off - hostBase) n v false } else
  let (die, o, ctl) := hdmTarget pkg off
  .next (if !ctl then s.modDie die (fun d => d.write o n v false)
    else if 0x8000 ≤ o ∧ o < 0x9000 then
      (if n = 64 ∧ o % 64 = 0 ∧ (s.die die).isReady 6 then { s with agenda := .event (.hostLaunchWrite pkg (BitVec.ofNat 512 v)) :: s.agenda } else s)
    else s.ctlPut die o n v (n / 8 + 2))

/-! Jetstream (R348). -/

/-- Owner of lane l in entry p of the active table: the default one until a swap. Placement on the ring is timing, so no other
unit of the model reads it (log 1). -/
def Die.jsOwner (d : Die) (p l : Nat) : Nat :=
  match d.jsActive.find? p with
  | some w => fld w (8 * l) 8
  | none => jsDefault p l

/-- Owner of lane l in entry p of the shadow table. -/
def Die.jsShadow (d : Die) (p l : Nat) : Nat := d.jsEntry p / 256 ^ l % 256

/-- The shadow table has only owners that exist, and every station owns a slot. -/
def Die.jsShadowOk (d : Die) : Bool :=
  let owners := (List.range 256).flatMap (fun p => (List.range 4).map (fun l => d.jsShadow p l))
  owners.all (fun o => decide (o < 96) || o == 255) && (List.range 96).all (fun s => owners.contains s)

/-- JSCTL_SWAP: refused with ERR, or pending. -/
def execJsctlSwap (die : Nat) (s : State) : Out :=
  .next (s.modDie die (fun d =>
    let w := d.reg 0x10000
    if w.getLsbD 1 || !d.jsShadowOk then d.setReg 0x10000 (putFld w 2 1 1)
    else { d.setReg 0x10000 (putFld w 1 1 1) with swapAt := s.cycle }))

/-- JSTAB_INSTALL: a pending swap is made at the next cycle after its write whose count is a multiple of 256. -/
def execJstabInstall (die : Nat) (s : State) : Out :=
  .next (s.modDie die (fun d =>
    let w := d.reg 0x10000
    if !w.getLsbD 1 || (s.cycle - d.born) % 256 != 0 || decide (s.cycle ≤ d.swapAt) then d else
    { d.setReg 0x10000 (putFld w 1 1 0) with
      jsActive := (List.range 256).map (fun p => (p, BitVec.ofNat 64 (d.jsEntry p))) }))

/-- REPLICA_DROP_DONE: every replica is gone, and BUSY is clear (R345). -/
def execReplicaDropDone (die : Nat) (s : State) : Out :=
  .next (s.modDie die (fun d =>
    let w := d.reg 0x10010
    if !w.getLsbD 4 then d else { d.setReg 0x10010 (putFld w 4 1 0) with replicas := [] }))

/-! Re-shard tables (R412). -/

/-- A table in use by a re-shard in flight on the die. -/
def Die.rsBusy (d : Die) (t : Nat) : Bool :=
  d.reshards.any (fun r => r.inflight && r.ops.any (fun o => fld o.2.2.1 7 2 == t))

/-- RSDATA_ACCESS: a write of the addressed entry, unless its table is in use; AINC then moves on. -/
def execRsdataAccess (die : Nat) (wr : Bool) (v : W64) (s : State) : Out :=
  .next (s.modDie die (fun d =>
    let ix := d.reg 0x30000
    let t := fld ix 0 2
    let e := fld ix 2 14
    let d := if wr && fld v 24 40 == 0 && !d.rsBusy t then { d with rsTable := d.rsTable.set (t * 16384 + e) v } else d
    if ix.getLsbD 16 then d.setReg 0x30000 (putFld ix 2 14 (e + 1)) else d))

/-! Writes of control registers. -/

/-- The bits of a register that a write of it may set: others are reserved, and a 1 there refuses the write (R8). Registers
that hardware alone writes take no write. -/
def ctlFields (off : Nat) : Nat :=
  match off with
  | 0x10000 => 7
  | 0x10010 => 31
  | 0x10020 => ones 64
  | 0x10030 => ones 16
  | 0x10040 => bitsOf 16 32
  | 0x10048 => ones 17
  | 0x20000 => 3
  | 0x20008 | 0x20018 | 0x20028 | 0x20030 => ones 32
  | 0x20010 => ones 24
  | 0x20020 => bitsOf 22 14
  | 0x20038 => ones 16
  | 0x20040 => ones 7
  | 0x20048 => bitsOf 12 36
  | 0x20050 => ones 12
  | 0x30000 => ones 17
  | 0x30008 => ones 24
  | 0x30010 | 0x30018 | 0x30020 | 0x30028 => ones 15
  | 0x40100 => ones 33
  | 0x50000 => ones 16
  | 0x50008 => ones 5
  | 0x100000 => ones 29
  | 0x100008 => ones 8
  | 0x100010 => ones 11
  | 0x100018 => ones 64
  | 0x100020 => bitsOf 26 10
  | 0x100028 => ones 32
  | _ => if 0x10400 ≤ off ∧ off < 0x10800 then ones 64 else 0

/-- A domain extent is even and lies in its range (R436). -/
def fdomOk (v : W64) : Bool := v.getLsbD 0 && v.getLsbD 4 && v.getLsbD 9

/-- A register of Zenith or of the power block takes a value. -/
def State.hubWrite (s : State) (pkg off : Nat) (v : W64) : State := s.modHub pkg (fun h => h.setReg off v)

/-- The event that a control write brings about comes before anything else. -/
def State.push (s : State) (e : Event) : State := { s with agenda := .event e :: s.agenda }

/-- At most n replicas stay in each set, the newest (R345). -/
def Die.trimReplicas (d : Die) (n : Nat) : Die :=
  { d with replicas := d.replicas.foldr (fun g kept =>
      if (kept.filter (fun x => repSet x.line == repSet g.line)).length < n then g :: kept else kept) [] }

/-- A write to the die-memory block (R351, R395). -/
def State.writeMemReg (s : State) (die off : Nat) (v : W64) : State :=
  let d := s.die die
  let old := d.reg off
  match off with
  | 0x10000 =>
    let s := s.setDie die (d.setReg off (old &&& ~~~(v &&& 4)))
    if v.getLsbD 0 then s.push (.jsctlSwap die) else s
  | 0x10010 =>
    if v.getLsbD 0 && (fld v 1 3 == 0 || fld v 1 3 == 7) then s else
    let busy := old.getLsbD 4 || (old.getLsbD 0 && !v.getLsbD 0)
    s.setDie die ((if v.getLsbD 0 then d.trimReplicas (fld v 1 3) else d).setReg off (putFld v 4 1 (if busy then 1 else 0)))
  | 0x10020 => s.setDie die (d.setReg off (old &&& ~~~(v &&& BitVec.ofNat 64 (ones 25))))
  | 0x10048 =>
    if v.getLsbD 15 then s.push (.shootdownGo die v)
    else s.setDie die (d.setReg off ((old &&& 0x10000) ||| (v &&& 0x7FFF)))
  | _ =>
    if 0x10400 ≤ off then
      s.setDie die ((d.setReg off (BitVec.ofNat 64 (fld v 0 32))).setReg (off + 4) (BitVec.ofNat 64 (fld v 32 32)))
    else s.setDie die (d.setReg off v)

/-- A write to the Zenith block (R397). -/
def State.writeZenith (s : State) (pkg off : Nat) (v : W64) : State :=
  match off with
  | 0x20028 => s.push (.zkill pkg (BitVec.ofNat 32 v.toNat))
  | 0x20030 => s.push (.zpre pkg (BitVec.ofNat 32 v.toNat))
  | 0x20020 => if 2 ^ 36 < v.toNat + 2 ^ 29 then s else s.hubWrite pkg off v
  | 0x20040 => s
  | 0x20050 => s.hubWrite pkg off (putFld ((s.hub pkg).reg off) 6 6 (fld v 6 6))
  | _ => s.hubWrite pkg off v

/-- A write to the fabric block (R436). -/
def State.writeFabric (s : State) (die off : Nat) (v : W64) : State :=
  let d := s.die die
  let old := d.reg off
  let locked := (d.reg 0x100000).getLsbD 28
  match off with
  | 0x100000 => if locked || !fdomOk v then s else s.setDie die (d.setReg off (putFld v 14 14 0))
  | 0x100008 => s.setDie die (d.setReg off (old &&& ~~~(v &&& 0x80)))
  | 0x100010 => s.setDie die { d.setReg off v with level := max d.level (fld v 8 3) }
  | 0x100018 => s
  | 0x100028 => if locked then s else s.setDie die (d.setReg off v)
  | _ => s.setDie die (d.setReg off v)

/-- CONTROL_REGISTER_WRITE: an 8-byte write of the register at an offset, discarded while its function is not usable (R426) or
where no register takes it (R423). -/
def execControlRegisterWrite (die off : Nat) (v : W64) (s : State) : Out :=
  let d := s.die die
  let pkg := pkgOf die
  .next (match ctlFunction off with
    | none => s
    | some f =>
      if !d.isReady f || v &&& ~~~(BitVec.ofNat 64 (ctlFields off)) != 0 then s else
      match f with
      | 0 => s.writeMemReg die off v
      | 1 => s.writeZenith pkg off v
      | 2 =>
        if off = 0x30008 then s.push (.rsdataAccess die true v)
        else if 0x30010 ≤ off && d.rsBusy ((off - 0x30010) / 8) then s
        else s.setDie die (d.setReg off v)
      | 3 =>
        if off != 0x40100 || fld v 11 5 != 0 then s
        else if v.getLsbD 32 then s.push (.pageAnswerGrant (pkgDie pkg (fld v 8 3)) (fld v 0 8) (BitVec.ofNat 16 (fld v 16 16)))
        else s.push (.pageAnswerDeny (pkgDie pkg (fld v 8 3)) (fld v 0 8) (BitVec.ofNat 16 (fld v 16 16)))
      | 4 => if off = 0x50000 then s.hubWrite pkg off v else s
      | 5 => s.writeFabric die off v
      | _ => s)

end Sys2Proof.Machine
end

