-- ==== Sys2Proof/Machine/EvPages.lean ====
section
/-! DEFINITION. The events of translation: requests and answers for pages (R98, R335, R394, R422) and shoot-downs (R395). -/

namespace Sys2Proof.Machine

/-- TRANSLATION_REQUEST: a paged access of bank b that its translation buffer does not serve goes to the home unit, which
grants it or turns it into a page request (R335). -/
def execTranslationRequest (b : Nat) (va : W64) (wr : Bool) (s : State) : Out :=
  .next (match apFind (s.bank b).apertures va.toNat with
    | none => s
    | some e =>
      if !apPaged e || !(s.bank b).started then s else
      match s.translatePaged b va.toNat (apRoot e) wr with
      | (s, .absent root _) => s.parkFor b 0 va.toNat wr root
      | (s, _) => s)

/-! Answers. -/

/-- The wait is for the page of a request. -/
def PageReq.serves (r : PageReq) (p : PageWait) : Bool := p.va / 2 ^ 16 == r.va / 2 ^ 16 && p.root == r.root

/-- The request answered, and gone from its unit. -/
def State.takeRequestOf (s : State) (die rqn : Nat) : State :=
  s.modDie die (fun d => { d with requests := d.requests.filter (fun r => r.rqn != rqn) })

/-- An access of S that waited for its page has been performed, or is denied: what waited for it goes on (R355, R359). -/
def State.performed (s : State) (b : Nat) : State :=
  (s.modBank b (fun k => if k.unperformed then k else { k with heldFrom := [] })).wakePublish b

/-- An S access of a bank performed again after its page came (R98 step 2); one whose page is missing asks for it. -/
def State.retryPend (s : State) (b id : Nat) : State :=
  match (s.bank b).pend.find? (fun p => p.id == id) with
  | none => s
  | some p =>
    match p.page with
    | none => s
    | some a =>
      if s.behindStore b id a then s else
      match s.perform b a with
      | (s, .ok v bad) => (s.modBank b (fun k => { k with pend := k.pend.map (fun q =>
          if q.id = id then { q with val := BitVec.ofNat 64 v, poison := bad, page := none } else q) })).performed b
      | (s, .absent root _) => s.parkFor b id a.addr.toNat a.writes root

/-- The S accesses whose request could not be made, the 257th and later, try again now that a unit has room (R394). -/
def State.sendWaiting (s : State) : State :=
  s.banks.foldl (fun (s : State) x =>
    (s.bank x.1).pend.foldl (fun (s : State) p =>
      if p.page.isSome ∧ !(s.bank x.1).parked.any (fun q => q.id == p.id) then s.retryPend x.1 p.id else s) s) s

/-- One wait of a bank after a grant: the access is translated again, and performed or requested anew (R394 step 5). -/
def State.grantOne (s : State) (b : Nat) (p : PageWait) : State :=
  match s.translatePaged b p.va p.root p.wr with
  | (s, .absent root _) => s.sendRequest b p.va p.wr root
  | (s, _) => (s.modBank b (fun k => { k with parked := k.parked.filter (fun q => q != p) })).retryPend b p.id

/-- A bank with nothing left to wait for resumes in the next cycle (R394 step 5). -/
def State.resumeParked (s : State) (b : Nat) : State :=
  if !(s.bank b).parked.isEmpty then s else
  s.modBank b (fun k => k.issueFrom (s.cycle + 1))

/-- The waits of a bank that an answer serves. -/
def State.waitsFor (s : State) (b : Nat) (r : PageReq) : List PageWait := (s.bank b).parked.filter (fun p => r.serves p)

/-- PAGE_ANSWER_GRANT: an answer that names no request, or another tag than the request's, is discarded (R422); a merged
request serves its live banks (R394). -/
def execPageAnswerGrant (die rqn : Nat) (tag : BitVec 16) (s : State) : Out :=
  .next (match (s.die die).requests.find? (fun r => r.rqn == rqn) with
    | none => s
    | some r =>
      if r.tag % 2 ^ 16 ≠ tag.toNat then s else
      let s := s.takeRequestOf die rqn
      let s := r.banks.foldl (fun (s : State) b =>
        ((s.waitsFor b r).foldl (fun (s : State) p => s.grantOne b p) s).resumeParked b) s
      s.sendWaiting)

/-- The denial of access id of S at va, in the freeze it brings about: the earliest issued of the denied accesses gives TVAL (R98 step 3). A
fetch of the next S word (id 0) comes after every access. -/
def Bank.denyValue (k : Bank) (id : Nat) (va : W64) : Bank :=
  match k.freeze with
  | some fr =>
    if fr.point = some .s ∧ fr.cause = 0x07 ∧ id ≠ 0 ∧ (fr.deny = 0 ∨ id < fr.deny) then
      { k with freeze := some { fr with value := va, deny := id } }
    else k
  | none => k

/-- One wait of a bank after a denial (R98 step 3, R148, R394 step 6): the S result lands poisoned, with a value the manual
does not give, or the operation is gone with cause 0x07; S takes TCAUSE 0x07 for its own. -/
def State.denyOne (s : State) (b : Nat) (p : PageWait) : State :=
  let va : W64 := BitVec.ofNat 64 p.va
  let s := s.modBank b (fun k => { k with parked := k.parked.filter (fun q => q != p) })
  match (s.bank b).ops.find? (fun o => o.id == p.id) with
  | some o => (s.failOp b o []).faultE b o.point 0x07 va o.pos
  | none =>
    let s := s.spend.modBank b (fun k => { k with pend := k.pend.map (fun q =>
      if q.id = p.id then { q with val := s.freeWord 64 136, poison := true, page := none, denied := some va } else q) })
    ((s.freezeBy b (some .s) 0x07 va 0).modBank b (fun k => k.denyValue p.id va)).performed b

/-- A request denied: every bank it serves. -/
def State.denyRequest (s : State) (die : Nat) (r : PageReq) : State :=
  let s := s.takeRequestOf die r.rqn
  let s := r.banks.foldl (fun (s : State) b =>
    ((s.waitsFor b r).foldl (fun (s : State) p => s.denyOne b p) s).resumeParked b) s
  s.sendWaiting

/-- PAGE_ANSWER_DENY. -/
def execPageAnswerDeny (die rqn : Nat) (tag : BitVec 16) (s : State) : Out :=
  .next (match (s.die die).requests.find? (fun r => r.rqn == rqn) with
    | none => s
    | some r => if r.tag % 2 ^ 16 ≠ tag.toNat then s else s.denyRequest die r)

/-- PAGE_REQUEST_TIMEOUT: a denial is taken when no answer has come within ZPRTO (R394 step 7). -/
def execPageRequestTimeout (die rqn : Nat) (s : State) : Out :=
  let limit := fld ((s.hub (pkgOf die)).reg 0x20038) 0 16
  .next (match (s.die die).requests.find? (fun r => r.rqn == rqn) with
    | none => s
    | some r => if limit = 0 ∨ s.cycle < r.made + limit * 2 ^ 20 then s else s.denyRequest die r)

/-! Shoot-downs. -/

/-- The frames that the translation buffers of the domain hold for a page of a root die. -/
def State.framesOf (s : State) (page rdie : Nat) : List Nat :=
  s.banks.foldl (fun fs x => x.2.tlb.foldl (fun fs t =>
    if t.page = page ∧ paDie t.root = rdie then insertNat fs (leafPa t.root t.leaf 0) else fs) fs) []

/-- A line of size n bytes lies in one of the 64 KiB frames. -/
def inFrames (fs : List Nat) (line n : Nat) : Bool := fs.any (fun f => line * n / 2 ^ 16 == f / 2 ^ 16)

/-- Every core's lines of the frames written back and dropped, and the gateways' and replicas' lines of them dropped. -/
def State.flushFrames (s : State) (fs : List Nat) : State :=
  let s := s.cores.foldl (fun (s : State) x =>
    (s.l1CleanWhere x.1 (fun l => inFrames fs l.line 64)).modCore x.1 (fun c =>
      { c with l1 := c.l1.filter (fun l => !inFrames fs l.line 64) })) s
  { s with dies := s.dies.map (fun (x : Nat × Die) => (x.1, { x.2 with
      gw := x.2.gw.map (fun p => (p.1, p.2.filter (fun g => !inFrames fs g.line 256))),
      replicas := x.2.replicas.filter (fun g => !inFrames fs g.line 256) })) }

/-- SHOOTDOWN_GO: ignored while an earlier one is not done. The acknowledgements of the domain's cores are then awaited. -/
def execShootdownGo (die : Nat) (v : W64) (s : State) : Out :=
  let d := s.die die
  .next (if !v.getLsbD 15 || !d.shootPend.isEmpty then s else
    let page := fld (d.reg 0x10040) 16 32
    let rdie := fld v 0 14
    let fs := s.framesOf page rdie
    let s := { s with banks := s.banks.map (fun (x : Nat × Bank) => (x.1, { x.2 with
      tlb := x.2.tlb.filter (fun t => !(t.page == page && paDie t.root == rdie)) })) }
    let s := if v.getLsbD 14 then s.flushFrames fs else s
    s.modDie die (fun d => { d.setReg 0x10048 (v &&& 0x7FFF) with shootPend := [die] }))

/-- SHOOTDOWN_DONE: every acknowledgement has arrived, and DONE is set. No access of a bank is under way between two steps, so
nothing delays an acknowledgement. -/
def execShootdownDone (die : Nat) (s : State) : Out :=
  let d := s.die die
  .next (if d.shootPend.isEmpty then s else
    s.setDie die { d.setReg 0x10048 (d.reg 0x10048 ||| 0x10000) with shootPend := [] })

end Sys2Proof.Machine
end

