-- ==== Sys2Proof/Machine/EvPower.lean ====
section
/-! DEFINITION. The management controller's events: clock steps (R427 to R429), thermal shutdown (R428) and bring-up (R426). -/

namespace Sys2Proof.Machine

/-- The power requirement after a millisecond at an average power. -/
def powerNeed (cap old watts : Nat) : Nat :=
  if cap = 0 then 0
  else if cap < watts then min 12 (old + 1)
  else if 100 * watts < 95 * cap then old - 1
  else old

/-- The thermal requirement after a millisecond at a hottest junction. It stays within the steps of PCLK (DEDUCED, log 28). -/
def thermalNeed (old celsius : Nat) : Nat :=
  if 105 < celsius then min 12 (old + 1) else if celsius < 100 then old - 1 else old

/-- The step one move nearer to a requirement. -/
def stepToward (step need : Nat) : Nat := if step < need then step + 1 else if need < step then step - 1 else step

/-- POWER_MANAGEMENT_TICK: the millisecond of the controller, with the power and the temperature it reads. -/
def execPowerManagementTick (pkg watts celsius : Nat) (s : State) : Out :=
  let s := s.modHub pkg (fun h =>
    let p := powerNeed (fld (h.reg 0x50000) 0 16) h.power watts
    let t := thermalNeed h.thermal celsius
    let step := stepToward (fld (h.reg 0x50008) 0 4) (max p t)
    { h.setReg 0x50008 (BitVec.ofNat 64 (step + (if p < t then 16 else 0))) with power := p, thermal := t })
  .next (if 115 ≤ celsius then { s with agenda := .event (.thermalShutdown pkg) :: s.agenda } else s)

/-- THERMAL_SHUTDOWN: every launch of the package and on its dies is killed, and the package stops. -/
def execThermalShutdown (pkg : Nat) (s : State) : Out :=
  let hit := s.hubs.flatMap (fun (h : Nat × Hub) =>
    (h.2.launches.filter (fun (l : Launch) => l.phase != .ended &&
      (h.1 == pkg || l.diesUsed.any (fun d => pkgOf d == pkg)))).map (fun l => l.seq))
  .next ((hit.foldl (fun (s : State) q => s.killLaunch q) s).modHub pkg (fun h => { h with stopped := true }))

/-- BRING_UP: the die's units are at reset, its functions set their READY bits and are usable from the next cycle, and its cycle count
begins; its HBM keeps its bytes (DESIGN CHOICE, log 28). The hub comes up with local die 0. -/
def execBringUp (die : Nat) (s : State) : Out :=
  let old := s.die die
  let s := { s with
    banks := s.banks.filter (fun b => bankDie b.1 != die),
    cores := s.cores.filter (fun c => c.1 / 64 != die),
    clusters := s.clusters.filter (fun c => c.1 / 16 != die) }
  let s := s.setDie die { Die.reset with up := true, born := s.cycle, rising := BitVec.ofNat 8 127, hbm := old.hbm, soft := old.soft }
  .next (if localDie die = 0 then s.setHub (pkgOf die) Hub.reset else s)

end Sys2Proof.Machine
end

