-- ==== Sys2Proof/Machine/EvZenith.lean ====
section
/-! DEFINITION. The events of Zenith: submission by the host (R374), issue (R380), aging (R381), the agents' reports (R382), the end
of a launch (R379), kills (R396) and pre-emption by the host (R386). -/

namespace Sys2Proof.Machine

/-- HOST_LAUNCH_WRITE: a record is accepted, or refused with a status record at its STADDR. -/
def execHostLaunchWrite (pkg : Nat) (rec : BitVec 512) (s : State) : Out :=
  .next (if !(s.die (pkgDie pkg 0)).isReady 6 then s else
    let refuse := fun (s : State) (code : Nat) => s.hostWrite (lrStaddr rec) 64 (code * 2 ^ 32 + fld rec 384 64 * 2 ^ 192)
    if (s.hub pkg).qfree = 0 then refuse s 0x01 else
    match s.accept pkg rec none with
    | (s, some _) => s
    | (s, none) => refuse s 0x02)

/-- LAUNCH_ISSUE: one round of Zenith. -/
def execLaunchIssue (pkg : Nat) (s : State) : Out := .next (s.zenithRound pkg)

/-- LAUNCH_AGING: the head of a level below 7 that has waited its period moves to the tail of the next level. -/
def execLaunchAging (pkg level : Nat) (s : State) : Out :=
  let h := s.hub pkg
  let period := max 1 (fld (h.reg 0x20010) 0 24) * 1024
  .next (match h.level level with
    | [] => s
    | l :: _ =>
      if 7 ≤ level ∨ s.cycle < l.since + period then s else
      s.modHub pkg (fun h => { h with
        launches := h.launches.filter (fun x => x.seq != l.seq) ++ [{ l with level := level + 1, since := s.cycle }] }))

/-- Accumulator halves free on a die: two for a free core, one for an empty bank of a paired core (R382). -/
def State.freeHalves (s : State) (die : Nat) : Nat :=
  (List.range 64).foldl (fun n c =>
    let a := (s.bank (bankOf die c 0)).job
    let b := (s.bank (bankOf die c 1)).job
    n + (match a, b with
      | none, none => 2
      | some _, some _ => 0
      | some j, none => if j.paired then 1 else 0
      | none, some j => if j.paired then 1 else 0)) 0

/-- MiB of the MSC of a die that no launch holds. -/
def State.mscFree (s : State) (die : Nat) : Nat :=
  192 - s.holders.foldl (fun n l => if l.diesHeld.contains die then n + lrMscb l.record else n) 0

/-- The counts of a die's agent: free whole cores, free halves, free MSC budget, throttle level (R382). -/
def State.freeCounts (s : State) (die : Nat) : List Nat :=
  let cores := ((List.range 64).filter (fun c => !(s.bank (bankOf die c 0)).live && !(s.bank (bankOf die c 1)).live)).length
  [cores, s.freeHalves die, s.mscFree die, (s.die die).level]

/-- AGENT_FREE_REPORT. Placement sees the same counts as they stand (R382: a report is made on each change). -/
def execAgentFreeReport (die : Nat) (s : State) : Out := .next (s.modDie die (fun d => { d with report := s.freeCounts die }))

/-- LAUNCH_END: the status record is written, and what the launch held of layouts is gone (R379, R403). -/
def execLaunchEnd (pkg seq : Nat) (s : State) : Out :=
  .next (match (s.hub pkg).launches.find? (fun l => l.seq == seq && l.phase == .ended) with
    | none => s
    | some l =>
      let s := s.zenithWrite l (lrStaddr l.record) (l.status seq)
      let s := s.modHub pkg (fun h => { h with
        launches := h.launches.filter (fun x => x.seq != seq), installs := h.installs.filter (fun i => i.seq != seq) })
      { s with dies := s.dies.map (fun (x : Nat × Die) => (x.1, { x.2 with
          layouts := x.2.layouts.filter (fun e => e.seq != seq), reshards := x.2.reshards.filter (fun r => r.seq != seq),
          heldIncs := x.2.heldIncs.filter (fun i => i.seq != some seq) })) })

/-- ZKILL. -/
def execZkill (pkg : Nat) (seq : BitVec 32) (s : State) : Out :=
  .next (if pkgOfSeq seq.toNat = pkg then s.killLaunch seq.toNat else s)

/-- ZPRE. -/
def execZpre (pkg : Nat) (seq : BitVec 32) (s : State) : Out :=
  .next (if pkgOfSeq seq.toNat = pkg then s.requestPreempt seq.toNat else s)

end Sys2Proof.Machine
end

