-- ==== Sys2Proof/Machine/Agenda.lean ====
section
/-! DEFINITION. The default agenda of a cycle (DESIGN CHOICE, log 15). The manual leaves open in which order the agents of one
cycle act, and when within its bound a result lands. This is one order it allows; any other can be had by another agenda, since
every event judges for itself whether it may happen. -/

namespace Sys2Proof.Machine

/-! The first half: increments, landings, waits, traps, and the issue points. -/

/-- What a bank waits for in a blocking word, when it has come. -/
def State.wakeEvents (s : State) (b : Nat) (k : Bank) : List Event :=
  match k.blocked with
  | some ⟨.waitf .., _, _⟩ => [.waitfComplete b]
  | some ⟨.park _, _, _⟩ => [.parkWake b]
  | some ⟨.phase _, _, _⟩ => [.phaseBarrierComplete b]
  | some ⟨.ftime _ target, _, _⟩ => if target.toNat ≤ s.ft then [.ftimeUntilTargetReached b] else []
  | _ => []

/-- What the increments due, the results at their bound and the traps of a bank call for. -/
def State.bankEvents (s : State) (b : Nat) (k : Bank) : List Event :=
  let limit := fld (k.cw cwWDOG) 0 24
  let due := k.incs.any (k.applies s.cycle)
  (if due then [.flagUnitCycle b] else []) ++
  (k.pend.filter (fun p => !p.landed && p.page.isNone && decide (p.bound ≤ s.cycle))).map (fun p => .sResultLand b p.id) ++
  s.wakeEvents b k ++
  (if k.freeze.isSome then [.compositeRecordWrite b] else []) ++
  (if limit != 0 && decide (k.idleSince + limit * 1024 < s.cycle) then [.watchdogExpiry b] else []) ++
  (if due || !k.held.isEmpty || k.reshardTrap.isSome || (k.eie && k.cw cwCEVT != 0) then [.trapEntry b] else []) ++
  (if k.preempt && !k.stopS then [.preemptionLanding b] else [])

/-- The array of a cluster: its planes and its grant. -/
def State.arrayEvents (s : State) (cl : Nat) : List Event :=
  let a := (s.cluster cl).array
  let due := fun (p : Plane) => match p.loading with | some c => decide (c ≤ s.cycle) | none => false
  (if due a.plane0 then [.planeLoadComplete cl false] else []) ++ (if due a.plane1 then [.planeLoadComplete cl true] else []) ++
  (if (s.nextHolder cl).isSome && s.grantEnds cl || (List.range 8).any (fun i => (s.bank (8 * cl + i)).leaseEnds) then [.arrayGrantPass cl] else [])

/-- An issue point of a bank has something to look at. -/
def State.hasTurn (s : State) (b : Nat) (p : Point) : Bool :=
  let k := s.bank b
  k.running && (match p with
    | .s => k.blocked.isNone || k.polls
    | p => ringAhead (k.ring (Point.engine p)) (k.pointPos p) != 0)

/-- The banks of a core in the order in which they try one issue point (R159). -/
def State.bankOrder (s : State) (core : Nat) (p : Point) : List Nat :=
  let b0 := 2 * core
  let b1 := 2 * core + 1
  let prio := fun b => fld ((s.bank b).cw cwCTXB) 3 2
  let last := fun b => (s.bank b).lastPoint.get 0 p.index
  if prio b0 < prio b1 ∨ (prio b0 = prio b1 ∧ last b1 < last b0) then [b1, b0] else [b0, b1]

/-- One round of the issue points of a core, in the order of R20, each for the bank of that place in the order of R159 (0 first). -/
def State.issueRound (s : State) (core place : Nat) : List Turn :=
  [Point.s, .va, .ve, .c, .m].flatMap (fun p =>
    ((((s.bankOrder core p).filter (fun b => s.hasTurn b p))[place]?).map (fun b => Turn.issue b p)).toList)

/-- The turns of a core. A word that an earlier-ranked word of its bank holds back (R20) tries again in a later round, when that word has
issued or could not, so there is a round more than words that wait; the execute side also passes words that the access side waits
for (R178). -/
def State.coreTurns (s : State) (core : Nat) : List Turn :=
  let rounds := 2 + max (s.bank (2 * core)).waiters.length (s.bank (2 * core + 1)).waiters.length
  let round := fun place => (List.replicate rounds (s.issueRound core place)).flatten
  let partner := s.issueRound core 1
  round 0 ++ (if partner.isEmpty then [] else round 1 ++ s.issueRound core 0)

/-- Banks that hold a job, clusters and cores with one, each once. -/
def State.liveBanks (s : State) : List (Nat × Bank) := List.filter (fun (p : Nat × Bank) => p.2.live) s.banks
def State.liveUnits (s : State) (unit : Nat → Nat) : List Nat := (s.liveBanks.map (fun (p : Nat × Bank) => unit p.1)).foldl insertNat []

def State.firstHalf (s : State) : List Turn :=
  ((s.liveBanks.flatMap (fun (p : Nat × Bank) => s.bankEvents p.1 p.2)) ++
   (s.liveUnits bankCluster).flatMap s.arrayEvents).map Turn.event ++
  (s.liveUnits bankCore).flatMap s.coreTurns ++ [.plan]

/-! The second half: operations, and the agents outside the banks. -/

/-- Work that an event of another agent moves on. -/
def Work.elsewhere (w : Work) : Bool :=
  match w with
  | .bind .. | .sink .. | .peer .. | .mlease | .vkstWait | .haloWait .. | .msgWait _ => true
  | _ => false

/-- The event of one operation in flight. -/
def State.opEvents (s : State) (b : Nat) (k : Bank) (o : Op) : List Event :=
  if s.cycle < o.ready ∨ (o.parked && !k.parked.isEmpty) then [] else
  match o.todo with
  | .bind .. => [.boundStreamElement b o.id]
  | .sink _ q .. => if ((k.queue q).head).isSome then [.boundStreamElement b o.id] else []
  | .peer tx q pb vp linked =>
    if !linked then (if tx && (s.peerMatch b tx q pb vp).isSome then [.peerLinkForm b o.id] else [])
    else if tx && ((k.queue q).head).isSome then [.peerElementForward b o.id] else []
  | w => if w.elsewhere then [] else [.wordCompletion b o.id]

/-- The life of a bank's job. -/
def State.jobEvents (s : State) (b : Nat) (k : Bank) : List Event :=
  (match k.job with | some j => if j.phase == .placed then [.jobStart b] else [] | none => []) ++
  (if k.retiring then [.jobRetire b] else []) ++ (if s.maySave b then [.preemptSave b] else [])

/-- Indices of a list whose elements satisfy a condition, the last first, so that an event that removes its element leaves the
others in place. -/
def downTo {α : Type} (l : List α) (c : α → Bool) : List Nat := (((l.zipIdx).filter (fun x => c x.1)).map (fun x => x.2)).reverse

/-- Appends, mailbox entries and collectives of a cluster. -/
def State.clusterEvents (s : State) (cl : Nat) : List Event :=
  let c := s.cluster cl
  let reads := (List.range 8).any (fun i =>
    let k := s.bank (8 * cl + i)
    k.awake && (match k.blocked with | some ⟨.mbrd .., _, _⟩ => true | _ => false))
  (if c.appends.isEmpty then [] else [.cirrusAppend cl 0]) ++
  (downTo c.mail (fun e => decide (e.at_ ≤ s.cycle) && (!e.visible || reads))).reverse.map (fun k => .mailboxEntryVisible cl k) ++
  (downTo c.coll (fun x => s.collReady cl x)).map (fun k => .collectiveResult cl k) ++
  (downTo c.coll (fun x => x.phase == .exchanging && !s.collReady cl x &&
    (match x.deadline with | some t => decide (t ≤ s.ft) | none => false))).map (fun k => .collectiveDeadline cl k) ++
  (downTo c.coll (fun x => x.phase == .queued)).reverse.map (fun k => .collectiveStart cl k)

/-- The event of a packet that stands somewhere. -/
def State.pktEvent (s : State) (k : Nat) (p : Pkt) : List Event :=
  match p.stage with
  | .arrived =>
    (match p.kind with
     | 0 | 0xA => [.readRequest k] | 1 => [.readResponse k] | 2 => [.maskedWrite k] | 3 => [.bankAluRequest k] | 4 => [.acknowledgement k]
     | 6 => if s.pktHeld p then [] else [.entryRequest k]
     | 7 => [.entryGrant k] | 8 => [.message k] | 9 => if s.isFace p then [] else [.bulkWrite k]
     | 0xB => [.collectiveControl k]
     | _ => [])
  | .waiting => (match p.retryAt with
    | some t => if t ≤ s.ft then [.entryRequestRetry k] else []
    | none => if s.waitHead p.dst = some p.key then [.entryRequest k] else [])
  | _ => []

/-- The events of a die: its router, ejected flits, tables and registers. -/
def State.dieEvents (s : State) (die : Nat) (d : Die) : List Event :=
  let w := d.reg 0x10000
  let period := fld (d.reg 0x10030) 0 16 * 1006
  let limit := fld ((s.hub (pkgOf die)).reg 0x20038) 0 16
  (if d.flitsIn.any (fun x => decide (x.1 ≤ s.cycle)) || !d.flitsOut.isEmpty || s.pkts.any (fun p => p.stage == .source && p.ends.1 == die)
    then [.flitArrival die] else []) ++
  (downTo d.ejected (fun _ => true)).map (fun k => .flitEject die k) ++
  (if d.up && s.ft % 256 == 0 then [.throttleWindow die] else []) ++
  (if w.getLsbD 1 && (s.cycle - d.born) % 256 == 0 then [.jstabInstall die] else []) ++
  (if (d.reg 0x10010).getLsbD 4 then [.replicaDropDone die] else []) ++
  (if d.shootPend.isEmpty then [] else [.shootdownDone die]) ++
  (if d.up && period != 0 && s.cycle % period == 0 then [.patrolScrub die (s.cycle / period % 2 ^ 33 * 8)] else []) ++
  (if limit = 0 then [] else (d.requests.filter (fun r => decide (r.made + limit * 2 ^ 20 ≤ s.cycle))).map (fun r => .pageRequestTimeout die r.rqn))

/-- The events of re-shards in flight. -/
def State.reshardEvents (s : State) : List Event :=
  let live := s.dies.flatMap (fun (x : Nat × Die) => (x.2.reshards.filter (fun r => r.inflight)).map (fun r => (r.seq, x.1)))
  let seqs := (live.map (fun x => x.1)).foldl insertNat []
  seqs.map .reshardCheck ++ live.map (fun x => .reshardStep x.1 x.2) ++ seqs.map .reshardComplete

/-- The events of Zenith: status records, layouts, resumption from the highest level down, issue, and aging. -/
def State.hubEvents (s : State) (pkg : Nat) (h : Hub) : List Event :=
  let waits := h.launches.filter (fun l => l.phase == .queued || l.phase == .preempted)
  (h.launches.filter (fun l => l.phase == .ended)).map (fun l => .launchEnd pkg l.seq) ++
  (if h.installs.isEmpty then [] else [.layoutInstall pkg]) ++
  [7, 6, 5, 4, 3, 2, 1, 0].flatMap (fun n => match h.level n with
    | l :: _ => if l.phase == .preempted then [.launchResume pkg l.seq] else []
    | [] => []) ++
  (if waits.isEmpty then [] else [.launchIssue pkg]) ++
  [0, 1, 2, 3, 4, 5, 6].flatMap (fun n => match h.level n with
    | l :: _ => if l.since + max 1 (fld (h.reg 0x20010) 0 24) * 1024 ≤ s.cycle then [.launchAging pkg n] else []
    | [] => [])

/-- The agent of a die reports when its counts have changed (R382). -/
def State.reportEvents (s : State) (die : Nat) (d : Die) : List Event :=
  if d.up && d.report != s.freeCounts die then [.agentFreeReport die] else []

def State.secondHalf (s : State) : List Turn :=
  ((s.liveBanks.filter (fun (p : Nat × Bank) => p.2.freeze.isSome)).map (fun (p : Nat × Bank) => Event.compositeRecordWrite p.1) ++
   s.liveBanks.flatMap (fun (p : Nat × Bank) => p.2.ops.flatMap (s.opEvents p.1 p.2)) ++
   s.liveBanks.flatMap (fun (p : Nat × Bank) => s.jobEvents p.1 p.2) ++
   s.clusters.flatMap (fun (c : Nat × Cluster) => s.clusterEvents c.1) ++
   (downTo s.incs (fun i => decide (i.sent < s.cycle))).map Event.remoteIncrement ++
   (downTo s.faces (fun f => !s.haloHeld f && !(s.faceParts f).isEmpty)).map Event.haloDelivery ++
   (s.pkts.zipIdx).reverse.flatMap (fun (x : Pkt × Nat) => s.pktEvent x.2 x.1) ++
   s.dies.flatMap (fun (x : Nat × Die) => s.dieEvents x.1 x.2) ++
   s.reshardEvents ++ s.hubs.flatMap (fun (x : Nat × Hub) => s.hubEvents x.1 x.2) ++
   s.dies.flatMap (fun (x : Nat × Die) => s.reportEvents x.1 x.2)).map Turn.event

/-! The next cycle. -/

/-- A bank as a cycle begins: the two sides of V see where the other stood, the execute side has its turn to come, and a cycle parked
for a page is not counted by the watchdog (R127, R175, R178). -/
def Bank.startCycle (k : Bank) : Bank :=
  { k with vaSeen := k.vaDyn, veSeen := k.veDyn, veDue := k.running && ringAhead (k.ring .v) (k.pointPos .ve) != 0,
           idleSince := if k.parked.isEmpty then k.idleSince else k.idleSince + 1 }

/-- A die as a cycle begins: the functions whose READY has risen are usable (R426). -/
def Die.startCycle (d : Die) : Die := { d with ready := d.ready ||| d.rising, rising := 0 }

/-- The next cycle begins: the inputs due come first. -/
def State.tick (s : State) : State :=
  let s := { s with cycle := s.cycle + 1, ft := s.ft + 1, banks := List.map (fun (p : Nat × Bank) => (p.1, p.2.startCycle)) s.banks,
                    dies := List.map (fun (p : Nat × Die) => (p.1, p.2.startCycle)) s.dies }
  let due := s.inputs.filter (fun x => decide (x.1 ≤ s.cycle))
  { s with agenda := due.map (fun x => Turn.event x.2) ++ s.firstHalf, inputs := s.inputs.filter (fun x => decide (s.cycle < x.1)) }

end Sys2Proof.Machine
end

