-- ==== Sys2Proof/Machine/Scalar.lean ====
section
/-! DEFINITION. The S integer words: pure synchronisation (R24), R-form operations (R100) and immediates (R101). -/

namespace Sys2Proof.Machine

/-- A word that only waits and signals (R24). -/
def State.syncS (s : State) (m : Marks) : Out := s.issueS m true none (fun s => s.doneS m)

/-- An R-form word of two operands (R100): the result is written to d with its latency bound, poisoned when an operand is (R90). -/
def State.binS (s : State) (m : Marks) (d a b : SReg) (lam : Nat) (f : W64 → W64 → W64) : Out :=
  s.issueS m true none (fun s =>
    let k := s.focus.bank
    s.resultS m d (f (s.sVal k a.toNat) (s.sVal k b.toNat)) (s.sBad k a.toNat || s.sBad k b.toNat) lam)

/-- A word of one register operand (R100, R101). -/
def State.unS (s : State) (m : Marks) (d a : SReg) (lam : Nat) (f : W64 → W64) : Out :=
  s.issueS m true none (fun s =>
    let k := s.focus.bank
    s.resultS m d (f (s.sVal k a.toNat)) (s.sBad k a.toNat) lam)

/-- Bits 127:64 of the signed product (R100). -/
def mulHigh (x y : W64) : W64 := BitVec.ofInt 64 ((x.toInt * y.toInt) / ((2 ^ 64 : Nat) : Int))
/-- Bits 127:64 of the unsigned product (R100). -/
def mulHighN (x y : W64) : W64 := BitVec.ofNat 64 (x.toNat * y.toNat / 2 ^ 64)
/-- The signed quotient, rounded toward zero; all ones for y = 0 (R100). -/
def divS (x y : W64) : W64 := if y = 0 then BitVec.ofNat 64 (2 ^ 64 - 1) else BitVec.ofInt 64 (x.toInt.tdiv y.toInt)
def divN (x y : W64) : W64 := if y = 0 then BitVec.ofNat 64 (2 ^ 64 - 1) else BitVec.ofNat 64 (x.toNat / y.toNat)
/-- The signed remainder, with the sign of x; x for y = 0 (R100). -/
def remS (x y : W64) : W64 := if y = 0 then x else BitVec.ofInt 64 (x.toInt.tmod y.toInt)
def remN (x y : W64) : W64 := if y = 0 then x else BitVec.ofNat 64 (x.toNat % y.toNat)
/-- A shift amount is y[5:0] (R100). -/
def shAmt (y : W64) : Nat := fld y 0 6

/-- Leading zero bits of the low w bits. -/
def clzOf (x : Nat) : Nat → Nat
  | 0 => 0
  | w + 1 => if x.testBit w then 0 else clzOf x w + 1
/-- Trailing zero bits: the position of the lowest one among bits i to i + n - 1. -/
def ctzOf (x i : Nat) : Nat → Nat
  | 0 => 0
  | n + 1 => if x.testBit i then 0 else ctzOf x (i + 1) n + 1

/-- Signed and unsigned order. -/
def minS (x y : W64) : W64 := if x.slt y then x else y
def maxS (x y : W64) : W64 := if x.slt y then y else x
def minN (x y : W64) : W64 := if x.ult y then x else y
def maxN (x y : W64) : W64 := if x.ult y then y else x

/-- EXTR's field (R101). -/
def extrVal (x : W64) (pos wm1 : Nat) (sx : Bool) : W64 :=
  let v := fld x pos (wm1 + 1)
  if sx then BitVec.ofInt 64 (signed (wm1 + 1) v) else BitVec.ofNat 64 v


def execNop (m : Marks) (s : State) : Out := s.syncS m
def execAdd (m : Marks) (d a b : SReg) (s : State) : Out := s.binS m d a b 1 (fun x y => x + y)
def execSub (m : Marks) (d a b : SReg) (s : State) : Out := s.binS m d a b 1 (fun x y => x - y)
def execMul (m : Marks) (d a b : SReg) (s : State) : Out := s.binS m d a b 3 (fun x y => x * y)
def execMulh (m : Marks) (d a b : SReg) (s : State) : Out := s.binS m d a b 3 mulHigh
def execMulhn (m : Marks) (d a b : SReg) (s : State) : Out := s.binS m d a b 3 mulHighN
def execDiv (m : Marks) (d a b : SReg) (s : State) : Out := s.binS m d a b 40 divS
def execDivn (m : Marks) (d a b : SReg) (s : State) : Out := s.binS m d a b 40 divN
def execRem (m : Marks) (d a b : SReg) (s : State) : Out := s.binS m d a b 40 remS
def execRemn (m : Marks) (d a b : SReg) (s : State) : Out := s.binS m d a b 40 remN
def execAnd (m : Marks) (d a b : SReg) (s : State) : Out := s.binS m d a b 1 (fun x y => x &&& y)
def execOr (m : Marks) (d a b : SReg) (s : State) : Out := s.binS m d a b 1 (fun x y => x ||| y)
def execXor (m : Marks) (d a b : SReg) (s : State) : Out := s.binS m d a b 1 (fun x y => x ^^^ y)
def execAndn (m : Marks) (d a b : SReg) (s : State) : Out := s.binS m d a b 1 (fun x y => x &&& ~~~y)
def execShl (m : Marks) (d a b : SReg) (s : State) : Out := s.binS m d a b 1 (fun x y => x <<< shAmt y)
def execShr (m : Marks) (d a b : SReg) (s : State) : Out := s.binS m d a b 1 (fun x y => x >>> shAmt y)
def execSha (m : Marks) (d a b : SReg) (s : State) : Out := s.binS m d a b 1 (fun x y => x.sshiftRight (shAmt y))
def execRotl (m : Marks) (d a b : SReg) (s : State) : Out := s.binS m d a b 1 (fun x y => x.rotateLeft (shAmt y))
def execMin (m : Marks) (d a b : SReg) (s : State) : Out := s.binS m d a b 1 minS
def execMax (m : Marks) (d a b : SReg) (s : State) : Out := s.binS m d a b 1 maxS
def execMinn (m : Marks) (d a b : SReg) (s : State) : Out := s.binS m d a b 1 minN
def execMaxn (m : Marks) (d a b : SReg) (s : State) : Out := s.binS m d a b 1 maxN
def execClz (m : Marks) (d a : SReg) (s : State) : Out := s.unS m d a 1 (fun x => BitVec.ofNat 64 (clzOf x.toNat 64))
def execCtz (m : Marks) (d a : SReg) (s : State) : Out := s.unS m d a 1 (fun x => BitVec.ofNat 64 (ctzOf x.toNat 0 64))
def execPopc (m : Marks) (d a : SReg) (s : State) : Out := s.unS m d a 1 (fun x => BitVec.ofNat 64 (countBits x.toNat 64))
def execSeq (m : Marks) (d a b : SReg) (s : State) : Out := s.binS m d a b 1 (fun x y => flagWord (x == y))
def execSne (m : Marks) (d a b : SReg) (s : State) : Out := s.binS m d a b 1 (fun x y => flagWord (x != y))
def execSlt (m : Marks) (d a b : SReg) (s : State) : Out := s.binS m d a b 1 (fun x y => flagWord (x.slt y))
def execSltn (m : Marks) (d a b : SReg) (s : State) : Out := s.binS m d a b 1 (fun x y => flagWord (x.ult y))
def execSle (m : Marks) (d a b : SReg) (s : State) : Out := s.binS m d a b 1 (fun x y => flagWord (!y.slt x))
def execSlen (m : Marks) (d a b : SReg) (s : State) : Out := s.binS m d a b 1 (fun x y => flagWord (!y.ult x))

/-- SEL (R100): three operands, and the poison of all three (R90). -/
def execSel (m : Marks) (d a b c : SReg) (s : State) : Out :=
  s.issueS m true none (fun s =>
    let k := s.focus.bank
    s.resultS m d (if s.sVal k c.toNat != 0 then s.sVal k a.toNat else s.sVal k b.toNat)
      (s.sBad k a.toNat || s.sBad k b.toNat || s.sBad k c.toNat) 1)

def execAddi (m : Marks) (d a : SReg) (imm : BitVec 28) (s : State) : Out := s.unS m d a 1 (fun x => x + imm.signExtend 64)
def execAndi (m : Marks) (d a : SReg) (imm : BitVec 28) (s : State) : Out := s.unS m d a 1 (fun x => x &&& imm.signExtend 64)
def execOri (m : Marks) (d a : SReg) (imm : BitVec 28) (s : State) : Out := s.unS m d a 1 (fun x => x ||| imm.setWidth 64)
def execXori (m : Marks) (d a : SReg) (imm : BitVec 28) (s : State) : Out := s.unS m d a 1 (fun x => x ^^^ imm.setWidth 64)
def execShli (m : Marks) (d a : SReg) (sh : BitVec 6) (s : State) : Out := s.unS m d a 1 (fun x => x <<< sh.toNat)
def execShri (m : Marks) (d a : SReg) (sh : BitVec 6) (s : State) : Out := s.unS m d a 1 (fun x => x >>> sh.toNat)
def execShai (m : Marks) (d a : SReg) (sh : BitVec 6) (s : State) : Out := s.unS m d a 1 (fun x => x.sshiftRight sh.toNat)
def execSlti (m : Marks) (d a : SReg) (imm : BitVec 28) (s : State) : Out := s.unS m d a 1 (fun x => flagWord (x.slt (imm.signExtend 64)))
def execSltni (m : Marks) (d a : SReg) (imm : BitVec 28) (s : State) : Out := s.unS m d a 1 (fun x => flagWord (x.ult (imm.signExtend 64)))

/-- LI reads no register (R101). -/
def execLi (m : Marks) (d : SReg) (imm : BitVec 28) (s : State) : Out :=
  s.issueS m true none (fun s => s.resultS m d (imm.signExtend 64) false 1)

def execLih (m : Marks) (d a : SReg) (imm : BitVec 28) (s : State) : Out := s.unS m d a 1 (fun x => (imm.signExtend 64 <<< 28) ||| BitVec.ofNat 64 (fld x 0 28))
def execMuli (m : Marks) (d a : SReg) (imm : BitVec 28) (s : State) : Out := s.unS m d a 3 (fun x => x * imm.signExtend 64)

def execExtr (m : Marks) (d a : SReg) (pos wm1 : BitVec 6) (sx : Bool) (s : State) : Out :=
  s.unS m d a 1 (fun x => extrVal x pos.toNat wm1.toNat sx)

/-- INSR also reads d as a source, and its poison (R101, R90). -/
def execInsr (m : Marks) (d a : SReg) (pos wm1 : BitVec 6) (s : State) : Out :=
  s.issueS m true none (fun s =>
    let k := s.focus.bank
    s.resultS m d (putFld (s.sVal k d.toNat) pos.toNat (wm1.toNat + 1) (s.sVal k a.toNat).toNat)
      (s.sBad k a.toNat || s.sBad k d.toNat) 1)

end Sys2Proof.Machine
end

