-- ==== Sys2Proof/Machine/VectorNet.lean ====
section
/-! DEFINITION. V words for attention, convolution and normalisation (R212 to R217). -/

namespace Sys2Proof.Machine

/-- A NAT32 lane as an FP32 code (RNE). -/
def natFp32 (n : Nat) : Nat := toFp32 (Val.ofInt (n : Int))

/-! Rotary position encoding (R212). -/

/-- Where element i of a register stands in its pair: the pair's number, whether it is the first, and its partner. -/
def ropePair (d : Nat) (split : Bool) (i : Nat) : Nat × Bool × Nat :=
  let t := i / d
  let j := i % d
  if split then
    (if j < d / 2 then (t * (d / 2) + j, true, i + d / 2) else (t * (d / 2) + (j - d / 2), false, i - d / 2))
  else (if j % 2 = 0 then (t * (d / 2) + j / 2, true, i + 1) else (t * (d / 2) + j / 2, false, i - 1))

/-- VROPE: each pair turned by phi, exactly and with one rounding. -/
def execVrope (m : Marks) (f : VOp) (s : State) : Out :=
  s.lanesV m f (srcABC f) 24 4 (fun k =>
    let d := VSpec.ropeDim f.sub
    let a := k.elems f.va f.ty
    let th := k.elems f.vb .fp32
    let pos := k.elems f.vc .n32
    let turn := (List.range (f.ty.lanes / 2)).map (fun x =>
      let phi := mulF (natFp32 (nth pos (x / (d / 2)))) (nth th (x % (d / 2)))
      (fp32 (Fn.fp32 .cos phi), fp32 (Fn.fp32 .sin phi)))
    fun i =>
      let (x, first, other) := ropePair d (f.sub.getLsbD 2) i
      let (cs, sn) := (turn[x]?).getD (.nan, .nan)
      let me := EType.value f.ty (nth a i)
      let it := EType.value f.ty (nth a other)
      EType.rnd f.ty f.rm (if first then Val.sub f.rm (Val.mul me cs) (Val.mul it sn)
        else Val.add f.rm (Val.mul it sn) (Val.mul me cs)))

/-! Online softmax (R213). -/

/-- An FP32 register whose element i is r i. -/
def regFp32 (r : Nat → Nat) : Elem := packReg .fp32 ((List.range 64).map r)

/-- VSMX.step: the new state m, l, alpha to vd and the probabilities to vc. -/
def execVsmxStep (m : Marks) (f : VOp) (s : State) : Out :=
  s.issueV m (srcAB f) [f.vd.toNat, f.vc.toNat] [f.msel.toNat] 24 4 (fun k slots =>
    let a := k.elems f.va .fp32
    let st := k.elems f.vb .fp32
    let mx := tree (EType.max2 .fp32) 6 ((List.range 64).map (fun i => if k.active f i then nth a i else 0xFF800000))
    let mn := EType.max2 .fp32 (nth st 0) mx
    let empty := mn == 0xFF800000
    let al := if empty then 0x3F800000 else Fn.fp32 .exp2 (subF (nth st 0) mn)
    let p := (List.range 64).map (fun i => if !empty && k.active f i then Fn.fp32 .exp2 (subF (nth a i) mn) else 0)
    let sum := tree addF 6 p
    let ln := if empty then nth st 1 else fmaF (nth st 1) al sum
    pushOne slots f.vd (regFp32 (fun i => match i with | 0 => mn | 1 => ln | 2 => al | _ => 0)) ++
    pushOne slots f.vc (packReg .fp32 p))

/-- VSMX.norm. -/
def execVsmxNorm (m : Marks) (f : VOp) (s : State) : Out :=
  s.lanesV m f (srcAB f) 24 4 (fun k =>
    let a := k.elems f.va .fp32
    let x := Fn.fp32 .rcp (nth (k.elems f.vb .fp32) 1)
    fun i => mulF (nth a i) x)

/-- VSMX.scale. -/
def execVsmxScale (m : Marks) (f : VOp) (s : State) : Out :=
  s.lanesV m f (srcAB f) 24 4 (fun k =>
    let a := k.elems f.va .fp32
    let x := nth (k.elems f.vb .fp32) 2
    fun i => mulF (nth a i) x)

/-! Convolution (R214). -/

/-- VDWC: K taps at dilation d over a followed by c; the sum is exact and rounded once. -/
def execVdwc (m : Marks) (f : VOp) (s : State) : Out :=
  let taps := fld f.sub 0 4 + 1
  let dil := fld f.sub 4 3 + 1
  s.lanesV m f (srcABC f) (6 + taps) taps (fun k =>
    let x := k.elems f.va f.ty ++ k.elems f.vc f.ty
    let w := k.elems f.vb f.ty
    let prod := fun i t => Val.mul (EType.value f.ty (nth w t)) (EType.value f.ty (nth x (i + t * dil)))
    fun i => EType.rnd f.ty f.rm ((List.range (taps - 1)).foldl (fun acc t => Val.add f.rm acc (prod i (t + 1))) (prod i 0)))

/-! Zero compression and position masks (R215, R216). -/

/-- VZCMP: the non-zero active elements packed upward, and their mask. -/
def execVzcmp (m : Marks) (f : VOp) (s : State) : Out :=
  s.issueV m (srcA f) [f.vd.toNat] [f.msel.toNat, f.vc.toNat] 4 1 (fun k slots =>
    let a := k.elems f.va f.ty
    let keep := fun i => k.active f i && nth a i != 0
    pushOne slots f.vd (packReg f.ty (((List.range f.ty.lanes).filter keep).map (nth a))) ++
    [.mask (f.vc.toNat % 4) (maskOf f.ty.lanes keep)])

/-- VZEXP: active element i takes the element numbered by the active bits below i. -/
def execVzexp (m : Marks) (f : VOp) (s : State) : Out :=
  s.lanesV m f (srcA f) 4 1 (fun k =>
    let a := k.elems f.va f.ty
    let mask := (k.maskReg f.msel.toNat).toNat
    fun i => nth a (countBits mask i))

/-- VMASKP: a window of positions lo to hi. -/
def execVmaskp (m : Marks) (f : VOp) (s : State) : Out :=
  let byLane := f.sub.getLsbD 0
  s.issueV m (if byLane then srcAB f else srcA f) [] [f.msel.toNat, f.vd.toNat] 4 1 (fun k _ =>
    let a := k.elems f.va .n32
    let b := k.elems f.vb .n32
    [.mask (f.vd.toNat % 4) (maskOf f.ty.lanes (fun i =>
      let pos := if byLane then nth b i else nth a 0 + i
      k.active f i && decide (nth a 1 ≤ pos) && decide (pos ≤ nth a 2)))])

/-! Welford's algorithm (R217). -/

/-- VWELF: one step for the mean, or for the second moment in vc; the sample count is k + 1. -/
def execVwelf (m : Marks) (f : VOp) (s : State) : Out :=
  let second := f.sub.getLsbD 0
  let n := natFp32 (s.focus.k + 1)
  s.issueV m (if second then srcABC f else srcAB f) [f.vd.toNat] [f.msel.toNat] 24 4 (fun k slots =>
    let mu := k.elems f.va .fp32
    let x := k.elems f.vb .fp32
    let m2 := k.elems f.vc .fp32
    let inv := Fn.fp32 .rcp n
    pushOne slots f.vd (regFp32 (fun i =>
      let d := subF (nth x i) (nth mu i)
      let mn := fmaF d inv (nth mu i)
      if !k.active f i then (if second then nth m2 i else nth mu i)
      else if second then fmaF d (subF (nth x i) mn) (nth m2 i) else mn)))

end Sys2Proof.Machine
end

