-- ==== Sys2Proof/Machine/Dispatch.lean ====
section
/-! DEFINITION. The dispatch: one arm per constructor of Instr. -/

namespace Sys2Proof.Machine

def exec (i : Instr) (s : State) : Host.Outcome State Fault Refusal :=
  match i with
  | .nop m => Sys2Proof.Machine.execNop m s
  | .add m d a b => Sys2Proof.Machine.execAdd m d a b s
  | .sub m d a b => Sys2Proof.Machine.execSub m d a b s
  | .mul m d a b => Sys2Proof.Machine.execMul m d a b s
  | .mulh m d a b => Sys2Proof.Machine.execMulh m d a b s
  | .mulhn m d a b => Sys2Proof.Machine.execMulhn m d a b s
  | .div m d a b => Sys2Proof.Machine.execDiv m d a b s
  | .divn m d a b => Sys2Proof.Machine.execDivn m d a b s
  | .rem m d a b => Sys2Proof.Machine.execRem m d a b s
  | .remn m d a b => Sys2Proof.Machine.execRemn m d a b s
  | .and m d a b => Sys2Proof.Machine.execAnd m d a b s
  | .or m d a b => Sys2Proof.Machine.execOr m d a b s
  | .xor m d a b => Sys2Proof.Machine.execXor m d a b s
  | .andn m d a b => Sys2Proof.Machine.execAndn m d a b s
  | .shl m d a b => Sys2Proof.Machine.execShl m d a b s
  | .shr m d a b => Sys2Proof.Machine.execShr m d a b s
  | .sha m d a b => Sys2Proof.Machine.execSha m d a b s
  | .rotl m d a b => Sys2Proof.Machine.execRotl m d a b s
  | .min m d a b => Sys2Proof.Machine.execMin m d a b s
  | .max m d a b => Sys2Proof.Machine.execMax m d a b s
  | .minn m d a b => Sys2Proof.Machine.execMinn m d a b s
  | .maxn m d a b => Sys2Proof.Machine.execMaxn m d a b s
  | .clz m d a => Sys2Proof.Machine.execClz m d a s
  | .ctz m d a => Sys2Proof.Machine.execCtz m d a s
  | .popc m d a => Sys2Proof.Machine.execPopc m d a s
  | .seq m d a b => Sys2Proof.Machine.execSeq m d a b s
  | .sne m d a b => Sys2Proof.Machine.execSne m d a b s
  | .slt m d a b => Sys2Proof.Machine.execSlt m d a b s
  | .sltn m d a b => Sys2Proof.Machine.execSltn m d a b s
  | .sle m d a b => Sys2Proof.Machine.execSle m d a b s
  | .slen m d a b => Sys2Proof.Machine.execSlen m d a b s
  | .sel m d a b c => Sys2Proof.Machine.execSel m d a b c s
  | .addi m d a imm => Sys2Proof.Machine.execAddi m d a imm s
  | .andi m d a imm => Sys2Proof.Machine.execAndi m d a imm s
  | .ori m d a imm => Sys2Proof.Machine.execOri m d a imm s
  | .xori m d a imm => Sys2Proof.Machine.execXori m d a imm s
  | .shli m d a sh => Sys2Proof.Machine.execShli m d a sh s
  | .shri m d a sh => Sys2Proof.Machine.execShri m d a sh s
  | .shai m d a sh => Sys2Proof.Machine.execShai m d a sh s
  | .slti m d a imm => Sys2Proof.Machine.execSlti m d a imm s
  | .sltni m d a imm => Sys2Proof.Machine.execSltni m d a imm s
  | .li m d imm => Sys2Proof.Machine.execLi m d imm s
  | .lih m d a imm => Sys2Proof.Machine.execLih m d a imm s
  | .muli m d a imm => Sys2Proof.Machine.execMuli m d a imm s
  | .extr m d a pos wm1 sx => Sys2Proof.Machine.execExtr m d a pos wm1 sx s
  | .insr m d a pos wm1 => Sys2Proof.Machine.execInsr m d a pos wm1 s
  | .ld m o => Sys2Proof.Machine.execLd m o s
  | .lds m o => Sys2Proof.Machine.execLds m o s
  | .st m d base size off => Sys2Proof.Machine.execSt m d base size off s
  | .chk m a => Sys2Proof.Machine.execChk m a s
  | .pref m hint base off => Sys2Proof.Machine.execPref m hint base off s
  | .amo m d base src lat op scope place size => Sys2Proof.Machine.execAmo m d base src lat op scope place size s
  | .cas m d base src src2 lat scope place size => Sys2Proof.Machine.execCas m d base src src2 lat scope place size s
  | .fence m => Sys2Proof.Machine.execFence m s
  | .fenceJob m => Sys2Proof.Machine.execFenceJob m s
  | .phase m scope => Sys2Proof.Machine.execPhase m scope s
  | .pub m scope => Sys2Proof.Machine.execPub m scope s
  | .acq m scope => Sys2Proof.Machine.execAcq m scope s
  | .ifence m => Sys2Proof.Machine.execIfence m s
  | .cwb m base src => Sys2Proof.Machine.execCwb m base src s
  | .cinv m base src => Sys2Proof.Machine.execCinv m base src s
  | .cinvDiscard m base src => Sys2Proof.Machine.execCinvDiscard m base src s
  | .iinv m base src => Sys2Proof.Machine.execIinv m base src s
  | .beq m a b nul zero disp => Sys2Proof.Machine.execBeq m a b nul zero disp s
  | .bne m a b nul zero disp => Sys2Proof.Machine.execBne m a b nul zero disp s
  | .blt m a b nul zero disp => Sys2Proof.Machine.execBlt m a b nul zero disp s
  | .bge m a b nul zero disp => Sys2Proof.Machine.execBge m a b nul zero disp s
  | .bltn m a b nul zero disp => Sys2Proof.Machine.execBltn m a b nul zero disp s
  | .bgen m a b nul zero disp => Sys2Proof.Machine.execBgen m a b nul zero disp s
  | .bps m p nul disp => Sys2Proof.Machine.execBps m p nul disp s
  | .bpc m p nul disp => Sys2Proof.Machine.execBpc m p nul disp s
  | .j m disp => Sys2Proof.Machine.execJ m disp s
  | .jl m link disp => Sys2Proof.Machine.execJl m link disp s
  | .jr m a => Sys2Proof.Machine.execJr m a s
  | .jlr m d a => Sys2Proof.Machine.execJlr m d a s
  | .loop m a stages seglen => Sys2Proof.Machine.execLoop m a stages seglen s
  | .lbrk m a b zero disp => Sys2Proof.Machine.execLbrk m a b zero disp s
  | .setp m p a b cond => Sys2Proof.Machine.execSetp m p a b cond s
  | .push m e a => Sys2Proof.Machine.execPush m e a s
  | .waitf m d a b peek => Sys2Proof.Machine.execWaitf m d a b peek s
  | .sigf m a => Sys2Proof.Machine.execSigf m a s
  | .rdf m d a => Sys2Proof.Machine.execRdf m d a s
  | .rdq m d q b pop => Sys2Proof.Machine.execRdq m d q b pop s
  | .start m e a => Sys2Proof.Machine.execStart m e a s
  | .rendez m => Sys2Proof.Machine.execRendez m s
  | .endJob m a => Sys2Proof.Machine.execEndJob m a s
  | .launch m d a => Sys2Proof.Machine.execLaunch m d a s
  | .yield m d => Sys2Proof.Machine.execYield m d s
  | .mbox m a => Sys2Proof.Machine.execMbox m a s
  | .mbrd m d mode => Sys2Proof.Machine.execMbrd m d mode s
  | .trap m imm => Sys2Proof.Machine.execTrap m imm s
  | .tret m => Sys2Proof.Machine.execTret m s
  | .getc m d cw => Sys2Proof.Machine.execGetc m d cw s
  | .setc m a cw => Sys2Proof.Machine.execSetc m a cw s
  | .setb m a cw => Sys2Proof.Machine.execSetb m a cw s
  | .clrb m a cw => Sys2Proof.Machine.execClrb m a cw s
  | .evt m a cls => Sys2Proof.Machine.execEvt m a cls s
  | .park m f => Sys2Proof.Machine.execPark m f s
  | .fpost m d a => Sys2Proof.Machine.execFpost m d a s
  | .ftime m d => Sys2Proof.Machine.execFtime m d s
  | .ftimeUntil m d a => Sys2Proof.Machine.execFtimeUntil m d a s
  | .fthr m d => Sys2Proof.Machine.execFthr m d s
  | .rgrp m a b => Sys2Proof.Machine.execRgrp m a b s
  | .rshrd m a b c => Sys2Proof.Machine.execRshrd m a b c s
  | .laysel m a => Sys2Proof.Machine.execLaysel m a s
  | .rasave m a => Sys2Proof.Machine.execRasave m a s
  | .raload m a => Sys2Proof.Machine.execRaload m a s
  | .vnop m => Sys2Proof.Machine.execVnop m s
  | .vadd m f => Sys2Proof.Machine.execVadd m f s
  | .vsub m f => Sys2Proof.Machine.execVsub m f s
  | .vmul m f => Sys2Proof.Machine.execVmul m f s
  | .vfma m f => Sys2Proof.Machine.execVfma m f s
  | .vfms m f => Sys2Proof.Machine.execVfms m f s
  | .vfnma m f => Sys2Proof.Machine.execVfnma m f s
  | .vmin m f => Sys2Proof.Machine.execVmin m f s
  | .vmax m f => Sys2Proof.Machine.execVmax m f s
  | .vabs m f => Sys2Proof.Machine.execVabs m f s
  | .vneg m f => Sys2Proof.Machine.execVneg m f s
  | .vcmp m f => Sys2Proof.Machine.execVcmp m f s
  | .vsel m f => Sys2Proof.Machine.execVsel m f s
  | .vexp2 m f => Sys2Proof.Machine.execVexp2 m f s
  | .vlog2 m f => Sys2Proof.Machine.execVlog2 m f s
  | .vrcp m f => Sys2Proof.Machine.execVrcp m f s
  | .vrsq m f => Sys2Proof.Machine.execVrsq m f s
  | .vsqrt m f => Sys2Proof.Machine.execVsqrt m f s
  | .vsin m f => Sys2Proof.Machine.execVsin m f s
  | .vcos m f => Sys2Proof.Machine.execVcos m f s
  | .vtanh m f => Sys2Proof.Machine.execVtanh m f s
  | .vsigm m f => Sys2Proof.Machine.execVsigm m f s
  | .vcvt m f => Sys2Proof.Machine.execVcvt m f s
  | .vqmx m f => Sys2Proof.Machine.execVqmx m f s
  | .vdqmx m f => Sys2Proof.Machine.execVdqmx m f s
  | .vqgi m f => Sys2Proof.Machine.execVqgi m f s
  | .vscl m f => Sys2Proof.Machine.execVscl m f s
  | .vpack m f => Sys2Proof.Machine.execVpack m f s
  | .vunpk m f => Sys2Proof.Machine.execVunpk m f s
  | .viadd m f => Sys2Proof.Machine.execViadd m f s
  | .visub m f => Sys2Proof.Machine.execVisub m f s
  | .vimul m f => Sys2Proof.Machine.execVimul m f s
  | .vimad m f => Sys2Proof.Machine.execVimad m f s
  | .vand m f => Sys2Proof.Machine.execVand m f s
  | .vor m f => Sys2Proof.Machine.execVor m f s
  | .vxor m f => Sys2Proof.Machine.execVxor m f s
  | .vshl m f => Sys2Proof.Machine.execVshl m f s
  | .vshr m f => Sys2Proof.Machine.execVshr m f s
  | .vsha m f => Sys2Proof.Machine.execVsha m f s
  | .vimin m f => Sys2Proof.Machine.execVimin m f s
  | .vimax m f => Sys2Proof.Machine.execVimax m f s
  | .vicmp m f => Sys2Proof.Machine.execVicmp m f s
  | .viota m f => Sys2Proof.Machine.execViota m f s
  | .vpopc m f => Sys2Proof.Machine.execVpopc m f s
  | .vred m f => Sys2Proof.Machine.execVred m f s
  | .vscan m f => Sys2Proof.Machine.execVscan m f s
  | .vperm m f => Sys2Proof.Machine.execVperm m f s
  | .vslide m f => Sys2Proof.Machine.execVslide m f s
  | .vbcst m f => Sys2Proof.Machine.execVbcst m f s
  | .vmovi m vd imm => Sys2Proof.Machine.execVmovi m vd imm s
  | .vmov m f => Sys2Proof.Machine.execVmov m f s
  | .vzip m f => Sys2Proof.Machine.execVzip m f s
  | .vuzp m f => Sys2Proof.Machine.execVuzp m f s
  | .vtrn m f => Sys2Proof.Machine.execVtrn m f s
  | .vld m f => Sys2Proof.Machine.execVld m f s
  | .vst m f => Sys2Proof.Machine.execVst m f s
  | .vgath m f => Sys2Proof.Machine.execVgath m f s
  | .vscat m f => Sys2Proof.Machine.execVscat m f s
  | .vqcfg m vd depth => Sys2Proof.Machine.execVqcfg m vd depth s
  | .vdrop m vd => Sys2Proof.Machine.execVdrop m vd s
  | .vrope m f => Sys2Proof.Machine.execVrope m f s
  | .vsmxStep m f => Sys2Proof.Machine.execVsmxStep m f s
  | .vsmxNorm m f => Sys2Proof.Machine.execVsmxNorm m f s
  | .vsmxScale m f => Sys2Proof.Machine.execVsmxScale m f s
  | .vdwc m f => Sys2Proof.Machine.execVdwc m f s
  | .vkst m f => Sys2Proof.Machine.execVkst m f s
  | .vzcmp m f => Sys2Proof.Machine.execVzcmp m f s
  | .vzexp m f => Sys2Proof.Machine.execVzexp m f s
  | .vmaskp m f => Sys2Proof.Machine.execVmaskp m f s
  | .vwelf m f => Sys2Proof.Machine.execVwelf m f s
  | .vloop m stages count => Sys2Proof.Machine.execVloop m stages count s
  | .vlbrk m f => Sys2Proof.Machine.execVlbrk m f s
  | .vend m => Sys2Proof.Machine.execVend m s
  | .cnop m => Sys2Proof.Machine.execCnop m s
  | .cmap m gA addr => Sys2Proof.Machine.execCmap m gA addr s
  | .cmapSt m gA addr => Sys2Proof.Machine.execCmapSt m gA addr s
  | .cstep m gA dim delta => Sys2Proof.Machine.execCstep m gA dim delta s
  | .cstepOdo m gA => Sys2Proof.Machine.execCstepOdo m gA s
  | .ccopy m gS gD a1 a2 lr => Sys2Proof.Machine.execCcopy m gS gD a1 a2 lr s
  | .cfill m gD imm a => Sys2Proof.Machine.execCfill m gD imm a s
  | .cbind m gS q count => Sys2Proof.Machine.execCbind m gS q count s
  | .csink m gD q count => Sys2Proof.Machine.execCsink m gD q count s
  | .cunb m q p c => Sys2Proof.Machine.execCunb m q p c s
  | .cpeerTx m q core bank vP => Sys2Proof.Machine.execCpeerTx m q core bank vP s
  | .cpeerRx m q core bank vP => Sys2Proof.Machine.execCpeerRx m q core bank vP s
  | .czc m gA a => Sys2Proof.Machine.execCzc m gA a s
  | .cgath m gS gD q nm1 => Sys2Proof.Machine.execCgath m gS gD q nm1 s
  | .cscat m gS gD q nm1 => Sys2Proof.Machine.execCscat m gS gD q nm1 s
  | .cuse m gA count dead => Sys2Proof.Machine.execCuse m gA count dead s
  | .cpref m gA l1 a => Sys2Proof.Machine.execCpref m gA l1 a s
  | .cseqLd m k addr => Sys2Proof.Machine.execCseqLd m k addr s
  | .cseqSt m k addr => Sys2Proof.Machine.execCseqSt m k addr s
  | .cseqRope m gA q k => Sys2Proof.Machine.execCseqRope m gA q k s
  | .ckv m gA gB k => Sys2Proof.Machine.execCkv m gA gB k s
  | .ckrelPage m gA => Sys2Proof.Machine.execCkrelPage m gA s
  | .ckrelWin m k => Sys2Proof.Machine.execCkrelWin m k s
  | .ckrelTrunc m q k => Sys2Proof.Machine.execCkrelTrunc m q k s
  | .ckcfgLd m k addr => Sys2Proof.Machine.execCkcfgLd m k addr s
  | .ckcfgClr m k => Sys2Proof.Machine.execCkcfgClr m k s
  | .ckgath m gP q vV vK k a => Sys2Proof.Machine.execCkgath m gP q vV vK k a s
  | .cnbr m gD q op a rm sat => Sys2Proof.Machine.execCnbr m gD q op a rm sat s
  | .cnbu m gD q a vec rm => Sys2Proof.Machine.execCnbu m gD q a vec rm s
  | .chalo m gA gB mask f dil => Sys2Proof.Machine.execChalo m gA gB mask f dil s
  | .cmsg m gA die core bank port => Sys2Proof.Machine.execCmsg m gA die core bank port s
  | .cloop m stages count => Sys2Proof.Machine.execCloop m stages count s
  | .clbrk m f => Sys2Proof.Machine.execClbrk m f s
  | .cend m => Sys2Proof.Machine.execCend m s
  | .mnop m => Sys2Proof.Machine.execMnop m s
  | .mlease m => Sys2Proof.Machine.execMlease m s
  | .mrel m => Sys2Proof.Machine.execMrel m s
  | .mfmt m g => Sys2Proof.Machine.execMfmt m g s
  | .mbld m g slot off => Sys2Proof.Machine.execMbld m g slot off s
  | .mbsel m slot => Sys2Proof.Machine.execMbsel m slot s
  | .mma m tile asrc aq slot prof fidx rows row0 z a => Sys2Proof.Machine.execMma m tile asrc aq slot prof fidx rows row0 z a s
  | .mzero m tile rows row0 => Sys2Proof.Machine.execMzero m tile rows row0 s
  | .mdrain m tile asrc aq gs rm ot rows row0 clr a => Sys2Proof.Machine.execMdrain m tile asrc aq gs rm ot rows row0 clr a s
  | .mscale m g rows => Sys2Proof.Machine.execMscale m g rows s
  | .mloop m stages count => Sys2Proof.Machine.execMloop m stages count s
  | .mlbrk m f => Sys2Proof.Machine.execMlbrk m f s
  | .mend m => Sys2Proof.Machine.execMend m s
  | .flagUnitCycle b => Sys2Proof.Machine.execFlagUnitCycle b s
  | .remoteIncrement k => Sys2Proof.Machine.execRemoteIncrement k s
  | .sResultLand b id => Sys2Proof.Machine.execSResultLand b id s
  | .wordCompletion b id => Sys2Proof.Machine.execWordCompletion b id s
  | .ringFetch b p => Sys2Proof.Machine.execRingFetch b p s
  | .sFetch b => Sys2Proof.Machine.execSFetch b s
  | .jobStart b => Sys2Proof.Machine.execJobStart b s
  | .jobRetire b => Sys2Proof.Machine.execJobRetire b s
  | .phaseBarrierComplete b => Sys2Proof.Machine.execPhaseBarrierComplete b s
  | .waitfComplete b => Sys2Proof.Machine.execWaitfComplete b s
  | .parkWake b => Sys2Proof.Machine.execParkWake b s
  | .watchdogExpiry b => Sys2Proof.Machine.execWatchdogExpiry b s
  | .trapEntry b => Sys2Proof.Machine.execTrapEntry b s
  | .compositeRecordWrite b => Sys2Proof.Machine.execCompositeRecordWrite b s
  | .preemptionLanding b => Sys2Proof.Machine.execPreemptionLanding b s
  | .preemptSave b => Sys2Proof.Machine.execPreemptSave b s
  | .launchResume pkg seq => Sys2Proof.Machine.execLaunchResume pkg seq s
  | .translationRequest b va wr => Sys2Proof.Machine.execTranslationRequest b va wr s
  | .pageAnswerGrant die rqn tag => Sys2Proof.Machine.execPageAnswerGrant die rqn tag s
  | .pageAnswerDeny die rqn tag => Sys2Proof.Machine.execPageAnswerDeny die rqn tag s
  | .pageRequestTimeout die rqn => Sys2Proof.Machine.execPageRequestTimeout die rqn s
  | .hostLaunchWrite pkg rec => Sys2Proof.Machine.execHostLaunchWrite pkg rec s
  | .launchIssue pkg => Sys2Proof.Machine.execLaunchIssue pkg s
  | .launchAging pkg level => Sys2Proof.Machine.execLaunchAging pkg level s
  | .agentFreeReport die => Sys2Proof.Machine.execAgentFreeReport die s
  | .launchEnd pkg seq => Sys2Proof.Machine.execLaunchEnd pkg seq s
  | .zkill pkg seq => Sys2Proof.Machine.execZkill pkg seq s
  | .zpre pkg seq => Sys2Proof.Machine.execZpre pkg seq s
  | .shootdownGo die v => Sys2Proof.Machine.execShootdownGo die v s
  | .shootdownDone die => Sys2Proof.Machine.execShootdownDone die s
  | .jsctlSwap die => Sys2Proof.Machine.execJsctlSwap die s
  | .jstabInstall die => Sys2Proof.Machine.execJstabInstall die s
  | .replicaDropDone die => Sys2Proof.Machine.execReplicaDropDone die s
  | .patrolScrub die off => Sys2Proof.Machine.execPatrolScrub die off s
  | .rsdataAccess die wr v => Sys2Proof.Machine.execRsdataAccess die wr v s
  | .controlRegisterWrite die off v => Sys2Proof.Machine.execControlRegisterWrite die off v s
  | .mscRead die off n use dead => Sys2Proof.Machine.execMscRead die off n use dead s
  | .mscMaskedWrite die off data mask => Sys2Proof.Machine.execMscMaskedWrite die off data mask s
  | .mscBankAluOp die off op size x => Sys2Proof.Machine.execMscBankAluOp die off op size x s
  | .cirrusAppend cl k => Sys2Proof.Machine.execCirrusAppend cl k s
  | .gatewayRead b addr n => Sys2Proof.Machine.execGatewayRead b addr n s
  | .hostMemRead pkg off n => Sys2Proof.Machine.execHostMemRead pkg off n s
  | .hostMemWrite pkg off data => Sys2Proof.Machine.execHostMemWrite pkg off data s
  | .arrayGrantPass cl => Sys2Proof.Machine.execArrayGrantPass cl s
  | .planeLoadComplete cl plane => Sys2Proof.Machine.execPlaneLoadComplete cl plane s
  | .boundStreamElement b id => Sys2Proof.Machine.execBoundStreamElement b id s
  | .peerLinkForm b id => Sys2Proof.Machine.execPeerLinkForm b id s
  | .peerElementForward b id => Sys2Proof.Machine.execPeerElementForward b id s
  | .mailboxEntryVisible cl k => Sys2Proof.Machine.execMailboxEntryVisible cl k s
  | .layoutInstall pkg => Sys2Proof.Machine.execLayoutInstall pkg s
  | .haloDelivery k => Sys2Proof.Machine.execHaloDelivery k s
  | .reshardCheck seq => Sys2Proof.Machine.execReshardCheck seq s
  | .reshardStep seq die => Sys2Proof.Machine.execReshardStep seq die s
  | .reshardSkew seq => Sys2Proof.Machine.execReshardSkew seq s
  | .reshardComplete seq => Sys2Proof.Machine.execReshardComplete seq s
  | .flitArrival die => Sys2Proof.Machine.execFlitArrival die s
  | .flitHeaderError src dst => Sys2Proof.Machine.execFlitHeaderError src dst s
  | .throttleWindow die => Sys2Proof.Machine.execThrottleWindow die s
  | .ftSyncLost die => Sys2Proof.Machine.execFtSyncLost die s
  | .readRequest k => Sys2Proof.Machine.execReadRequest k s
  | .readResponse k => Sys2Proof.Machine.execReadResponse k s
  | .maskedWrite k => Sys2Proof.Machine.execMaskedWrite k s
  | .bankAluRequest k => Sys2Proof.Machine.execBankAluRequest k s
  | .acknowledgement k => Sys2Proof.Machine.execAcknowledgement k s
  | .entryRequest k => Sys2Proof.Machine.execEntryRequest k s
  | .entryGrant k => Sys2Proof.Machine.execEntryGrant k s
  | .entryRequestRetry k => Sys2Proof.Machine.execEntryRequestRetry k s
  | .flitEject die k => Sys2Proof.Machine.execFlitEject die k s
  | .message k => Sys2Proof.Machine.execMessage k s
  | .bulkWrite k => Sys2Proof.Machine.execBulkWrite k s
  | .reduceRead die seq off => Sys2Proof.Machine.execReduceRead die seq off s
  | .collectiveControl k => Sys2Proof.Machine.execCollectiveControl k s
  | .collectiveStart cl k => Sys2Proof.Machine.execCollectiveStart cl k s
  | .collectiveResult cl k => Sys2Proof.Machine.execCollectiveResult cl k s
  | .collectiveDeadline cl k => Sys2Proof.Machine.execCollectiveDeadline cl k s
  | .powerManagementTick pkg watts celsius => Sys2Proof.Machine.execPowerManagementTick pkg watts celsius s
  | .thermalShutdown pkg => Sys2Proof.Machine.execThermalShutdown pkg s
  | .bringUp die => Sys2Proof.Machine.execBringUp die s
  | .ftimeUntilTargetReached b => Sys2Proof.Machine.execFtimeUntilTargetReached b s
  | .ftSyncAchieved die => Sys2Proof.Machine.execFtSyncAchieved die s

end Sys2Proof.Machine
end

