-- ==== Sys2Proof/Machine/Events.lean ====
section
/-! DEFINITION. The step of an event: the meaning that exec gives the event's row. -/

namespace Sys2Proof.Machine

def runEvent (e : Event) (s : State) : Host.Outcome State Fault Refusal :=
  match e with
  | .flagUnitCycle b => Sys2Proof.Machine.execFlagUnitCycle b s
  | .remoteIncrement k => Sys2Proof.Machine.execRemoteIncrement k s
  | .sResultLand b id => Sys2Proof.Machine.execSResultLand b id s
  | .wordCompletion b id => Sys2Proof.Machine.execWordCompletion b id s
  | .ringFetch b p => Sys2Proof.Machine.execRingFetch b p s
  | .sFetch b => Sys2Proof.Machine.execSFetch b s
  | .jobStart b => Sys2Proof.Machine.execJobStart b s
  | .jobRetire b => Sys2Proof.Machine.execJobRetire b s
  | .phaseBarrierComplete b => Sys2Proof.Machine.execPhaseBarrierComplete b s
  | .waitfComplete b => Sys2Proof.Machine.execWaitfComplete b s
  | .parkWake b => Sys2Proof.Machine.execParkWake b s
  | .watchdogExpiry b => Sys2Proof.Machine.execWatchdogExpiry b s
  | .trapEntry b => Sys2Proof.Machine.execTrapEntry b s
  | .compositeRecordWrite b => Sys2Proof.Machine.execCompositeRecordWrite b s
  | .preemptionLanding b => Sys2Proof.Machine.execPreemptionLanding b s
  | .preemptSave b => Sys2Proof.Machine.execPreemptSave b s
  | .launchResume pkg seq => Sys2Proof.Machine.execLaunchResume pkg seq s
  | .translationRequest b va wr => Sys2Proof.Machine.execTranslationRequest b va wr s
  | .pageAnswerGrant die rqn tag => Sys2Proof.Machine.execPageAnswerGrant die rqn tag s
  | .pageAnswerDeny die rqn tag => Sys2Proof.Machine.execPageAnswerDeny die rqn tag s
  | .pageRequestTimeout die rqn => Sys2Proof.Machine.execPageRequestTimeout die rqn s
  | .hostLaunchWrite pkg rec => Sys2Proof.Machine.execHostLaunchWrite pkg rec s
  | .launchIssue pkg => Sys2Proof.Machine.execLaunchIssue pkg s
  | .launchAging pkg level => Sys2Proof.Machine.execLaunchAging pkg level s
  | .agentFreeReport die => Sys2Proof.Machine.execAgentFreeReport die s
  | .launchEnd pkg seq => Sys2Proof.Machine.execLaunchEnd pkg seq s
  | .zkill pkg seq => Sys2Proof.Machine.execZkill pkg seq s
  | .zpre pkg seq => Sys2Proof.Machine.execZpre pkg seq s
  | .shootdownGo die v => Sys2Proof.Machine.execShootdownGo die v s
  | .shootdownDone die => Sys2Proof.Machine.execShootdownDone die s
  | .jsctlSwap die => Sys2Proof.Machine.execJsctlSwap die s
  | .jstabInstall die => Sys2Proof.Machine.execJstabInstall die s
  | .replicaDropDone die => Sys2Proof.Machine.execReplicaDropDone die s
  | .patrolScrub die off => Sys2Proof.Machine.execPatrolScrub die off s
  | .rsdataAccess die wr v => Sys2Proof.Machine.execRsdataAccess die wr v s
  | .controlRegisterWrite die off v => Sys2Proof.Machine.execControlRegisterWrite die off v s
  | .mscRead die off n use dead => Sys2Proof.Machine.execMscRead die off n use dead s
  | .mscMaskedWrite die off data mask => Sys2Proof.Machine.execMscMaskedWrite die off data mask s
  | .mscBankAluOp die off op size x => Sys2Proof.Machine.execMscBankAluOp die off op size x s
  | .cirrusAppend cl k => Sys2Proof.Machine.execCirrusAppend cl k s
  | .gatewayRead b addr n => Sys2Proof.Machine.execGatewayRead b addr n s
  | .hostMemRead pkg off n => Sys2Proof.Machine.execHostMemRead pkg off n s
  | .hostMemWrite pkg off data => Sys2Proof.Machine.execHostMemWrite pkg off data s
  | .arrayGrantPass cl => Sys2Proof.Machine.execArrayGrantPass cl s
  | .planeLoadComplete cl plane => Sys2Proof.Machine.execPlaneLoadComplete cl plane s
  | .boundStreamElement b id => Sys2Proof.Machine.execBoundStreamElement b id s
  | .peerLinkForm b id => Sys2Proof.Machine.execPeerLinkForm b id s
  | .peerElementForward b id => Sys2Proof.Machine.execPeerElementForward b id s
  | .mailboxEntryVisible cl k => Sys2Proof.Machine.execMailboxEntryVisible cl k s
  | .layoutInstall pkg => Sys2Proof.Machine.execLayoutInstall pkg s
  | .haloDelivery k => Sys2Proof.Machine.execHaloDelivery k s
  | .reshardCheck seq => Sys2Proof.Machine.execReshardCheck seq s
  | .reshardStep seq die => Sys2Proof.Machine.execReshardStep seq die s
  | .reshardSkew seq => Sys2Proof.Machine.execReshardSkew seq s
  | .reshardComplete seq => Sys2Proof.Machine.execReshardComplete seq s
  | .flitArrival die => Sys2Proof.Machine.execFlitArrival die s
  | .flitHeaderError src dst => Sys2Proof.Machine.execFlitHeaderError src dst s
  | .throttleWindow die => Sys2Proof.Machine.execThrottleWindow die s
  | .ftSyncLost die => Sys2Proof.Machine.execFtSyncLost die s
  | .readRequest k => Sys2Proof.Machine.execReadRequest k s
  | .readResponse k => Sys2Proof.Machine.execReadResponse k s
  | .maskedWrite k => Sys2Proof.Machine.execMaskedWrite k s
  | .bankAluRequest k => Sys2Proof.Machine.execBankAluRequest k s
  | .acknowledgement k => Sys2Proof.Machine.execAcknowledgement k s
  | .entryRequest k => Sys2Proof.Machine.execEntryRequest k s
  | .entryGrant k => Sys2Proof.Machine.execEntryGrant k s
  | .entryRequestRetry k => Sys2Proof.Machine.execEntryRequestRetry k s
  | .flitEject die k => Sys2Proof.Machine.execFlitEject die k s
  | .message k => Sys2Proof.Machine.execMessage k s
  | .bulkWrite k => Sys2Proof.Machine.execBulkWrite k s
  | .reduceRead die seq off => Sys2Proof.Machine.execReduceRead die seq off s
  | .collectiveControl k => Sys2Proof.Machine.execCollectiveControl k s
  | .collectiveStart cl k => Sys2Proof.Machine.execCollectiveStart cl k s
  | .collectiveResult cl k => Sys2Proof.Machine.execCollectiveResult cl k s
  | .collectiveDeadline cl k => Sys2Proof.Machine.execCollectiveDeadline cl k s
  | .powerManagementTick pkg watts celsius => Sys2Proof.Machine.execPowerManagementTick pkg watts celsius s
  | .thermalShutdown pkg => Sys2Proof.Machine.execThermalShutdown pkg s
  | .bringUp die => Sys2Proof.Machine.execBringUp die s
  | .ftimeUntilTargetReached b => Sys2Proof.Machine.execFtimeUntilTargetReached b s
  | .ftSyncAchieved die => Sys2Proof.Machine.execFtSyncAchieved die s

end Sys2Proof.Machine
end

