-- ==== Sys2Proof/Machine/Step.lean ====
section
/-! DEFINITION. One step: the first turn of the agenda is taken. An issue turn fetches and runs one word of one issue
point; an event turn is one event of another agent; a plan turn plans the rest of its cycle; with no turn left, the next cycle
begins. -/

namespace Sys2Proof.Machine

/-- One step of the machine. -/
def step (s : State) : Host.Outcome State Fault Refusal :=
  match s.agenda with
  | [] => .next s.tick
  | .event e :: rest => runEvent e { s with agenda := rest }
  | .plan :: rest => .next { s with agenda := s.secondHalf ++ rest }
  | .issue b p :: rest =>
    match State.turn { s with agenda := rest } b p with
    | .quiet s' => .next s'
    | .run i s' => exec i s'

/-- The state with one instruction where the next step fetches it (log 9). -/
def State.withFetchWord (s : State) (nbits w : Nat) : State :=
  match decodeFirst (BitVec.ofNat 64 w) (tableSpaces nbits w) with
  | some (sp, _) => s.placeWord sp (BitVec.ofNat 64 w)
  | none => s.placeWord .s (BitVec.ofNat 64 w)

end Sys2Proof.Machine
end

