-- ==== Sys2Proof/Safety.lean ====
section
/-! DEFINITION. The terms in which claims about runs are stated: when a word may issue and what its issue leaves (R15, R20, R23), what
stays as it was, and what makes a state sound. -/

namespace Sys2Proof.Machine

/-! Waiting and issuing. -/

/-- The WAIT of a word at issue point p is met (R15, R20): it names no flag, or its flag's condition holds, was not found unmet
earlier in the cycle, and no word ranked before it takes the flag first. -/
def Bank.waitMet (k : Bank) (cyc : Nat) (p : Point) (wait : BitVec 8) : Bool :=
  sigMode wait == 0 ||
  (!k.judgedAt cyc p && !k.overtakes cyc p (sigFlag wait) (k.rankAt cyc p (sigFlag wait)) &&
    k.condHolds (sigMode wait) 1 (sigFlag wait))

/-- The bank after a met WAIT: mode 0b01 consumes one count (R15), once the words ranked before it have been evaluated (R20). -/
def Bank.waited (k : Bank) (cyc : Nat) (p : Point) (wait : BitVec 8) : Bank :=
  if sigMode wait = 1 then
    ((k.dropWaiter p).judgeBefore cyc p (sigFlag wait) (k.rankAt cyc p (sigFlag wait))).consume cyc (sigFlag wait) 1
  else k.dropWaiter p

/-- The bank of a word whose WAIT is not met: a waiter of its flag is noted, with the cycle where its condition does not hold. -/
def Bank.waitsOn (k : Bank) (cyc : Nat) (p : Point) (wait : BitVec 8) : Bank :=
  if k.judgedAt cyc p then k
  else k.putWaiter ⟨p, sigFlag wait, sigMode wait, 1, k.rankAt cyc p (sigFlag wait), none,
    if k.overtakes cyc p (sigFlag wait) (k.rankAt cyc p (sigFlag wait)) then none else some cyc⟩

/-- An S word with these marks issues in this step: its WAIT is met, or it is the word at EPC of a return that skips it (R157). -/
def State.sIssues (s : State) (m : Marks) : Bool :=
  (s.bank s.focus.bank).skipWait || (s.bank s.focus.bank).waitMet s.cycle .s m.wait

/-- The bank as an S word's issue leaves it: the consume, the at-issue increment (R16), and the note of the issue. -/
def Bank.sIssued (k : Bank) (cyc : Nat) (m : Marks) : Bank :=
  let k' := if k.skipWait then { k with skipWait := false } else (k.waited cyc .s m.wait).signalIssue cyc .s m.signal
  { k' with idleSince := cyc, lastPoint := k'.lastPoint.set 0 (cyc + 1) }

/-- The state in which the effect of an issued S word takes place. -/
def State.sIssued (s : State) (m : Marks) : State :=
  (s.setBank s.focus.bank ((s.bank s.focus.bank).sIssued s.cycle m)).spend

/-- A V, C or M word with these marks, queue sources and destinations issues in this step: its WAIT is met and its queues let
it (R20, R174, R175). -/
def State.eIssues (s : State) (m : Marks) (srcs : List (Nat × Bool)) (dsts : List Nat) : Bool :=
  (s.bank s.focus.bank).waitMet s.cycle s.focus.point m.wait &&
  (s.bank s.focus.bank).queueRes s.cycle s.focus.point srcs dsts == .ok

/-- The bank as the issue of a V, C or M word leaves it: the consume, the pops, the slots reserved, the at-issue increment, and the
next position. -/
def Bank.eIssued (k : Bank) (cyc : Nat) (p : Point) (m : Marks) (srcs : List (Nat × Bool)) (slots : List (Nat × Nat)) : Bank :=
  let k' := ((((k.waited cyc p m.wait).takeSlots cyc (poppedQueues srcs) slots).signalIssue cyc p m.signal).advE p)
  { k' with idleSince := cyc, lastPoint := k'.lastPoint.set p.index (cyc + 1) }

/-- The state in which the effect of an issued V, C or M word takes place. -/
def State.eIssued (s : State) (m : Marks) (srcs : List (Nat × Bool)) (dsts : List Nat) : State :=
  (s.setBank s.focus.bank ((s.bank s.focus.bank).eIssued s.cycle s.focus.point m srcs (s.slotIds dsts))).spend

/-! The S integer words by the tables of R94, R100 and R101. -/

/-- 1 where a condition holds, and else 0. -/
def oneIf (p : Prop) [Decidable p] : W64 := if p then 1 else 0

/-- An S integer word: its marks, its destination, the registers it reads, its latency bound (R94), and its result from their
values. -/
structure AluForm where
  marks : Marks
  d : SReg
  srcs : List SReg
  lam : Nat
  val : List W64 → W64

/-- A form of two registers, of one, and of none. -/
def two (m : Marks) (d a b : SReg) (lam : Nat) (f : W64 → W64 → W64) : Option AluForm :=
  some ⟨m, d, [a, b], lam, fun v => f (v.headD 0) (v.tail.headD 0)⟩
def one (m : Marks) (d a : SReg) (lam : Nat) (f : W64 → W64) : Option AluForm := some ⟨m, d, [a], lam, fun v => f (v.headD 0)⟩

/-- The bits pos to pos + width - 1. -/
def fieldMask (pos width : Nat) : W64 := (BitVec.ofNat 64 (2 ^ width - 1)) <<< pos

/-- The results of opcodes 0x01 to 0x1F (R100) and 0x20 to 0x2D (R101). -/
def aluForm : Instr → Option AluForm
  | .add m d a b => two m d a b 1 (fun x y => x + y)
  | .sub m d a b => two m d a b 1 (fun x y => x - y)
  | .mul m d a b => two m d a b 3 (fun x y => x * y)
  | .mulh m d a b => two m d a b 3 (fun x y => (x.signExtend 128 * y.signExtend 128).extractLsb' 64 64)
  | .mulhn m d a b => two m d a b 3 (fun x y => (x.setWidth 128 * y.setWidth 128).extractLsb' 64 64)
  | .div m d a b => two m d a b 40 (fun x y => if y = 0 then BitVec.allOnes 64 else x.sdiv y)
  | .divn m d a b => two m d a b 40 (fun x y => if y = 0 then BitVec.allOnes 64 else x.udiv y)
  | .rem m d a b => two m d a b 40 (fun x y => if y = 0 then x else x.srem y)
  | .remn m d a b => two m d a b 40 (fun x y => if y = 0 then x else x.umod y)
  | .and m d a b => two m d a b 1 (fun x y => x &&& y)
  | .or m d a b => two m d a b 1 (fun x y => x ||| y)
  | .xor m d a b => two m d a b 1 (fun x y => x ^^^ y)
  | .andn m d a b => two m d a b 1 (fun x y => x &&& ~~~y)
  | .shl m d a b => two m d a b 1 (fun x y => x <<< (y.toNat % 64))
  | .shr m d a b => two m d a b 1 (fun x y => x >>> (y.toNat % 64))
  | .sha m d a b => two m d a b 1 (fun x y => x.sshiftRight (y.toNat % 64))
  | .rotl m d a b => two m d a b 1 (fun x y => (x <<< (y.toNat % 64)) ||| (x >>> ((64 - y.toNat % 64) % 64)))
  | .min m d a b => two m d a b 1 (fun x y => if x.toInt ≤ y.toInt then x else y)
  | .max m d a b => two m d a b 1 (fun x y => if x.toInt ≤ y.toInt then y else x)
  | .minn m d a b => two m d a b 1 (fun x y => if x.toNat ≤ y.toNat then x else y)
  | .maxn m d a b => two m d a b 1 (fun x y => if x.toNat ≤ y.toNat then y else x)
  | .seq m d a b => two m d a b 1 (fun x y => oneIf (x = y))
  | .sne m d a b => two m d a b 1 (fun x y => oneIf (x ≠ y))
  | .slt m d a b => two m d a b 1 (fun x y => oneIf (x.toInt < y.toInt))
  | .sltn m d a b => two m d a b 1 (fun x y => oneIf (x.toNat < y.toNat))
  | .sle m d a b => two m d a b 1 (fun x y => oneIf (x.toInt ≤ y.toInt))
  | .slen m d a b => two m d a b 1 (fun x y => oneIf (x.toNat ≤ y.toNat))
  | .clz m d a => one m d a 1 (fun x => BitVec.ofNat 64 ((List.range 64).countP (fun k => x.toNat < 2 ^ k)))
  | .ctz m d a => one m d a 1 (fun x => BitVec.ofNat 64 ((List.range 64).countP (fun k => x.toNat % 2 ^ (k + 1) = 0)))
  | .popc m d a => one m d a 1 (fun x => BitVec.ofNat 64 ((List.range 64).countP (fun i => x.getLsbD i)))
  | .sel m d a b c => some ⟨m, d, [a, b, c], 1, fun v =>
      if v.tail.tail.headD 0 ≠ 0 then v.headD 0 else v.tail.headD 0⟩
  | .addi m d a imm => one m d a 1 (fun x => x + imm.signExtend 64)
  | .andi m d a imm => one m d a 1 (fun x => x &&& imm.signExtend 64)
  | .ori m d a imm => one m d a 1 (fun x => x ||| imm.setWidth 64)
  | .xori m d a imm => one m d a 1 (fun x => x ^^^ imm.setWidth 64)
  | .slti m d a imm => one m d a 1 (fun x => oneIf (x.toInt < imm.toInt))
  | .sltni m d a imm => one m d a 1 (fun x => oneIf (x.toNat < (imm.signExtend 64).toNat))
  | .lih m d a imm => one m d a 1 (fun x => (imm.signExtend 64 <<< 28) ||| (x.setWidth 28).setWidth 64)
  | .muli m d a imm => one m d a 3 (fun x => x * imm.signExtend 64)
  | .shli m d a sh => one m d a 1 (fun x => x <<< sh.toNat)
  | .shri m d a sh => one m d a 1 (fun x => x >>> sh.toNat)
  | .shai m d a sh => one m d a 1 (fun x => x.sshiftRight sh.toNat)
  | .li m d imm => some ⟨m, d, [], 1, fun _ => imm.signExtend 64⟩
  | .extr m d a pos wm1 sx => one m d a 1 (fun x =>
      let field := (x >>> pos.toNat).setWidth (wm1.toNat + 1)
      if sx then field.signExtend 64 else field.setWidth 64)
  | .insr m d a pos wm1 => some ⟨m, d, [d, a], 1, fun v =>
      let mask := fieldMask pos.toNat (wm1.toNat + 1)
      (v.headD 0 &&& ~~~mask) ||| ((v.tail.headD 0 <<< pos.toNat) &&& mask)⟩
  | _ => none

/-! Reading the bank of the word that runs. -/

/-- The bank a word runs on. -/
def State.me (s : State) : Bank := s.bank s.focus.bank
/-- The value it reads from a register. -/
def State.reg (s : State) (r : SReg) : W64 := s.sVal s.focus.bank r.toNat
/-- No register of a list is poisoned. -/
def State.clean (s : State) (rs : List SReg) : Bool := rs.all (fun r => !s.sBad s.focus.bank r.toNat)

/-! Branches by the table of R130. -/

/-- A branch or J: its marks, the registers it compares, whether it is taken, .n, and its displacement in words. -/
structure BranchForm where
  marks : Marks
  regs : List SReg
  taken : State → Bool
  nul : Bool
  disp : W64

/-- A compare branch; with the zero bit, y is 0 and b is not read. -/
def cmpForm (m : Marks) (a b : SReg) (nul zero : Bool) (disp : BitVec 26) (c : W64 → W64 → Bool) : Option BranchForm :=
  some ⟨m, if zero then [a] else [a, b], fun s => c (s.reg a) (if zero then 0 else s.reg b), nul, disp.signExtend 64⟩

def branchForm : Instr → Option BranchForm
  | .beq m a b nul zero disp => cmpForm m a b nul zero disp (fun x y => x == y)
  | .bne m a b nul zero disp => cmpForm m a b nul zero disp (fun x y => x != y)
  | .blt m a b nul zero disp => cmpForm m a b nul zero disp (fun x y => decide (x.toInt < y.toInt))
  | .bge m a b nul zero disp => cmpForm m a b nul zero disp (fun x y => decide (y.toInt ≤ x.toInt))
  | .bltn m a b nul zero disp => cmpForm m a b nul zero disp (fun x y => decide (x.toNat < y.toNat))
  | .bgen m a b nul zero disp => cmpForm m a b nul zero disp (fun x y => decide (y.toNat ≤ x.toNat))
  | .bps m p nul disp => some ⟨m, [], fun s => s.readP s.focus.bank p.toNat, nul, disp.signExtend 64⟩
  | .bpc m p nul disp => some ⟨m, [], fun s => !s.readP s.focus.bank p.toNat, nul, disp.signExtend 64⟩
  | .j m disp => some ⟨m, [], fun _ => true, false, disp.signExtend 64⟩
  | _ => none

/-- JL, JR and JLR: marks, the link register, the register that holds the target, and the target. -/
structure JumpForm where
  marks : Marks
  link : SReg
  regs : List SReg
  target : State → W64

def jumpForm : Instr → Option JumpForm
  | .jl m link disp => some ⟨m, link, [], fun s => s.here + 8 * disp.signExtend 64⟩
  | .jr m a => some ⟨m, 0, [a], fun s => s.reg a⟩
  | .jlr m d a => some ⟨m, d, [a], fun s => s.reg a⟩
  | _ => none

/-- The words of opcodes 0x40 to 0x4B, with their marks. -/
def jumpMarks (i : Instr) : Option Marks :=
  match branchForm i, jumpForm i with
  | some f, _ => some f.marks
  | none, some f => some f.marks
  | none, none => none

/-! The operands whose poison traps (R90, R144, R145). -/

/-- No check of R134 or R139 stops a branch or jump. -/
def State.mayBranch (s : State) : Bool := s.me.targets.length != 2 && !s.me.loopAct
/-- A ring takes a word now, or never will (R111). -/
def Bank.takesPush (k : Bank) (e : Engine) : Bool :=
  !ringClosed (k.ring e) && (!ringFull (k.ring e) || ringRP (k.ring e) == ringWP (k.ring e))

/-- The S words that use a register for which poison is a fault, with those registers, and the condition under which no other check
or stall of the word comes first. -/
def poisonForm : Instr → Option (Marks × List SReg × (State → Bool))
  | .chk m a => some (m, [a], fun _ => true)
  | .ld m o => some (m, [o.base], fun _ => true)
  | .st m _ base _ _ => some (m, [base], fun _ => true)
  | .amo m _ base src _ _ _ _ _ => some (m, [base, src], fun _ => true)
  | .cas m _ base src src2 _ _ _ _ => some (m, [base, src, src2], fun _ => true)
  | .cwb m base _ => some (m, [base], fun _ => true)
  | .cinv m base _ => some (m, [base], fun _ => true)
  | .cinvDiscard m base _ => some (m, [base], fun _ => true)
  | .iinv m base _ => some (m, [base], fun _ => true)
  | .push m e a => some (m, [a], fun s => s.me.takesPush e)
  | .waitf m _ a b _ => some (m, [a, b], fun _ => true)
  | .sigf m a => some (m, [a], fun _ => true)
  | .rdf m _ a => some (m, [a], fun _ => true)
  | .rdq m _ _ b _ => some (m, [b], fun _ => true)
  | .start m e a => some (m, [a], fun s => !ringClosed (s.me.ring e) && s.me.idleE e)
  | .endJob m a => some (m, [a], fun _ => true)
  | .launch m _ a => some (m, [a], fun _ => true)
  | .evt m a cls => some (m, [a], fun s => cls != 1 || s.me.sv)
  | .setc m a cw => some (m, [a], fun s => !s.cwForbidden s.focus.bank cw.toNat true)
  | .setb m a cw => some (m, [a], fun s => !s.cwForbidden s.focus.bank cw.toNat true)
  | .clrb m a cw => some (m, [a], fun s => !s.cwForbidden s.focus.bank cw.toNat true)
  | .mbox m a => some (m, [a], fun _ => true)
  | .ftimeUntil m _ a => some (m, [a], fun _ => true)
  | .rgrp m a b => some (m, [a, b], fun _ => true)
  | .laysel m a => some (m, [a], fun _ => true)
  | .rshrd m a b c => some (m, [a, b, c], fun _ => true)
  | .fpost m _ a => some (m, [a], fun s => s.isMaster s.focus.bank)
  | .rasave m a => some (m, [a], fun s => s.me.sv)
  | .raload m a => some (m, [a], fun s => s.me.sv)
  | .beq m a b _ z _ => some (m, if z then [a] else [a, b], fun s => s.mayBranch)
  | .bne m a b _ z _ => some (m, if z then [a] else [a, b], fun s => s.mayBranch)
  | .blt m a b _ z _ => some (m, if z then [a] else [a, b], fun s => s.mayBranch)
  | .bge m a b _ z _ => some (m, if z then [a] else [a, b], fun s => s.mayBranch)
  | .bltn m a b _ z _ => some (m, if z then [a] else [a, b], fun s => s.mayBranch)
  | .bgen m a b _ z _ => some (m, if z then [a] else [a, b], fun s => s.mayBranch)
  | .jr m a => some (m, [a], fun s => s.mayBranch)
  | .jlr m _ a => some (m, [a], fun s => s.mayBranch)
  | .lbrk m a b z _ => some (m, if z then [a] else [a, b], fun s => s.me.targets.length != 2 && s.me.loopAct)
  | .loop m a _ _ => some (m, [a], fun s => s.me.targets.isEmpty && !s.me.loopAct && !(s.me.cw cwLSTAT).getLsbD 2)
  | .setp m _ a b c => some (m, [a, b], fun _ => decide (c.toNat < 6))
  | _ => none

/-- The lowest-numbered poisoned register of a list. -/
def State.firstBad (s : State) (rs : List SReg) (r : SReg) : Prop :=
  r ∈ rs ∧ s.sBad s.focus.bank r.toNat = true ∧ ∀ x ∈ rs, s.sBad s.focus.bank x.toNat = true → r.toNat ≤ x.toNat

/-! What stays as it was. -/

/-- The memories of the machine. -/
inductive Store where
  | scratchpad (core : Nat)
  | shared (cluster : Nat)
  | hbm (die : Nat)
  | host
  deriving DecidableEq, Repr

def State.memAt (s : State) : Store → Mem
  | .scratchpad k => (s.core k).sp
  | .shared c => (s.cluster c).shm
  | .hbm d => (s.die d).hbm
  | .host => s.hostMem

/-- One byte of one memory. -/
def State.peek (s : State) (u : Store) (a : Nat) : Byte := (s.memAt u).byte a

/-- Where an address of the local window or of the cluster scratchpads lies, for an engine of bank b (R95, R165). -/
def localPlace (b a : Nat) : Option (Store × Nat) :=
  if a < 0x80000 then some (.scratchpad (bankCore b), a)
  else if 0x400000 ≤ a ∧ a < 0x800000 then some (.shared (bankCluster b), a - 0x400000)
  else if 0x800000 ≤ a ∧ a < 0xA00000 then some (.scratchpad (bankCluster b * 4 + (a - 0x800000) / 0x80000), (a - 0x800000) % 0x80000)
  else none

/-- Byte x of a memory is among the bytes of runs of addresses. -/
def runsHold (b : Nat) (runs : List (Nat × Loc × Nat)) (u : Store) (x : Nat) : Prop :=
  ∃ so a n i, (so, Loc.ea a, n) ∈ runs ∧ i < n ∧ localPlace b (a + i) = some (u, x)

/-- A scratchpad or a shared memory. -/
def Store.isLocal : Store → Bool
  | .scratchpad _ => true
  | .shared _ => true
  | _ => false

/-- Nothing outside the banks differs, but for the counters from which the model draws undefined values and identifiers (log 4). -/
def State.sameUnits (s t : State) : Prop := t = { s with banks := t.banks, freeCtr := t.freeCtr, nextId := t.nextId }

/-- Nothing outside bank b differs. -/
def State.onlyBank (s t : State) (b : Nat) : Prop := s.sameUnits t ∧ ∀ x, x ≠ b → t.bank x = s.bank x

/-! Words that touch only their bank's registers. -/

/-- The S words of R100, R101 and R130 to R136, and NOP, with their marks. -/
def registerWord (i : Instr) : Option Marks :=
  match i with
  | .nop m => some m
  | .setp m _ _ _ _ => some m
  | i => (aluForm i).map (fun f => f.marks) <|> jumpMarks i

/-! Memory as S reaches it (R95 to R98, R103 to R106). -/

/-- Bytes off to off + n - 1 of a memory, read little-endian. -/
def State.bytesAt (s : State) (u : Store) (off n : Nat) : Nat :=
  (List.range n).foldr (fun j v => (s.peek u (off + j)).toNat + 256 * v) 0

/-- The memory and offset that n bytes of an S word reach in the local window (R96). -/
def State.localAt (s : State) (a n : Nat) : Option (Store × Nat) :=
  if a < 0x80000 then if s.me.inRange a n then some (.scratchpad (bankCore s.focus.bank), a) else none
  else if 0x400000 ≤ a ∧ a < 0x800000 then some (.shared (bankCluster s.focus.bank), a - 0x400000)
  else none

/-- A load, store or atomic: its marks, the registers whose poison traps, its destination, its address, its bytes, whether it writes,
whether it is no atomic, its access, and its bound. -/
structure MemForm where
  marks : Marks
  regs : List SReg
  d : Option SReg
  ea : State → W64
  n : Nat
  wr : Bool
  plain : Bool
  access : W64 → State → SAccess
  lam : Nat

def memForm : Instr → Option MemForm
  | .ld m o => some ⟨m, [o.base], some o.d, fun s => s.reg o.base + o.off.signExtend 64, 2 ^ o.size.toNat, false, true,
      fun ea _ => .load ea (2 ^ o.size.toNat) o.sx, latency o.lat⟩
  | .st m d base size off => some ⟨m, [base], none, fun s => s.reg base + off.signExtend 64, 2 ^ size.toNat, true, true,
      fun ea s => .store ea (2 ^ size.toNat) (s.reg d) (s.sBad s.focus.bank d.toNat), 0⟩
  | .amo m d base src lat op scope place size => some ⟨m, [base, src], some d, fun s => s.reg base, 2 ^ size.toNat, true, false,
      fun ea s => .amo ea (2 ^ size.toNat) op.toNat (s.reg src) place.toNat scope.toNat, latency lat⟩
  | .cas m d base src src2 lat scope place size => some ⟨m, [base, src, src2], some d, fun s => s.reg base, 2 ^ size.toNat, true,
      false, fun ea s => .cas ea (2 ^ size.toNat) (s.reg src) (s.reg src2) place.toNat scope.toNat, latency lat⟩
  | _ => none

/-- The value AMO writes (R104), on n-byte operands. -/
def amoValue (op n old x : Nat) : Nat :=
  let o : BitVec (8 * n) := BitVec.ofNat (8 * n) old
  let y : BitVec (8 * n) := BitVec.ofNat (8 * n) x
  match op with
  | 0 => (o + y).toNat
  | 1 => (o &&& y).toNat
  | 2 => (o ||| y).toNat
  | 3 => (o ^^^ y).toNat
  | 4 => if y.toInt < o.toInt then y.toNat else o.toNat
  | 5 => if o.toInt < y.toInt then y.toNat else o.toNat
  | 6 => min o.toNat y.toNat
  | 7 => max o.toNat y.toNat
  | 8 => y.toNat
  | _ => EType.rnd .fp32 .rne (Val.add .rne (EType.value .fp32 old) (EType.value .fp32 x))

/-! V words (R184 to R205, R212 to R217). -/

/-- Element i of a register in a type, 0 beyond its lanes. -/
def laneOf (t : EType) (e : Elem) (i : Nat) : Nat := if i < t.lanes then elemAt e t.width i else 0

/-- Active(i) (R177, R184). -/
def Bank.activeLane (k : Bank) (f : VOp) (i : Nat) : Bool :=
  f.ty == .i3 || f.msel == 0 || (k.masks.get 0 f.msel.toNat).getLsbD i

/-- What the issue of an execute-side word needs and takes: its source fields with their keep bits, the queues it pushes to, the masks
it reads or writes, and its completion time and occupancy (R188). -/
structure VecShape where
  marks : Marks
  srcs : List (Nat × Bool)
  dsts : List Nat
  masks : List Nat
  lat : Nat
  occ : Nat

def vA (f : VOp) : List (Nat × Bool) := [(f.va.toNat, f.ka)]
def vAB (f : VOp) : List (Nat × Bool) := [(f.va.toNat, f.ka), (f.vb.toNat, f.kb)]
def vABC (f : VOp) : List (Nat × Bool) := [(f.va.toNat, f.ka), (f.vb.toNat, f.kb), (f.vc.toNat, f.kc)]
/-- vc as the source of random bits (R47). -/
def vSR (f : VOp) : List (Nat × Bool) := if f.rm = .sr then [(f.vc.toNat, f.kc)] else []

/-- A word of one destination under a mask. -/
def maskedShape (m : Marks) (f : VOp) (srcs : List (Nat × Bool)) (lat occ : Nat) : Option VecShape :=
  some ⟨m, srcs, [f.vd.toNat], [f.msel.toNat], lat, occ⟩

/-- The execute-side words that push registers or write masks, as R188 to R217 give them. -/
def vecShape : Instr → Option VecShape
  | .vadd m f => maskedShape m f (vAB f ++ vSR f) 4 1
  | .vsub m f => maskedShape m f (vAB f ++ vSR f) 4 1
  | .vmul m f => maskedShape m f (vAB f ++ vSR f) 4 1
  | .vfma m f => maskedShape m f (vABC f) 6 1
  | .vfms m f => maskedShape m f (vABC f) 6 1
  | .vfnma m f => maskedShape m f (vABC f) 6 1
  | .vmin m f => maskedShape m f (vAB f) 4 1
  | .vmax m f => maskedShape m f (vAB f) 4 1
  | .vabs m f => maskedShape m f (vA f) 4 1
  | .vneg m f => maskedShape m f (vA f) 4 1
  | .vcmp m f => some ⟨m, vAB f, [], [f.msel.toNat, f.vd.toNat], 4, 1⟩
  | .vicmp m f => some ⟨m, vAB f, [], [f.msel.toNat, f.vd.toNat], 4, 1⟩
  | .vsel m f => maskedShape m f (vAB f) 4 1
  | .vexp2 m f => maskedShape m f (vA f) 16 (if f.ty = .fp32 then 4 else 2)
  | .vlog2 m f => maskedShape m f (vA f) 16 (if f.ty = .fp32 then 4 else 2)
  | .vrcp m f => maskedShape m f (vA f) 16 (if f.ty = .fp32 then 4 else 2)
  | .vrsq m f => maskedShape m f (vA f) 16 (if f.ty = .fp32 then 4 else 2)
  | .vsqrt m f => maskedShape m f (vA f) 16 (if f.ty = .fp32 then 4 else 2)
  | .vsin m f => maskedShape m f (vA f) 16 (if f.ty = .fp32 then 4 else 2)
  | .vcos m f => maskedShape m f (vA f) 16 (if f.ty = .fp32 then 4 else 2)
  | .vtanh m f => maskedShape m f (vA f) 16 (if f.ty = .fp32 then 4 else 2)
  | .vsigm m f => maskedShape m f (vA f) 16 (if f.ty = .fp32 then 4 else 2)
  | .vcvt m f => maskedShape m f (vA f ++ vSR f) 6 1
  | .vqmx m f => some ⟨m, vA f ++ vSR f, [f.vd.toNat, f.vb.toNat], [], 10, 1⟩
  | .vqgi m f => some ⟨m, vA f ++ vSR f, [f.vd.toNat, f.vb.toNat], [], 10, 1⟩
  | .vdqmx m f => some ⟨m, vAB f, [f.vd.toNat], [], 6, 1⟩
  | .vscl m f => maskedShape m f (vA f) 6 1
  | .vpack m f => some ⟨m, vA f, [f.vd.toNat], [], 6, 1⟩
  | .vunpk m f => some ⟨m, vA f, [f.vd.toNat], [], 6, 1⟩
  | .viadd m f => maskedShape m f (vAB f) 4 1
  | .visub m f => maskedShape m f (vAB f) 4 1
  | .vimul m f => maskedShape m f (vAB f) 4 1
  | .vimad m f => maskedShape m f (vABC f) 4 1
  | .vand m f => maskedShape m f (vAB f) 4 1
  | .vor m f => maskedShape m f (vAB f) 4 1
  | .vxor m f => maskedShape m f (vAB f) 4 1
  | .vshl m f => maskedShape m f (if f.sub.getLsbD 7 then vA f else vAB f) 4 1
  | .vshr m f => maskedShape m f (if f.sub.getLsbD 7 then vA f else vAB f) 4 1
  | .vsha m f => maskedShape m f (if f.sub.getLsbD 7 then vA f else vAB f) 4 1
  | .vimin m f => maskedShape m f (vAB f) 4 1
  | .vimax m f => maskedShape m f (vAB f) 4 1
  | .viota m f => maskedShape m f [] 4 1
  | .vpopc m f => maskedShape m f (vA f) 4 1
  | .vred m f => maskedShape m f (vA f) 10 1
  | .vscan m f => maskedShape m f (vA f) 12 1
  | .vperm m f => maskedShape m f (vABC f) 4 1
  | .vslide m f => maskedShape m f (vAB f) 4 1
  | .vbcst m f => maskedShape m f (vA f) 4 1
  | .vmovi m vd _ => some ⟨m, [], [vd.toNat], [], 4, 1⟩
  | .vmov m f => maskedShape m f (vA f) 4 1
  | .vzip m f => maskedShape m f (vAB f) 4 1
  | .vuzp m f => maskedShape m f (vAB f) 4 1
  | .vtrn m f => maskedShape m f (vAB f) 4 1
  | .vrope m f => maskedShape m f (vABC f) 24 4
  | .vsmxStep m f => some ⟨m, vAB f, [f.vd.toNat, f.vc.toNat], [f.msel.toNat], 24, 4⟩
  | .vsmxNorm m f => maskedShape m f (vAB f) 24 4
  | .vsmxScale m f => maskedShape m f (vAB f) 24 4
  | .vdwc m f => maskedShape m f (vABC f) (6 + (f.sub.toNat % 16 + 1)) (f.sub.toNat % 16 + 1)
  | .vzcmp m f => some ⟨m, vA f, [f.vd.toNat], [f.msel.toNat, f.vc.toNat], 4, 1⟩
  | .vzexp m f => maskedShape m f (vA f) 4 1
  | .vmaskp m f => some ⟨m, if f.sub.getLsbD 0 then vAB f else vA f, [], [f.msel.toNat, f.vd.toNat], 4, 1⟩
  | .vwelf m f => maskedShape m f (if f.sub.getLsbD 0 then vABC f else vAB f) 24 4
  | _ => none

/-- A NAT or two's complement element as a number. -/
def intOf (t : EType) (x : Nat) : Int :=
  if t.isUnsigned then (BitVec.ofNat t.width x).toNat else (BitVec.ofNat t.width x).toInt

/-- A number kept modulo 2^w, or clamped to the type's range (R201). -/
def keptOf (t : EType) (sat : Bool) (x : Int) : Nat :=
  if !sat then (x % (2 ^ t.width : Nat)).toNat
  else
    let lo : Int := if t.isUnsigned then 0 else -(2 ^ (t.width - 1) : Nat)
    let hi : Int := if t.isUnsigned then (2 ^ t.width : Nat) - 1 else (2 ^ (t.width - 1) : Nat) - 1
    ((if x < lo then lo else if hi < x then hi else x) % (2 ^ t.width : Nat)).toNat

/-- The shift of R202: by b's element, or by sub[4:0], modulo w. -/
def shiftBy (f : VOp) (b : Nat → Nat) (i : Nat) : Nat := (if f.sub.getLsbD 7 then f.sub.toNat % 32 else b i) % f.ty.width

/-- The words of one element per lane: element i of the result from the elements of a, b and c (R189, R190, R201 to R203), where the lane
is active. -/
def laneWord : Instr → Option (VOp × ((Nat → Nat) → (Nat → Nat) → (Nat → Nat) → Nat → Nat))
  | .vfma _ f => some (f, fun a b c i => EType.rnd f.ty f.rm
      (Val.add f.rm (Val.mul (EType.value f.ty (a i)) (EType.value f.ty (b i))) (EType.value f.ty (c i))))
  | .vfms _ f => some (f, fun a b c i => EType.rnd f.ty f.rm
      (Val.sub f.rm (Val.mul (EType.value f.ty (a i)) (EType.value f.ty (b i))) (EType.value f.ty (c i))))
  | .vfnma _ f => some (f, fun a b c i => EType.rnd f.ty f.rm
      (Val.add f.rm (Val.mul (EType.value f.ty (a i)) (EType.value f.ty (b i))).neg (EType.value f.ty (c i))))
  | .vmin _ f => some (f, fun a b _ i => EType.rnd f.ty .rne (Val.minimum (EType.value f.ty (a i)) (EType.value f.ty (b i))))
  | .vmax _ f => some (f, fun a b _ i => EType.rnd f.ty .rne (Val.maximum (EType.value f.ty (a i)) (EType.value f.ty (b i))))
  | .vabs _ f => some (f, fun a _ _ i => EType.rnd f.ty .rne (EType.value f.ty (a i)).abs)
  | .vneg _ f => some (f, fun a _ _ i => EType.rnd f.ty .rne (EType.value f.ty (a i)).neg)
  | .vscl _ f => some (f, fun a _ _ i => EType.rnd f.ty f.rm ((EType.value f.ty (a i)).scale f.sub.toInt))
  | .viadd _ f => some (f, fun a b _ i => keptOf f.ty (f.sub.getLsbD 0) (intOf f.ty (a i) + intOf f.ty (b i)))
  | .visub _ f => some (f, fun a b _ i => keptOf f.ty (f.sub.getLsbD 0) (intOf f.ty (a i) - intOf f.ty (b i)))
  | .vimul _ f => some (f, fun a b _ i =>
      let p := intOf f.ty (a i) * intOf f.ty (b i)
      keptOf f.ty (f.sub.getLsbD 0) (if f.sub.getLsbD 1 then p / (2 ^ f.ty.width : Nat) else p))
  | .vimad _ f => some (f, fun a b c i =>
      keptOf f.ty (f.sub.getLsbD 0) (intOf f.ty (a i) * intOf f.ty (b i) + intOf f.ty (c i)))
  | .vimin _ f => some (f, fun a b _ i => if intOf f.ty (a i) ≤ intOf f.ty (b i) then a i else b i)
  | .vimax _ f => some (f, fun a b _ i => if intOf f.ty (a i) ≤ intOf f.ty (b i) then b i else a i)
  | .vand _ f => some (f, fun a b _ i => a i &&& b i)
  | .vor _ f => some (f, fun a b _ i => a i ||| b i)
  | .vxor _ f => some (f, fun a b _ i => a i ^^^ b i)
  | .vshl _ f => some (f, fun a b _ i => (BitVec.ofNat f.ty.width (a i) <<< shiftBy f b i).toNat)
  | .vshr _ f => some (f, fun a b _ i => (BitVec.ofNat f.ty.width (a i) >>> shiftBy f b i).toNat)
  | .vsha _ f => some (f, fun a b _ i => ((BitVec.ofNat f.ty.width (a i)).sshiftRight (shiftBy f b i)).toNat)
  | .viota _ f => some (f, fun _ _ _ i => ((f.sub.toInt + i) % (2 ^ f.ty.width : Nat)).toNat)
  | .vpopc _ f => some (f, fun a _ _ i => (List.range f.ty.width).countP (fun j => (a i).testBit j))
  | .vperm _ f => some (f, fun a b c i => let x := b i % (2 * f.ty.lanes); if x < f.ty.lanes then a x else c (x - f.ty.lanes))
  | .vslide _ f => some (f, fun a b _ i => if i + f.sub.toNat < f.ty.lanes then a (i + f.sub.toNat) else b (i + f.sub.toNat - f.ty.lanes))
  | .vbcst _ f => some (f, fun a _ _ _ => a f.sub.toNat)
  | .vmov _ f => some (f, fun a _ _ i => a i)
  | .vzip _ f => some (f, fun a b _ i =>
      let h := f.sub.toNat % 2 * (f.ty.lanes / 2)
      if i % 2 = 0 then a (h + i / 2) else b (h + (i - 1) / 2))
  | .vuzp _ f => some (f, fun a b _ i =>
      let h := f.sub.toNat % 2
      if i < f.ty.lanes / 2 then a (2 * i + h) else b (2 * (i - f.ty.lanes / 2) + h))
  | .vtrn _ f => some (f, fun a b _ i => let h := f.sub.toNat % 2; if i % 2 = 0 then a (i + h) else b (i - 1 + h))
  | _ => none

/-- The elements a word reads from vb: its own type's, but the indices of VPERM, which are NAT8 for 8-bit types and NAT16 otherwise
(R203). -/
def bLane (i : Instr) (f : VOp) (e : Elem) (n : Nat) : Nat :=
  match i with
  | .vperm .. => elemAt e (if f.ty.width = 8 then 8 else 16) n
  | _ => laneOf f.ty e n

/-- Level j of the fixed pairwise tree over x (R58). -/
def treeLevel (op : Nat → Nat → Nat) (x : Nat → Nat) : Nat → Nat → Nat
  | 0, i => x i
  | j + 1, i => op (treeLevel op x j (2 * i)) (treeLevel op x j (2 * i + 1))

/-- Level j of the fixed doubling network over y (R59). -/
def scanLevel (op : Nat → Nat → Nat) (y : Nat → Nat) : Nat → Nat → Nat
  | 0, i => y i
  | j + 1, i => if 2 ^ j ≤ i then op (scanLevel op y j (i - 2 ^ j)) (scanLevel op y j i) else scanLevel op y j i

/-- Op of R205 on two elements of a type. -/
def reduceOp (t : EType) (op : Nat) (rm : RMode) (x y : Nat) : Nat :=
  match op with
  | 0 => if t.isFP then EType.rnd t rm (Val.add rm (EType.value t x) (EType.value t y)) else (x + y) % 2 ^ t.width
  | 1 => if t.isFP then EType.rnd t .rne (Val.minimum (EType.value t x) (EType.value t y))
      else if intOf t x ≤ intOf t y then x else y
  | 2 => if t.isFP then EType.rnd t .rne (Val.maximum (EType.value t x) (EType.value t y))
      else if intOf t x ≤ intOf t y then y else x
  | 3 => x &&& y
  | 4 => x ||| y
  | _ => x ^^^ y

/-- The identity that an excluded lane enters as (R205). -/
def reduceIdentity (t : EType) (op : Nat) (rm : RMode) : Nat :=
  match op with
  | 0 => if t.isFP then EType.rnd t .rne (.zero (rm != .rdn)) else 0
  | 1 => if t.isFP then EType.rnd t .rne (.inf false) else if t.isUnsigned then 2 ^ t.width - 1 else 2 ^ (t.width - 1) - 1
  | 2 => if t.isFP then EType.rnd t .rne (.inf true) else if t.isUnsigned then 0 else 2 ^ (t.width - 1)
  | 3 => 2 ^ t.width - 1
  | _ => 0

/-- The state in which an execute-side word has issued, with the operation it starts. -/
def State.vecIssued (s : State) (f : VecShape) (effs : List Eff) : State :=
  ((s.eIssued f.marks f.srcs f.dsts).startOp f.marks f.lat .none effs).occupy f.occ

/-- An execute-side word issues: its WAIT is met, its queues let it, and no earlier word still writes a mask that it names (R186). -/
def State.vecIssues (s : State) (f : VecShape) : Bool :=
  s.eIssues f.marks f.srcs f.dsts && f.masks.all (fun x => !s.me.maskBusy x)

/-- The effect of the push of a register to the i-th destination. -/
def State.pushTo (s : State) (f : VecShape) (i : Nat) (e : Elem) : Eff :=
  .fill ((f.dsts[i]?).getD 0) (slotOf (s.slotIds f.dsts) ((f.dsts[i]?).getD 0)) e

/-- A register whose elements are r, and nothing above them. -/
def holdsLanes (t : EType) (e : Elem) (r : Nat → Nat) : Prop :=
  (∀ i, i < t.lanes → elemAt e t.width i = r i) ∧ e.toNat < 2 ^ (t.width * t.lanes)

/-- The random bits of SR for result element i (R47): how many, and their value. -/
def randomBits (f : VOp) (e : Elem) (i : Nat) : Nat × Nat :=
  let n := 8 + 4 * (f.sub.toNat / 64)
  let w : BitVec 16 := (e >>> (16 * (i % 128))).setWidth 16
  (n, (w.rotateRight (4 * (i / 128))).toNat % 2 ^ n)

/-- Element i of the head of the queue that a field names, in a type. -/
def State.lane (s : State) (q : BitVec 5) (t : EType) (i : Nat) : Nat := laneOf t (s.me.headOf q.toNat) i
/-- The random bits with which a word rounds result element i. -/
def State.randomFor (s : State) (f : VOp) (i : Nat) : Nat × Nat := if f.rm = .sr then randomBits f (s.me.headOf f.vc.toNat) i else noSr
/-- The source type in sub[3:0] (R194, R195, R198), and that of VQMX and VQGI (R197). -/
def sourceType (f : VOp) : EType := (EType.fromNat (f.sub.toNat % 16)).getD .fp32
def blockType (f : VOp) : EType := if f.sub.getLsbD 0 then .bf16 else .fp32

/-- The function of a word of R194. -/
def functionOf : Instr → Option (VOp × Fn)
  | .vexp2 _ f => some (f, .exp2)
  | .vlog2 _ f => some (f, .log2)
  | .vrcp _ f => some (f, .rcp)
  | .vrsq _ f => some (f, .rsq)
  | .vsqrt _ f => some (f, .sqrt)
  | .vsin _ f => some (f, .sin)
  | .vcos _ f => some (f, .cos)
  | .vtanh _ f => some (f, .tanh)
  | .vsigm _ f => some (f, .sigm)
  | _ => none

/-- Element i of a register turned by VROPE (R212), with its partner in the head of size d. -/
def State.roped (s : State) (f : VOp) (d : Nat) (i : Nat) : Nat :=
  let tok := i / d
  let b := if f.sub.getLsbD 2 then i % (d / 2) else i % d / 2
  let i0 := if f.sub.getLsbD 2 then tok * d + b else tok * d + 2 * b
  let i1 := if f.sub.getLsbD 2 then i0 + d / 2 else i0 + 1
  let phi := mulF (toFp32 (Val.ofInt (s.lane f.vc .n32 tok))) (s.lane f.vb .fp32 b)
  let cs := fp32 (Fn.fp32 .cos phi)
  let sn := fp32 (Fn.fp32 .sin phi)
  let x := fun j => EType.value f.ty (s.lane f.va f.ty j)
  EType.rnd f.ty f.rm (if i = i0 then Val.sub f.rm (Val.mul (x i0) cs) (Val.mul (x i1) sn)
    else Val.add f.rm (Val.mul (x i0) sn) (Val.mul (x i1) cs))

/-- The words of one masked result whose elements are not those of one type, lane by lane: element i where the lane is active (R194, R195,
R212 to R214). -/
def wideWord (s : State) (i : Instr) : Option (VOp × (Nat → Nat)) :=
  match functionOf i with
  | some (f, fn) => some (f, fun n =>
      let x := EType.value (sourceType f) (s.lane f.va (sourceType f) n)
      if f.ty = .fp32 then fn.fp32 (toFp32 x) else EType.rnd f.ty f.rm (fn.exact x))
  | none =>
    match i with
    | .vcvt _ f =>
        let t := sourceType f
        let p := f.sub.toNat / 16 % 4
        some (f, fun n =>
          let conv := fun x => EType.round f.ty f.rm (s.randomFor f n) (EType.value t x)
          if f.ty.lanes ≤ t.lanes then conv (s.lane f.va t (p * f.ty.lanes + n))
          else if p * t.lanes ≤ n ∧ n < p * t.lanes + t.lanes then conv (s.lane f.va t (n - p * t.lanes)) else 0)
    | .vrope _ f => some (f, fun n => s.roped f (32 * 2 ^ (f.sub.toNat % 4)) n)
    | .vsmxNorm _ f => some (f, fun n => mulF (s.lane f.va .fp32 n) (Fn.fp32 .rcp (s.lane f.vb .fp32 1)))
    | .vsmxScale _ f => some (f, fun n => mulF (s.lane f.va .fp32 n) (s.lane f.vb .fp32 2))
    | .vdwc _ f =>
        let d := f.sub.toNat / 16 % 8 + 1
        let x := fun j => if j < f.ty.lanes then s.lane f.va f.ty j else s.lane f.vc f.ty (j - f.ty.lanes)
        let term := fun n t => Val.mul (EType.value f.ty (s.lane f.vb f.ty t)) (EType.value f.ty (x (n + t * d)))
        some (f, fun n => EType.rnd f.ty f.rm
          ((List.range (f.sub.toNat % 16)).foldl (fun acc t => Val.add f.rm acc (term n (t + 1))) (term n 0)))
    | _ => none

/-- VQMX and VQGI: the type of their scales, and the rule that makes a block of 32 values its scale and its elements, with the random bits
of each element (R49, R197, R199). -/
def blockWord : Instr → Option (VOp × EType × ((Nat → Nat × Nat) → List Val → Nat × List Nat))
  | .vqmx _ f => some (f, .n8, fun sr v => mxQuantise f.ty f.rm sr v)
  | .vqgi _ f => some (f, .bf16, fun sr v => quantGroup f.ty f.rm sr v)
  | _ => none

/-- Block j of the source of VQMX and VQGI, with the random bits of its elements' places in the destination. -/
def State.sourceBlock (s : State) (f : VOp) (j : Nat) : List Val :=
  (List.range 32).map (fun k => EType.value (blockType f) (s.lane f.va (blockType f) (32 * j + k)))

/-- The issue point that runs a loop's words. -/
def loopPoint : Engine → Point | .v => .ve | .c => .c | .m => .m

/-- VLOOP, CLOOP and MLOOP. -/
def loopForm : Instr → Option (Engine × Marks × BitVec 3 × BitVec 24)
  | .vloop m st n => some (.v, m, st, n)
  | .cloop m st n => some (.c, m, st, n)
  | .mloop m st n => some (.m, m, st, n)
  | _ => none
/-- VLBRK, CLBRK and MLBRK. -/
def breakForm : Instr → Option (Engine × Marks × BitVec 6)
  | .vlbrk m f => some (.v, m, f)
  | .clbrk m f => some (.c, m, f)
  | .mlbrk m f => some (.m, m, f)
  | _ => none
/-- VEND, CEND and MEND. -/
def endForm : Instr → Option (Engine × Marks)
  | .vend m => some (.v, m)
  | .cend m => some (.c, m)
  | .mend m => some (.m, m)
  | _ => none

/-! C words (R224 to R253, R297 to R313, R407 to R410, R453). -/

/-- A check of a command (R232): its condition, its cause and its value. -/
abbrev Check := Bool × Nat × W64

/-- The first check that fails. -/
def firstFailed (cs : List Check) : Option (Nat × W64) := (cs.find? (fun c => c.1)).map (fun c => c.2)

/-- What a C command names, checks and starts: the maps and slots that it waits for (R231), the queues it pops, its checks in order, the
time to its first completion look, its operation with what it read at issue, the maps it advances, the queues it takes as producer or
consumer, the queue it pops a second time (R299), and the packet that it begins to form, by its key and length (R454). -/
structure CopyForm where
  marks : Marks
  maps : List (BitVec 4) := []
  slots : List Nat := []
  pops : List (BitVec 5) := []
  checks : List Check := []
  lat : Nat
  work : Work
  effs : List Eff := []
  advances : List (BitVec 4) := []
  binds : List (Nat × Option Prod × Option Cons) := []
  second : Option (BitVec 5) := none
  forms : Option (Nat × Nat) := none

def State.mapOf (s : State) (g : BitVec 4) : Rec := s.me.maps.get 0 g.toNat

/-- TCAUSE 0x0B with the map's number (R225, R232). -/
def mapFails (c : Bool) (g : BitVec 4) : Check := (c, 0x0B, g.setWidth 64)

/-- A map in layout coordinates out of step with the active layout (R228, R406). -/
def State.layoutCheck (s : State) (g : BitVec 4) : Check :=
  let r := s.mapOf g
  match s.layoutOf s.focus.bank with
  | none => (mapLayc r, 0x12, 1)
  | some x => (mapLayc r && (List.range 4).any (fun d => mapExt r d != ldExt x d), 0x12, 2)

/-- The checks of a map that is read: valid, and in step with the layout. -/
def State.usable (s : State) (g : BitVec 4) : List Check := [mapFails (!mapValid (s.mapOf g)) g, s.layoutCheck g]

/-- The bounds check (R226). -/
def State.bounded (s : State) (g : BitVec 4) : Check := mapFails (boxFaults (s.mapOf g)) g

/-- A record outside the job's scratchpad range (R234, R246, R310). -/
def State.recordCheck (s : State) (addr : BitVec 13) (n : Nat) : Check :=
  (!s.me.inRange (64 * addr.toNat) n, 0x05, BitVec.ofNat 64 (64 * addr.toNat))

/-- The row indices of CGATH and CSCAT (R239). -/
def State.rowIndices (s : State) (q : BitVec 5) (n : Nat) : List Nat := (List.range n).map (fun i => elemAt (s.me.headOf q.toNat) 32 i)

/-- A row of a map with ZF clear and an element out of bounds (R226, R239). -/
def rowBad (r : Rec) (g1 : Int) : Bool :=
  !mapZf r && (decide (mapPos r 0 < 0) || decide ((mapExt r 0 : Int) < mapPos r 0 + mapBox r 0) ||
    decide (g1 < 0) || decide ((mapExt r 1 : Int) ≤ g1) || decide (mapPos r 2 < 0) || decide ((mapExt r 2 : Int) ≤ mapPos r 2) ||
    decide (mapPos r 3 < 0) || decide ((mapExt r 3 : Int) ≤ mapPos r 3))

/-- The checks of CGATH and CSCAT; `idx` names the map whose rows the indices select. -/
def State.rowsCheck (s : State) (gIdx gRow : BitVec 4) (idx : List Nat) : List Check :=
  let x := s.mapOf gIdx
  let y := s.mapOf gRow
  [mapFails (mapType x != mapType y || mapBox x 0 != mapBox y 0 || decide (mapBox y 1 < idx.length)) gRow,
   mapFails (idx.any (fun (i : Nat) => rowBad x (i : Int))) gIdx,
   mapFails ((List.range idx.length).any (fun (i : Nat) => rowBad y (mapPos y 1 + (i : Int)))) gRow]

/-- The bank a CPEER word names (R243). -/
def State.peerBank (s : State) (core : BitVec 6) (bank : Bool) : Nat :=
  bankDie s.focus.bank * 128 + core.toNat * 2 + (if bank then 1 else 0)

/-- A peer bank of another launch, or with no job, or a side of the queue that is taken (R243). -/
def State.peerCheck (s : State) (q : BitVec 5) (pb : Nat) (taken : Bool) : Check :=
  (!(s.bank pb).live || (s.bank pb).seq != s.me.seq || taken, 0x0B, q.setWidth 64)

/-- CBIND and CSINK need boxes of whole 256-byte elements and a free side of a queue that M does not take (R241, R276). -/
def State.bindCheck (s : State) (g : BitVec 4) (q : BitVec 5) (taken : Bool) : Check :=
  mapFails (boxBytes (s.mapOf g) % 256 != 0 || taken || (s.me.queue q.toNat).cons == .m) g

/-- The conditions of near-bank arithmetic on gD (R299). -/
def State.nearCheck (s : State) (g : BitVec 4) (int : Bool) : List Check :=
  let r := s.mapOf g
  [mapFails (!mapValid r) g,
   mapFails (mapLayc r || mapZc r || mapPgm r || boxBytes r % 256 != 0 ||
     !(mapType r == .fp32 || mapType r == .bf16 || (int && mapType r == .i32))) g,
   ((boxOutside r).isSome, 0x05, BitVec.ofNat 64 ((boxOutside r).getD 0)), s.bounded g]

def leftOf (count : BitVec 24) : Option Nat := if count = 0 then none else some count.toNat

/-- The C commands of R234 to R251, R299 to R301, R310, R311, R409 and R453, but CUNB and CHALO. -/
def copyForm (s : State) : Instr → Option CopyForm
  | .cmap m g addr => some
      { marks := m, maps := [g], checks := [s.recordCheck addr 64], lat := 4, work := .cmap g.toNat (64 * addr.toNat) }
  | .cmapSt m g addr => some
      { marks := m, maps := [g], checks := [mapFails (!mapValid (s.mapOf g)) g, s.recordCheck addr 64], lat := 4,
        work := .cmapSt (64 * addr.toNat) (s.mapOf g) }
  | .cstep m g dim delta => some
      { marks := m, maps := [g],
        checks := s.usable g ++ [mapFails (decide (mapRank (s.mapOf g) ≤ dim.toNat)) g], lat := 0, work := .none,
        effs := [.map g.toNat (setPos (s.mapOf g) dim.toNat (mapPos (s.mapOf g) dim.toNat + delta.toInt))] }
  | .cstepOdo m g => some
      { marks := m, maps := [g], checks := s.usable g, lat := 0, work := .none,
        effs := [.map g.toNat (advanceMap (s.mapOf g))] }
  | .ccopy m gS gD a1 a2 lr => some
      { marks := m, maps := [gS, gD],
        checks := s.usable gS ++ s.usable gD ++
          [mapFails (mapType (s.mapOf gS) != mapType (s.mapOf gD) || boxCount (s.mapOf gS) != boxCount (s.mapOf gD)) gD,
          mapFails (lr && !mapPgm (s.mapOf gS)) gS, s.bounded gS, s.bounded gD],
        lat := moveTime (boxBytes (s.mapOf gS)), work := .copy (s.mapOf gS) (s.mapOf gD) lr,
        advances := (if a1 then [gS] else []) ++ (if a2 then [gD] else []) }
  | .cfill m g imm a => some
      { marks := m, maps := [g],
        checks := s.usable g ++ [mapFails (decide ((mapType (s.mapOf g)).width < 16 ∧ 2 ^ (mapType (s.mapOf g)).width ≤ imm.toNat)) g, s.bounded g],
        lat := moveTime (boxBytes (s.mapOf g)),
        work := .fill (s.mapOf g) (if (mapType (s.mapOf g)).width = 32 then imm.toNat * 2 ^ 16 else imm.toNat),
        advances := if a then [g] else [] }
  | .czc m g a => some
      { marks := m, maps := [g], checks := s.usable g ++ [mapFails (!mapZc (s.mapOf g)) g, s.bounded g],
        lat := moveTime (boxBytes (s.mapOf g)), work := .zc (s.mapOf g), advances := if a then [g] else [] }
  | .cgath m gS gD q nm1 => let idx := s.rowIndices q (nm1.toNat + 1)
      some
      { marks := m, maps := [gS, gD], pops := [q], checks := s.usable gS ++ s.usable gD ++ s.rowsCheck gS gD idx,
        lat := moveTime ((nm1.toNat + 1) * rowBytes (s.mapOf gS)), work := .gather (s.mapOf gS) (s.mapOf gD) idx }
  | .cscat m gS gD q nm1 => let idx := s.rowIndices q (nm1.toNat + 1)
      some
      { marks := m, maps := [gS, gD], pops := [q], checks := s.usable gS ++ s.usable gD ++ s.rowsCheck gD gS idx,
        lat := moveTime ((nm1.toNat + 1) * rowBytes (s.mapOf gS)), work := .scatter (s.mapOf gS) (s.mapOf gD) idx }
  | .cuse m g count dead => some
      { marks := m, maps := [g], checks := s.usable g, lat := moveTime (boxBytes (s.mapOf g)),
        work := .use (s.mapOf g) count.toNat dead }
  | .cpref m g l1 a => some
      { marks := m, maps := [g], checks := s.usable g, lat := moveTime (boxBytes (s.mapOf g)),
        work := .pref (s.mapOf g) l1, advances := if a then [g] else [] }
  | .cbind m g q count => some
      { marks := m, maps := [g],
        checks := s.usable g ++ [s.bindCheck g q ((s.me.queue q.toNat).prod != .none), s.bounded g], lat := 1,
        work := .bind g.toNat q.toNat (leftOf count) 0 (s.mapOf g), binds := [(q.toNat, some .stream, none)] }
  | .csink m g q count => some
      { marks := m, maps := [g],
        checks := s.usable g ++ [s.bindCheck g q ((s.me.queue q.toNat).cons != .none), s.bounded g], lat := 1,
        work := .sink g.toNat q.toNat (leftOf count) 0 (s.mapOf g), binds := [(q.toNat, none, some .sink)] }
  | .cpeerTx m q core bank vP => some
      { marks := m,
        checks := [s.peerCheck q (s.peerBank core bank) ((s.me.queue q.toNat).cons != .none)], lat := 1,
        work := .peer true q.toNat (s.peerBank core bank) vP.toNat false, binds := [(q.toNat, none, some .peer)] }
  | .cpeerRx m q core bank vP => some
      { marks := m,
        checks := [s.peerCheck q (s.peerBank core bank) ((s.me.queue q.toNat).prod != .none)], lat := 1,
        work := .peer false q.toNat (s.peerBank core bank) vP.toNat false, binds := [(q.toNat, some .peer, none)] }
  | .cseqLd m k addr => some
      { marks := m, slots := [k.toNat], checks := [s.recordCheck addr 64], lat := 4,
        work := .seqLd k.toNat (64 * addr.toNat) }
  | .cseqSt m k addr => some
      { marks := m, slots := [k.toNat], checks := [s.recordCheck addr 64], lat := 4,
        work := .seqSt (64 * addr.toNat) (s.me.seqSlots.get 0 k.toNat) }
  | .cseqRope m g q k => some
      { marks := m, maps := [g], slots := [k.toNat], checks := s.usable g, lat := 8,
        work := .seqRope (mapPos (s.mapOf g) 1) (s.me.seqSlots.get 0 k.toNat) q.toNat }
  | .ckv m gA gB k => some
      { marks := m, maps := [gA, gB], slots := [k.toNat],
        checks := s.usable gA ++ [mapFails (decide (mapRank (s.mapOf gA) < 2)) gA], lat := 8,
        work := .kv gB.toNat (s.mapOf gA) (s.me.seqSlots.get 0 k.toNat) }
  | .ckrelPage m g => some
      { marks := m, maps := [g], checks := s.usable g ++ [mapFails (!mapPgm (s.mapOf g)) g], lat := 8,
        work := .relPage (BitVec.ofNat 64 (mapBase (s.mapOf g)) - 64) }
  | .ckrelWin m k => some
      { marks := m, slots := [k.toNat], lat := 8, work := .relWin k.toNat (s.me.seqSlots.get 0 k.toNat) }
  | .ckrelTrunc m q k => let nl := (s.me.headOf q.toNat).toNat % 2 ^ 32
      let d := s.me.seqSlots.get 0 k.toNat
      some
      { marks := m, slots := [k.toNat], pops := [q], checks := [(decide (sqLen d < nl ∨ nl < sqFork d), 0x0B, k.setWidth 64)],
        lat := 8, work := .relTrunc k.toNat d nl }
  | .ckcfgLd m k addr => some
      { marks := m, checks := [s.recordCheck addr 832], lat := 16, work := .ckcfgLd k.toNat (64 * addr.toNat) }
  | .ckcfgClr m k => some
      { marks := m, lat := 4, work := .ckcfgClr k.toNat }
  | .ckgath m g q vV vK k a => some
      { marks := m, maps := [g], pops := [q],
        checks := s.usable g ++ [mapFails (decide (mapRank (s.mapOf g) < 2) || decide (mapPos (s.mapOf g) 1 < 0) || q == vK || q == vV ||
          vK == vV || (s.me.queue vK.toNat).prod != .none || (s.me.queue vV.toNat).prod != .none) g], lat := 8,
        work := .kgath k.toNat none (s.me.headOf q.toNat) (BitVec.ofInt 64 (mapPos (s.mapOf g) 1)) vK.toNat vV.toNat,
        effs := [.unbindProd vK.toNat, .unbindProd vV.toNat], advances := if a then [g] else [],
        binds := [(vK.toNat, some .stream, none), (vV.toNat, some .stream, none)] }
  | .cnbr m g q op a rm sat => some
      { marks := m, maps := [g],
        checks := s.nearCheck g true ++
          [((if (mapType (s.mapOf g)).isFP && op == 0 then rm == .sr else rm != .rne) || (sat && !(mapType (s.mapOf g) == .i32 && op == 0)),
          0x01, wordOf (.cnbr m g q op a rm sat)), mapFails ((s.me.queue q.toNat).cons != .none) g], lat := 8,
        work := .nbr (s.mapOf g) q.toNat op.toNat rm sat 0, effs := [.unbindCons q.toNat], advances := if a then [g] else [],
        binds := [(q.toNat, none, some .sink)] }
  | .cnbu m g q a vec rm =>
      some
      { marks := m, maps := [g], pops := [q],
        checks := s.nearCheck g false ++ [(rm == .sr, 0x01, wordOf (.cnbu m g q a vec rm))], lat := moveTime (boxBytes (s.mapOf g)),
        work := .nbu (s.mapOf g) (s.me.headOf q.toNat)
          (match (s.me.queue q.toNat).slots with | _ :: x :: _ => x.data.getD 0 | _ => 0) vec rm,
        advances := if a then [g] else [], second := if vec then some q else none }
  | .cmsg m g die core bank port =>
      let r := s.mapOf g
      let key := ((die.toNat * 64 + core.toNat) * 2 + (if bank then 1 else 0)) * 8 + port.toNat
      some
      { marks := m, maps := [g],
        checks := [mapFails (!mapValid r) g,
          ((s.outLocal s.focus.bank false (boxRuns r none)).isSome, 0x05, BitVec.ofNat 64 ((s.outLocal s.focus.bank false (boxRuns r none)).getD 0)),
          mapFails (mapLayc r || mapZc r || mapPgm r || decide ((mapType r).width < 8) || decide (4096 < boxBytes r)) g, s.bounded g,
          (!s.diePresent (bankDie s.focus.bank) die.toNat, 0x05, die.setWidth 64)], lat := 8,
        work := .msg r key ((s.die (bankDie s.focus.bank)).pktNext.get 0 (key / 2 ^ 10) % 4096), forms := some (key, boxBytes r) }
  | _ => none

def CopyForm.srcs (f : CopyForm) : List (Nat × Bool) := f.pops.map (fun q => (q.toNat, false))

/-- The command may issue (R174, R175, R231): its WAIT is met, its queues can be read, its maps and slots are free, and fewer than 16
commands are in flight. -/
def State.cIssues (s : State) (f : CopyForm) : Bool :=
  s.eIssues f.marks f.srcs [] && s.me.cReady (f.maps.map (fun g => g.toNat)) f.slots &&
  (match f.second with
   | some q => (match (s.me.queue q.toNat).slots with | _ :: x :: _ => x.data.isSome | _ => false)
   | none => true)

/-- The state in which a command that issued has started its operation. -/
def State.cStarted (s : State) (f : CopyForm) : State :=
  let w := s.eIssued f.marks f.srcs []
  let w := match f.second with
    | some q => w.modBank s.focus.bank (fun k => k.modQueue q.toNat (fun x => x.pop s.cycle))
    | none => w
  let w := match f.forms with
    | some (key, len) => (w.formMessage s.focus.bank key len).2
    | none => w
  let u := (w.startOp f.marks f.lat f.work f.effs).advanceMaps s.me f.advances
  if f.binds.isEmpty then u
  else u.modBank s.focus.bank (fun k =>
    f.binds.foldl (fun k x => k.modQueue x.1 (fun q => { q with prod := x.2.1.getD q.prod, cons := x.2.2.getD q.cons })) k)

/-! M words (R268 to R294). -/

/-- TCAUSE 0x0C with its violation code and tile or slot (R271). -/
def violates (c : Bool) (code n : Nat) : Check := (c, 0x0C, BitVec.ofNat 64 (code + 256 * n))

/-- A map of an M word: valid, plain, of the word's shape, in bounds, and in the local window (R275). -/
def State.localMap (s : State) (g : BitVec 4) (shape : Rec → Bool) : List Check :=
  let r := s.mapOf g
  [mapFails (!mapValid r || mapLayc r || mapZc r || mapPgm r) g, mapFails (!shape r) g, mapFails (boxFaults r) g] ++
    (match s.outside s.focus.bank r with
     | some (c, v) => [(mapValid r, c, v)]
     | none => [])

/-- A box of nr rows of n elements of a type (R276, R286, R292). -/
def isRows (t : EType) (n nr : Nat) (r : Rec) : Bool :=
  mapType r == t && mapBox r 0 == n && mapBox r 1 == nr && mapBox r 2 == 1 && mapBox r 3 == 1

/-- The format-table entry of an MMA (R289). -/
def State.mmaEntry (s : State) (fidx : BitVec 4) : Nat × W64 :=
  let i := if fidx = 15 then s.focus.k % 16 else fidx.toNat
  (i, s.me.fmt.get 0 i)

/-- The job may not name a tile (R171). -/
def State.tileBad (s : State) (tile : BitVec 2) : Bool :=
  match s.me.job with
  | some j => j.paired && tile.toNat / 2 != s.focus.bank % 2
  | none => false

/-- A slot of the bank's own (R263). -/
def State.ownSlot (s : State) (slot : Nat) : Bool := s.slotOwner (bankCluster s.focus.bank) slot == some s.focus.bank

/-- The checks of an M word in order (R271, R273, R275, R276, R279, R284 to R292). -/
def matrixChecks (s : State) : Instr → Option (Marks × List Check)
  | .mlease m => some (m, [violates (s.me.leaseHeld || s.me.ops.any (fun o => o.todo == .mlease)) 2 0])
  | .mrel m => some (m, [violates (!s.me.leaseHeld) 3 0])
  | .mfmt m g => some (m, s.localMap g (fun r => mapType r == .n8 && boxCount r == 128))
  | .mscale m g rows => some (m, s.localMap g (isRows .n8 8 (rows.toNat + 1)))
  | .mbld m g slot off => some (m,
      violates (match s.slotOwner (bankCluster s.focus.bank) slot.toNat with
        | some x => (s.bank x).seq != s.me.seq
        | none => true) 5 slot.toNat ::
      s.localMap g (fun r => boxBytes r % 256 == 0 && decide (256 * off.toNat + boxBytes r ≤ 65536)))
  | .mbsel m slot => some (m, [violates (!s.me.leaseHeld) 1 0, violates (!s.ownSlot slot.toNat) 5 slot.toNat])
  | .mma m tile asrc aq slot prof fidx rows _ _ _ =>
      let (i, e) := s.mmaEntry fidx
      let pf := if fmtPtab e then fmtProf e else prof.toNat
      some (m, [violates (!s.me.leaseHeld) 1 0, violates (s.tileBad tile) 4 tile.toNat, violates (!s.ownSlot slot.toNat) 5 slot.toNat,
        (s.me.fmtErr.contains i, 0x16, BitVec.ofNat 64 (3 + 256 * i)),
        (e == 0, 0x0E, BitVec.ofNat 64 (16 * i)), violates (fmtTwo e && slot.getLsbD 0) 6 slot.toNat,
        (!profAccepts pf e, 0x0E, BitVec.ofNat 64 (pf + 16 * i))] ++
        (if aq then [] else s.localMap asrc (isRows (fmtType (fmtA e)) 256 (rows.toNat + 1))))
  | .mzero m tile _ _ => some (m, [violates (s.tileBad tile) 4 tile.toNat])
  | .mdrain m tile asrc aq gs _ ot rows _ _ _ => some (m, violates (s.tileBad tile) 4 tile.toNat ::
      (if aq then [mapFails (drainMx ot) asrc]
       else s.localMap asrc (isRows ot 256 (rows.toNat + 1)) ++
         (if drainMx ot then s.localMap gs (isRows .n8 8 (rows.toNat + 1)) else [])))
  | _ => none

/-- What an M word waits for before it issues, besides the words in flight (R269, R280). -/
def matrixReady (s : State) : Instr → Bool
  | .mscale .. => !s.me.ops.any (fun o => match o.todo with | .mma _ _ _ _ e _ _ _ _ _ _ => fmtAmx e | _ => false)
  | .mbld _ _ slot _ => !s.loadingSlot s.focus.bank slot.toNat
  | .mbsel _ slot => s.arrayReady slot.toNat (slot.toNat % 2 == 0)
  | .mma _ _ _ _ slot _ fidx _ _ _ _ => s.arrayReady slot.toNat (fmtTwo (s.mmaEntry fidx).2)
  | _ => true

/-- The state an array command issues in: it stands at its issue point first (R268, R269). -/
def arrayState (s : State) : Instr → State
  | .mbsel .. => s.standing
  | .mma .. => s.standing
  | _ => s

/-- Groups of g products from k, each truncated and added in order (R55, R56). -/
def sumGroups (p : Nat → Val) (k g w n acc : Nat) : Nat :=
  (List.range n).foldl (fun acc j => addF acc (groupSum ((List.range g).map (fun i => p (k + j * g + i))) w)) acc

/-- One output element of MMA (R57, R289, R290). -/
def mmaOutput (e : W64) (pf : Nat) (t : TileBytes) (a : Nat → Val) (acc c : Nat) : Nat :=
  let p := fun k => Val.mul (a k) (bVal e t k c)
  let g := profileG pf
  let w := profileW pf
  if fmtInt e then
    (List.range (256 / fmtGw e)).foldl (fun acc q =>
      addF acc (mulF (sumGroups p (q * fmtGw e) (min g (fmtGw e)) w (fmtGw e / min g (fmtGw e)) 0) (weightScale t q c))) acc
  else sumGroups p 0 g w (256 / g) acc

/-- A[r][k] with its block scale (R277, R289). -/
def aValue (e : W64) (row : Nat) (scales : W64) (k : Nat) : Val :=
  let t := fmtType (fmtA e)
  let x := row / 2 ^ (t.width * k) % 2 ^ t.width
  if fmtAmx e then mxValue t (scales.toNat / 2 ^ (8 * (k / 32)) % 256) x else EType.value t x

/-! Operations at work (R18, R166, R206 to R208, R226, R236 to R239, R292). -/

/-- The time of an operation has come: it has nothing to write but what it accesses, nothing earlier keeps it back, and no page and no dense
fallback holds its bank. -/
def State.performs (s : State) (b : Nat) (o : Op) : Bool :=
  (s.bank b).ops.find? (fun x => x.id == o.id) == some o && decide (o.ready ≤ s.cycle) && !s.behindOp b o && !o.parked &&
  o.effs.isEmpty && (s.bank b).held.isEmpty

/-- Every byte of the runs lies in the job's scratchpad range or in shared memory. -/
def State.ownRuns (s : State) (b : Nat) (runs : List (Nat × Loc × Nat)) : Bool :=
  runs.all (fun r => match r.2.1 with
    | .ea a => (decide (a + r.2.2 ≤ 0x80000) && (s.bank b).inRange a r.2.2) || (decide (0x400000 ≤ a) && decide (a + r.2.2 ≤ 0x800000))
    | .die .. => false)

/-- No 8-byte word of the runs carries a poison marker. -/
def State.cleanRuns (s : State) (b : Nat) (runs : List (Nat × Loc × Nat)) : Prop :=
  ∀ u x, runsHold b runs u x → (s.memAt u).marked x 1 = false

/-- Byte j of the stream that runs make of the memories they lie in: each run has its place in the stream, its address and its length.
Between runs the stream holds 0 (R226). -/
def State.streamByte (s : State) (b : Nat) (runs : List (Nat × Loc × Nat)) (j : Nat) : Byte :=
  match runs.find? (fun r => decide (r.1 ≤ j) && decide (j < r.1 + r.2.2)) with
  | some (so, .ea a, _) => (match localPlace b (a + (j - so)) with | some (u, x) => s.peek u x | none => 0)
  | _ => 0

/-- The byte that writes of a stream f to runs, in order, leave where `old` was. -/
def written (b : Nat) (f : Nat → Byte) (runs : List (Nat × Loc × Nat)) (u : Store) (x : Nat) (old : Byte) : Byte :=
  runs.foldl (fun v r => match r.2.1 with
    | .ea a => (match (List.range r.2.2).find? (fun i => localPlace b (a + i) == some (u, x)) with
        | some i => f (r.1 + i)
        | none => v)
    | .die .. => v) old

/-- Byte j of a register. -/
def elemByte (e : Elem) (j : Nat) : Byte := e.extractLsb' (8 * j) 8
/-- Byte j of elements of w bits that are all `pat` (R237). -/
def fillByte (w pat j : Nat) : Byte :=
  BitVec.ofNat 8 ((List.range 8).foldl (fun v i => v + (if pat.testBit ((8 * j + i) % w) then 2 ^ i else 0)) 0)

/-- Four bytes for each lane of a gather or scatter (R208). -/
def laneRuns (eas : List Nat) : List (Nat × Loc × Nat) := (eas.zipIdx).map (fun p => (4 * p.2, .ea p.1, 4))

/-- VLD and VGATH: the runs they read, and the slot that they fill. -/
def loadOf : Work → Option (List (Nat × Loc × Nat) × Nat × Nat)
  | .vld ea q slot => some ([(0, .ea ea, 256)], q, slot)
  | .vgath eas q slot => some (laneRuns eas, q, slot)
  | _ => none

/-- VST, VSCAT and CFILL: the runs they write, and the bytes. -/
def storeOf (o : Op) : Option (List (Nat × Loc × Nat) × (Nat → Byte)) :=
  match o.todo with
  | .vst ea d => some ([(0, .ea ea, 256)], elemByte d)
  | .vscat eas d => some (laneRuns eas, elemByte d)
  | .fill d pat => if mapZc d then none else some (boxRuns d o.lay, fillByte (mapType d).width pat)
  | _ => none

/-- CCOPY, CGATH and CSCAT: their maps, the runs they read and the runs they write. -/
def moveOf (o : Op) : Option (Rec × Rec × List (Nat × Loc × Nat) × List (Nat × Loc × Nat)) :=
  match o.todo with
  | .copy r d false => some (r, d, boxRuns r o.lay, boxRuns d o.lay)
  | .gather r d idx => some (r, d, indexedRuns r o.lay idx, orderedRuns d o.lay idx.length)
  | .scatter r d idx => some (r, d, orderedRuns r o.lay idx.length, indexedRuns d o.lay idx)
  | _ => none

/-- The accesses of an operation that only writes or moves, whatever they reach, and what stops them. -/
def State.accessOf (s : State) (b : Nat) (o : Op) : Option (State × Option Stop) :=
  match o.todo with
  | .vst ea d => some (s.engWrite b ea 256 d.toNat false false)
  | .fill d pat => some (s.boxWrite b d o.lay (packElems (mapType d).width ((List.range (boxCount d)).map (fun _ => pat))))
  | .copy r d false => some (s.moveRuns b r d (boxRuns r o.lay) (boxRuns d o.lay) (boxBytes r))
  | .gather r d idx =>
      some (s.moveRuns b r d (indexedRuns r o.lay idx) (orderedRuns d o.lay idx.length) (idx.length * rowBytes r))
  | .scatter r d idx =>
      some (s.moveRuns b r d (orderedRuns r o.lay idx.length) (indexedRuns d o.lay idx) (idx.length * rowBytes r))
  | _ => none

/-! Whole-machine conditions. -/

/-- Every memory of the machine is in its canonical form. -/
def State.memWf (s : State) : Bool :=
  s.hostMem.wf && s.cores.all (fun p => p.2.sp.wf) && s.clusters.all (fun p => p.2.shm.wf) && s.dies.all (fun p => p.2.hbm.wf)

/-- The engine space of a V, C or M word. -/
def engineSpace (i : Instr) : Option Space :=
  match encode i with
  | some (.s, _) => none
  | some (sp, _) => some sp
  | none => none

/-- The control words that an issue point of an engine moves: rings, loop words, MSTAT and HSTAT (R25, R180, R222, R254, R296, R410). -/
def engineControl (c : Nat) : Bool := (decide (0x030 ≤ c) && decide (c ≤ 0x032)) || (decide (0x058 ≤ c) && decide (c ≤ 0x05F)) || c == cwHSTAT

end Sys2Proof.Machine
end

