-- ==== Sys2Proof/Certificates/Slice0/Obligations.lean ====
section
/-! DEFINITION. The statements for the provers. A statement that covers several instructions of one kind is the conjunction of
its parts, which stand before it. -/

open Sys2Proof Sys2Proof.Machine

/-! Encoding (03_encoding.md). -/

/-- R70, R77, R79, R80, R81: words written out bit by bit, one or more of each space, decode to what they stand for: the manual's own
examples (R100, R101, R130, R144, R156), and words of the V, C and M spaces. -/
def Obligations.WrittenWordsDecode : Prop :=
  decode .s 0x00001F2410830000 = .ok (.sel ⟨0, 0⟩ 9 1 2 3) ∧
  decode .s 0x00002920089ABCDE = .ok (.li ⟨0, 0⟩ 8 0x89ABCDE) ∧
  decode .s 0x0000420C4BFFFFFB = .ok (.blt ⟨0, 0⟩ 3 4 true false (-5)) ∧
  decode .s 0x00003300_70000000 = .ok (.chk ⟨0, 0⟩ 7) ∧
  decode .s 0x000060000000002A = .ok (.trap ⟨0, 0⟩ 0x2A) ∧
  decode .s 0x00004C0050008004 = .ok (.loop ⟨0, 0⟩ 5 2 4) ∧
  decode .v 0x00007000_00000003 = .ok (.vloop ⟨0, 0⟩ 0 3) ∧
  decode .v 0x0000541800000003 = .ok (.vqcfg ⟨0, 0⟩ 3 3) ∧
  decode .c 0x0000012000000011 = .ok (.cmap ⟨0, 0⟩ 2 0x11) ∧
  decode .m 0x0000010000000000 = .ok (.mlease ⟨0, 0⟩) ∧
  decode .s 0x0000003000000001 = .error .reservedBits ∧
  decode .s 0x00007F0000000000 = .error .unassignedOpcode

/-- R70, R77: every well-formed S word's encoding decodes to it, with every operand. -/
def Obligations.ScalarWordsRoundTrip : Prop :=
  ∀ (i : Instr) (w : W64), i.wellFormed = true → encode i = some (.s, w) → decode .s w = .ok i

/-- R70, R79: the same of every V word. -/
def Parts.VectorWordsRoundTrip : Prop :=
  ∀ (i : Instr) (w : W64), i.wellFormed = true → encode i = some (.v, w) → decode .v w = .ok i

/-- R70, R80: the same of every C word. -/
def Parts.CopyWordsRoundTrip : Prop :=
  ∀ (i : Instr) (w : W64), i.wellFormed = true → encode i = some (.c, w) → decode .c w = .ok i

/-- R70, R81: the same of every M word. -/
def Parts.MatrixWordsRoundTrip : Prop :=
  ∀ (i : Instr) (w : W64), i.wellFormed = true → encode i = some (.m, w) → decode .m w = .ok i

/-- R70, R77 to R88: every well-formed V, C and M word decodes, in its own space, to the instruction it encodes. -/
def Obligations.EngineWordsRoundTrip : Prop := Parts.VectorWordsRoundTrip ∧ Parts.CopyWordsRoundTrip ∧ Parts.MatrixWordsRoundTrip

/-- R8, R71, R72: a word that decodes is well formed and is the one word of its instruction, so that no reserved bit is set in it,
and no two words of a space mean the same. -/
def Obligations.DecodedWordIsTheEncoding : Prop :=
  ∀ (sp : Space) (w : W64) (i : Instr), decode sp w = .ok i → i.wellFormed = true ∧ encode i = some (sp, w)

/-! One step. -/

/-- R13, R14, R26, R115, R148: at the turn of S of a bank that may issue, with nothing fetched ahead and no nullified word, the word at
the program counter is decoded and run, at that bank, in the state its fetch leaves; but RDQ waits for the execute side's turn of the
cycle. -/
def Parts.StepRunsScalarWord : Prop :=
  ∀ (s s1 : State) (b : Nat) (rest : List Turn) (w : W64) (i : Instr),
    s.agenda = .issue b .s :: rest →
    State.sReady { s with agenda := rest } b = true →
    (s.bank b).nullified = false → (s.bank b).fetched = [] →
    State.fetchWord { s with agenda := rest } b (s.bank b).pc = (s1, .word w false) →
    decode .s w = .ok i →
    ((∀ m d q c pop, i = .rdq m d q c pop → (s.bank b).veBefore s1.cycle = false) →
      step s = exec i { s1 with focus := ⟨b, .s, 0, 0⟩ }) ∧
    ((∃ m d q c pop, i = .rdq m d q c pop) → (s.bank b).veBefore s1.cycle = true → step s = .next { s1 with focus := ⟨b, .s, 0, 0⟩ })

/-- R13, R26, R178: at the turn of a ring issue point outside a loop that may issue, the word at its position, when it is a word of
its side, is decoded in its engine's space and run. -/
def Parts.StepRunsRingWord : Prop :=
  ∀ (s : State) (b : Nat) (p : Point) (rest : List Turn) (w : W64) (i : Instr),
    s.agenda = .issue b p :: rest → p ≠ .s →
    s.eReady b p = true → s.pointFree b p = true → (s.bank b).engLoop (Point.engine p) = none →
    (p = .va → (s.bank b).vaDyn ≤ (s.bank b).veDyn + 32) →
    s.fetchable b p ≠ 0 →
    s.ringWord b p ((s.bank b).pointPos p) = (w, false) →
    (p = .va → isAccess w = true) → (p = .ve → isAccess w = false) →
    decode p.space w = .ok i →
    step s = exec i { (State.takesTurn { s with agenda := rest } b p) with focus := ⟨b, p, (s.bank b).pointPos p, 0⟩ }

/-- R13, R138, R178, R219: the same inside a ring loop, at a position of its body: the word is run in a live segment, with the index of its
iteration, and passed over in an inactive one. -/
def Parts.StepRunsLoopWord : Prop :=
  ∀ (s : State) (b : Nat) (p : Point) (rest : List Turn) (w : W64) (l : RLoop) (seg : Nat),
    let n2 := 2 * ringN ((s.bank b).ring (Point.engine p))
    let pos := (s.bank b).pointPos p
    let u := State.takesTurn { s with agenda := rest } b p
    s.agenda = .issue b p :: rest → p ≠ .s →
    s.eReady b p = true → s.pointFree b p = true → (s.bank b).engLoop (Point.engine p) = some l → l.ended ≠ some (l.passOf p) →
    (p = .va → (s.bank b).vaDyn ≤ (s.bank b).veDyn + 32 ∧ pos ≠ l.loopPos) → pos ≠ (l.loopPos + l.body + 1) % n2 →
    s.fetchable b p ≠ 0 → l.segment pos n2 = some seg → s.ringWord b p pos = (w, false) →
    (p = .va → isAccess w = true) → (p = .ve → isAccess w = false) →
    (∀ i, (l.mask (l.passOf p)).testBit seg = true → decode p.space w = .ok i →
      step s = exec i { u with focus := ⟨b, p, pos, l.k0 + l.passOf p - 1 - seg⟩ }) ∧
    ((l.mask (l.passOf p)).testBit seg = false → step s = .next ((u.useCycle b p).modBank b (fun k => k.advE p)))

/-- The model's own agenda (log 15): an event's turn is the meaning of its row, the plan turn adds the second half of its cycle, and an
empty agenda begins the next cycle: the time and the agenda move on, inputs that are due leave, the functions that a die has brought up
become usable, every bank keeps its registers, control words, flags, pc, queues and operations, and everything else is as it was. -/
def Parts.StepTakesTheAgenda : Prop :=
  (∀ (s : State) (e : Event) (rest : List Turn), s.agenda = .event e :: rest → step s = runEvent e { s with agenda := rest }) ∧
  (∀ (s : State) (rest : List Turn), s.agenda = .plan :: rest → step s = .next { s with agenda := s.secondHalf ++ rest }) ∧
  (∀ (s : State), s.agenda = [] → ∃ t, step s = .next t ∧ t.cycle = s.cycle + 1 ∧ t.ft = s.ft + 1 ∧
    (∀ u a, t.peek u a = s.peek u a) ∧
    t = { s with cycle := t.cycle, ft := t.ft, agenda := t.agenda, inputs := t.inputs, banks := t.banks, dies := t.dies } ∧
    (∀ d, (t.die d).ready = (s.die d).ready ||| (s.die d).rising ∧
      t.die d = { s.die d with ready := (t.die d).ready, rising := 0 }) ∧
    (∀ x ∈ t.inputs, x ∈ s.inputs ∧ t.cycle < x.1) ∧
    (∀ b, (t.bank b).sregs = (s.bank b).sregs ∧ (t.bank b).ctl = (s.bank b).ctl ∧ (t.bank b).flags = (s.bank b).flags ∧
      (t.bank b).pc = (s.bank b).pc ∧ (t.bank b).queues = (s.bank b).queues ∧ (t.bank b).ops = (s.bank b).ops))

/-- A step runs the instruction its word decodes to: for S at the program counter, for a ring engine at its position, in a loop too; a
step with another turn takes that turn. -/
def Obligations.StepRunsTheDecodedWord : Prop :=
  Parts.StepRunsScalarWord ∧ Parts.StepRunsRingWord ∧ Parts.StepRunsLoopWord ∧ Parts.StepTakesTheAgenda

/-! S words. -/

/-- R89, R90, R92, R94, R100, R101: ADD to SEL and ADDI to INSR issue on every operand, and their result is pending with its bound and the
OR of the poison bits read. -/
def Obligations.ScalarArithmeticResults : Prop :=
  ∀ (s : State) (i : Instr) (f : AluForm), aluForm i = some f → s.sIssues f.marks = true →
    exec i s = .next ((s.sIssued f.marks).resultS f.marks f.d (f.val (f.srcs.map (s.sIssued f.marks).reg))
      (f.srcs.any (fun r => (s.sIssued f.marks).sBad s.focus.bank r.toNat)) f.lam)

/-- R15, R16, R24: the pure synchronisation words NOP, VNOP, CNOP and MNOP, when their WAIT lets them issue, do nothing but consume, signal
and move on; MNOP, like every M word, waits while four M words are in flight or one holds issue. -/
def Obligations.SynchronisationWords : Prop :=
  (∀ (s : State) (m : Marks), s.sIssues m = true → exec (.nop m) s = .next ((s.sIssued m).doneS m)) ∧
  (∀ (s : State) (m : Marks), s.eIssues m [] [] = true →
    exec (.vnop m) s = .next ((s.eIssued m [] []).doneE m) ∧ exec (.cnop m) s = .next ((s.eIssued m [] []).doneE m) ∧
    (s.me.mReady = true → exec (.mnop m) s = .next ((s.eIssued m [] []).doneE m)))

/-- R15, R20, R23: an S integer word whose WAIT is not met stays where it is, with no consume and no increment: its bank notes the
waiting word, and nothing else changes. -/
def Parts.UnmetWaitHoldsTheWord : Prop :=
  ∀ (s : State) (i : Instr) (f : AluForm), aluForm i = some f → s.sIssues f.marks = false →
    ∃ ws : List Waiter, exec i s = .next (s.setBank s.focus.bank { s.me with waiters := ws }) ∧
      (∀ x ∈ s.me.waiters, x.point ≠ .s → x ∈ ws) ∧
      (s.me.judgedAt s.cycle .s = false → ∃ w ∈ ws, w.point = .s ∧ w.flag = sigFlag f.marks.wait ∧ w.mode = sigMode f.marks.wait)

/-- R130, R131, R133: a branch whose operands are clean is taken by its table's condition; its target is the word's own address and 8
times the displacement. -/
def Parts.BranchesFollowTheirConditions : Prop :=
  ∀ (s : State) (i : Instr) (f : BranchForm), branchForm i = some f → s.sIssues f.marks = true →
    s.me.targets.length ≠ 2 → s.me.loopAct = false → s.clean f.regs = true →
    exec i s = .next ((s.sIssued f.marks).branchDone f.marks (f.taken (s.sIssued f.marks)) f.nul (s.here + 8 * f.disp))

/-- R131: JL, JR and JLR go to their targets; the link A + 24 is pending for 1 cycle unless its register is 0. -/
def Parts.JumpsWriteTheirLinks : Prop :=
  ∀ (s : State) (i : Instr) (f : JumpForm), jumpForm i = some f → s.sIssues f.marks = true →
    s.me.targets.length ≠ 2 → s.me.loopAct = false → s.clean f.regs = true →
    (∀ r ∈ f.regs, (s.reg r).toNat % 8 = 0) →
    let u := s.sIssued f.marks
    exec i s = .next (if f.link = 0 then u.branchDone f.marks true false (f.target s)
      else u.pendS f.marks (.reg f.link.toNat) (s.here + 24) false 1 (some (f.target s)))

/-- R134, R139: a branch or jump with two targets pending, or in an S loop, traps with TCAUSE 0x01 and its word. -/
def Parts.JumpsTrapInSlotsAndLoops : Prop :=
  ∀ (s : State) (i : Instr) (m : Marks) (sp : Space) (w : W64), jumpMarks i = some m → encode i = some (sp, w) → s.sIssues m = true →
    s.me.targets.length = 2 ∨ s.me.loopAct = true → exec i s = .next (s.trapS s.focus.bank ⟨0x01, w⟩)

/-- R131: JR and JLR to a target that is not a multiple of 8 trap with TCAUSE 0x04 and the target. -/
def Parts.JumpsTrapOnMisalignedTargets : Prop :=
  ∀ (s : State) (i : Instr) (f : JumpForm) (r : SReg), jumpForm i = some f → r ∈ f.regs → s.sIssues f.marks = true →
    s.me.targets.length ≠ 2 → s.me.loopAct = false → s.clean f.regs = true → (s.reg r).toNat % 8 ≠ 0 →
    exec i s = .next (s.trapS s.focus.bank ⟨0x04, s.reg r⟩)

/-- R130, R131, R133, R134, R139: branches and jumps: what they schedule, what they link, and where they trap. -/
def Obligations.BranchesAndJumps : Prop :=
  Parts.BranchesFollowTheirConditions ∧ Parts.JumpsWriteTheirLinks ∧ Parts.JumpsTrapInSlotsAndLoops ∧ Parts.JumpsTrapOnMisalignedTargets

/-- R132, R133, R142: the step of an S word that leaves issue, outside an S loop. A taken target counts two words: after two more
words the next is the target's. A word behind an older target keeps that target's order. -/
def Obligations.DelaySlotsCountTwoWords : Prop :=
  ∀ (k : Bank) (a b : W64), k.sloop = none → k.targets = [] →
    (k.advance none).pc = k.pc + 8 ∧ (k.advance none).targets = [] ∧
    (k.advance (some a)).pc = k.pc + 8 ∧ ((k.advance (some a)).advance none).pc = k.pc + 16 ∧
    (((k.advance (some a)).advance none).advance none).pc = a ∧
    (((k.advance (some a)).advance none).advance none).targets = [] ∧
    -- two branches in a row: one word of the first target's, then the second's
    (((k.advance (some a)).advance (some b)).advance none).pc = a ∧
    ((((k.advance (some a)).advance (some b)).advance none).advance none).pc = b

/-- R136: SETP writes its predicate from its condition within 1 cycle; conditions 6 and 7 read no register. -/
def Obligations.SetpWritesItsPredicate : Prop :=
  ∀ (s : State) (m : Marks) (p c : BitVec 3) (a b : SReg), s.sIssues m = true →
    (c.toNat < 6 → s.clean [a, b] = true) →
    let x := (s.sIssued m).reg a
    let y := (s.sIssued m).reg b
    let v := match c.toNat with
      | 0 => x == y
      | 1 => x != y
      | 2 => decide (x.toInt < y.toInt)
      | 3 => decide (y.toInt ≤ x.toInt)
      | 4 => decide (x.toNat < y.toNat)
      | 5 => decide (y.toNat ≤ x.toNat)
      | 6 => true
      | _ => false
    exec (.setp m p a b c) s = .next ((s.sIssued m).pendS m (.pred p.toNat v) 0 false 1 none)

/-- R137, R138, R142: LOOP of N iterations, N from its register, or from LOOPC.ITER with LSTAT.PRE set, when the register is not read. N at
least 1 enters the body with N - 1 iterations left and stage 0 alone live; N = 0 goes on behind the body. With a pre-emption waiting
outside trap state, a loop of N at least 1 stays at its word with N iterations left and PRE set. -/
def Parts.LoopEntersItsBody : Prop :=
  ∀ (s : State) (m : Marks) (a : SReg) (stages : BitVec 3) (seglen : BitVec 14), s.sIssues m = true → s.me.targets = [] →
    s.me.loopAct = false →
    let pre := (s.me.cw cwLSTAT).getLsbD 2
    let waiting := s.me.preempt && !s.me.ts
    (pre = false → s.clean [a] = true) →
    let n := if pre then (s.me.cw cwLOOPC).toNat % 2 ^ 32 else ((s.sIssued m).reg a).toNat % 2 ^ 32
    ∃ t, exec (.loop m a stages seglen) s = .next t ∧ s.onlyBank t s.focus.bank ∧ t.me.targets = [] ∧
      (n ≠ 0 → waiting = true → t.me.pc = s.here ∧ t.me.loopAct = false ∧ t.me.sloop = none ∧
        (t.me.cw cwLSTAT).getLsbD 2 = true ∧ fld (t.me.cw cwLOOPC) 0 32 = n) ∧
      (n ≠ 0 → waiting = false → t.me.pc = s.here + 8 ∧ t.me.loopAct = true ∧ fld (t.me.cw cwLOOPC) 0 32 = n - 1 ∧ fld (t.me.cw cwLSTAT) 6 8 = 1 ∧
        t.me.preds.getLsbD 0 = true ∧
        (∀ k, stages.toNat < k → k < 8 → t.me.preds.getLsbD k = s.me.preds.getLsbD k)) ∧
      (n = 0 → t.me.pc = s.here + BitVec.ofNat 64 (8 + 8 * (stages.toNat + 1) * seglen.toNat) ∧ t.me.loopAct = false ∧
        t.me.sloop = none)

/-- R140: LBRK inside an S loop, taken when x = y, stops stage 0 from the next boundary, sets BRK and names the exit; otherwise it
does nothing. -/
def Parts.LoopBreak : Prop :=
  ∀ (s : State) (m : Marks) (a b : SReg) (zero : Bool) (disp : BitVec 26) (l : SLoop), s.sIssues m = true →
    s.me.targets.length ≠ 2 → s.me.loopAct = true → s.me.sloop = some l → s.clean (if zero then [a] else [a, b]) = true →
    let u := s.sIssued m
    exec (.lbrk m a b zero disp) s = .next
      ((if u.reg a = (if zero then 0 else u.reg b) then
          u.modBank s.focus.bank (fun x => { (x.putCw cwLSTAT 1 1 1) with
            sloop := some { l with stop := true, target := some (s.here + 8 * disp.signExtend 64) } })
        else u).doneS m)

/-- R137, R138, R140, R142: LOOP and LBRK. -/
def Obligations.ScalarLoops : Prop := Parts.LoopEntersItsBody ∧ Parts.LoopBreak

/-- R23, R90, R144, R145: a poisoned register, used where poison is a fault, traps with TCAUSE 0x03 and the lowest-numbered such register;
the word makes no consume and no increment. -/
def Obligations.PoisonedOperandsTrap : Prop :=
  ∀ (s : State) (i : Instr) (m : Marks) (rs : List SReg) (ok : State → Bool) (r : SReg),
    poisonForm i = some (m, rs, ok) → s.sIssues m = true → ok s = true → s.firstBad rs r →
    exec i s = .next (s.trapS s.focus.bank ⟨0x03, r.setWidth 64⟩)

/-- R144: CHK of a register that is not poisoned completes at issue and changes nothing, and of a poisoned one traps; a pending result's
poison is undefined (R92). CHK s7 encodes as 0x0000_3300_7000_0000, and a word of opcode 0x33 with a reserved field set is illegal. -/
def Obligations.CheckedRegister : Prop :=
  (∀ (s : State) (m : Marks) (a : SReg), s.sIssues m = true →
    (s.clean [a] = true → exec (.chk m a) s = .next ((s.sIssued m).doneS m)) ∧
    (s.clean [a] = false → exec (.chk m a) s = .next (s.trapS s.focus.bank ⟨0x03, a.setWidth 64⟩))) ∧
  (∀ (s : State) (a : SReg), a ≠ 0 → s.me.pendingReg a.toNat = true → s.clean [a] = !s.freeBit a.toNat) ∧
  encode (.chk ⟨0, 0⟩ 7) = some (.s, 0x0000330070000000) ∧
  (∀ w : W64, w.toNat / 2 ^ 40 % 256 = 0x33 → w.toNat / 2 ^ 34 % 64 ≠ 0 ∨ w.toNat % 2 ^ 28 ≠ 0 → ∃ e, decode .s w = .error e)

/-- R147 steps 2 and 4 to 6: what taking a request saves and where it goes. Every result has landed; the view, the trap state and the
pending targets are saved, as word addresses of 48 bits (R153); fetch goes to TVEC, 4 cycles on at the earliest. WD is set where the word
at EPC has issued and still waits, or has been let skip its WAIT (R23). Nothing outside the bank changes but a stalled
MBOX's place. -/
def Obligations.RequestEntersTheHandler : Prop :=
  ∀ (s : State) (b : Nat) (t : Trap) (epc : W64), (s.bank b).targets.length ≤ 2 → t.cause ≠ 0x05 →
    let k := s.bank b
    let u := s.takeRequest b t epc
    let k' := u.bank b
    k'.cw cwTCAUSE = BitVec.ofNat 64 t.cause ∧ k'.cw cwTVAL = t.tval ∧ k'.cw cwEPC = wordAddr epc ∧
    k'.cw cwEPEND0 = (match k.targets with | x :: _ => wordAddr x.addr | [] => 0) ∧
    k'.cw cwEPEND1 = (match k.targets with | _ :: x :: _ => wordAddr x.addr | _ => 0) ∧
    fld (k'.cw cwESTAT) 16 2 = k.targets.length ∧ (k'.cw cwESTAT).getLsbD 20 = (k.resumable || k.skipWait) ∧
    (∀ i, i < 4 → (k'.cw cwESTAT).getLsbD i = (k.cw cwSTAT).getLsbD i) ∧
    k'.sv = true ∧ k'.ts = true ∧ k'.eie = false ∧ k'.ftl = k.ftl ∧
    k'.targets = [] ∧ k'.pc = k.cw cwTVEC ∧ k'.blocked = none ∧ k'.nextIssue.get 0 0 = s.cycle + 4 ∧
    k'.pend.all (fun p => p.landed) = true ∧ k'.stopped = k.stopped ∧ k'.ops = k.ops ∧ k'.queues = k.queues ∧ k'.maps = k.maps ∧
    (∀ x, x ≠ b → u.bank x = s.bank x) ∧ (∀ v a, u.peek v a = s.peek v a) ∧
    (∀ c, u.cluster c = { s.cluster c with mailWait := (u.cluster c).mailWait }) ∧
    u = { s with banks := u.banks, clusters := u.clusters }

/-- R156: TRAP, in either view and in delay slots, makes its step of R132 and takes TCAUSE 0x14 at the word that follows it, with
ZeroExtend(imm); while an access of S waits for its page, which lands first (R147), it waits. It encodes as the manual says, and a word of
opcode 0x60 with its d or a field set is illegal. -/
def Obligations.SoftwareTrap : Prop :=
  (∀ (s : State) (m : Marks) (imm : BitVec 28), s.sIssues m = true →
    let u := (s.sIssued m).doneS m
    (s.me.unperformed = false → exec (.trap m imm) s = .next (u.takeRequest s.focus.bank ⟨0x14, imm.setWidth 64⟩ u.me.pc)) ∧
    (s.me.unperformed = true →
      ∃ k, exec (.trap m imm) s = .next (s.setBank s.focus.bank k) ∧ k = { s.me with waiters := k.waiters, nextIssue := k.nextIssue })) ∧
  encode (.trap ⟨0, 0⟩ 0x2A) = some (.s, 0x000060000000002A) ∧
  (∀ w : W64, w.toNat / 2 ^ 40 % 256 = 0x60 → w.toNat / 2 ^ 28 % 2 ^ 12 ≠ 0 → ∃ e, decode .s w = .error e)

/-- R146, R390, R391: the first fault of S freezes its job: its cause and value, the cycle, MSTAT and CYCLE.COUNT as they stood are kept,
and nothing else changes. -/
def Parts.FaultFreezesTheJob : Prop :=
  ∀ (s : State) (b : Nat) (t : Trap), isRequest t.cause = false → (s.bank b).freeze = none →
    s.trapS b t = s.setBank b { s.bank b with
      freeze := some ⟨some .s, t.cause, t.tval, 0, [], s.cycle, s.mstat b, s.cycle - (s.die (bankDie b)).born, 0⟩ }

/-- R146, R147, R390, R391: the freeze of a fault of S. While an operation that can end is in flight it stays; with nothing in flight the
record is written whole at FAREA, and S takes its trap there, with its cause, its value and the pc as it stood. 0x05 is fatal. No
other byte of any memory and no other bank changes. -/
def Parts.FreezeEndsInTheTrap : Prop :=
  ∀ (s : State) (b : Nat) (fr : Freeze), (s.bank b).freeze = some fr → fr.point = some .s → fr.more = [] → (s.bank b).nullS = 0 →
    (s.bank b).blocked = none →
    let k := s.bank b
    (k.settled = false → exec (.compositeRecordWrite b) s = .next s) ∧
    (k.settled = true → ∃ u, exec (.compositeRecordWrite b) s = .next u ∧
      (u.bank b).freeze = none ∧ (u.bank b).stopped = true ∧ (u.bank b).cw cwTCAUSE = BitVec.ofNat 64 fr.cause ∧
      (u.bank b).cw cwTVAL = fr.value ∧ (u.bank b).cw cwEPC = wordAddr k.pc ∧ (u.bank b).pc = k.cw cwTVEC ∧
      (u.bank b).sv = true ∧ (u.bank b).ts = true ∧ (u.bank b).eie = false ∧
      (u.bank b).ftl = (decide (fr.cause = 0x05) || k.ftl) ∧ (u.bank b).targets = [] ∧
      (∀ x, x ≠ b → u.bank x = s.bank x) ∧
      ((s.core (bankCore b)).sp.wf = true →
        let area := fld (k.cw cwFAREA) 8 11 * 256
        let image := ((s.dropStall b).modBank b (fun k => k.landAll s.cycle)).record b fr
        ∀ v a, u.peek v a = if v = .scratchpad (bankCore b) ∧ area ≤ a ∧ a < area + 256 then BitVec.ofNat 8 (image / 256 ^ (a - area))
          else s.peek v a))

/-- R146, R147, R390, R391: what a fault of S does to its job, what its trap saves, and the only bytes it writes. -/
def Obligations.FaultsStopTheJob : Prop := Parts.FaultFreezesTheJob ∧ Parts.FreezeEndsInTheTrap

/-- R121, R122, R128, R157, R449, R459: TRET, RASAVE, RALOAD and EVT of class 1 in the job view, GETC, SETC, SETB and CLRB of a control
word that the view or the core does not give, and FPOST and MBRD off the master core raise TCAUSE 0x02 with the word. That SETC, SETB,
CLRB and EVT do so with a poisoned source too is the model's choice (log 72). -/
def Obligations.PrivilegedWordsTrap : Prop :=
  ∀ (s : State) (m : Marks) (a d : SReg) (cw : BitVec 12) (w : W64), s.sIssues m = true →
    (∀ i, (i = .tret m ∨ i = .rasave m a ∨ i = .raload m a ∨ i = .evt m a 1) → s.me.sv = false → encode i = some (.s, w) →
      exec i s = .next (s.trapS s.focus.bank ⟨0x02, w⟩)) ∧
    (s.cwForbidden s.focus.bank cw.toNat false = true → encode (.getc m d cw) = some (.s, w) →
      exec (.getc m d cw) s = .next (s.trapS s.focus.bank ⟨0x02, w⟩)) ∧
    (∀ i, (i = .setc m a cw ∨ i = .setb m a cw ∨ i = .clrb m a cw) → s.cwForbidden s.focus.bank cw.toNat true = true →
      encode i = some (.s, w) → exec i s = .next (s.trapS s.focus.bank ⟨0x02, w⟩)) ∧
    (∀ i, (i = .fpost m d a ∨ ∃ x, i = .mbrd m d x) → s.isMaster s.focus.bank = false → encode i = some (.s, w) →
      exec i s = .next (s.trapS s.focus.bank ⟨0x02, w⟩))

/-- R157, R387, R396: TRET in trap state with a sound ESTAT and no fatal cause restores the view, the pending targets and the pc, and
releases the streams; that of a pre-empted bank waits for the save, and with FTL set the job is killed, with TCAUSE as its exit code (the
model's reading of R157 with R387 and R396, log 25). TRET waits for the pending
results. A state that no trap saves is TCAUSE 0x0B, and TRET outside trap state or in a slot is TCAUSE 0x01. -/
def Obligations.ReturnFromTrap : Prop :=
  ∀ (s : State) (m : Marks), s.sIssues m = true → s.me.sv = true →
    let e := s.me.cw cwESTAT
    (s.me.ts = false ∨ s.me.targets ≠ [] → ∀ w, encode (.tret m) = some (.s, w) →
      exec (.tret m) s = .next (s.trapS s.focus.bank ⟨0x01, w⟩)) ∧
    (s.me.ts = true → s.me.targets = [] →
      (badEstat e = true → exec (.tret m) s = .next (s.trapS s.focus.bank ⟨0x0B, e⟩)) ∧
      (badEstat e = false → s.me.pend.all (fun p => p.landed) = false →
        ∃ k, exec (.tret m) s = .next (s.setBank s.focus.bank k) ∧ k = { s.me with waiters := k.waiters, nextIssue := k.nextIssue }) ∧
      (badEstat e = false → s.me.pend.all (fun p => p.landed) = true → s.me.ftl = true → exec (.tret m) s =
        .next ((s.sIssued m).killJobAs s.focus.bank ((s.me.cw cwTCAUSE).toNat % 2 ^ 32) 0x0A)) ∧
      (badEstat e = false → s.me.pend.all (fun p => p.landed) = true → s.me.ftl = false → s.me.stopS = true →
        exec (.tret m) s = .next ((s.sIssued m).blockS m .tret)) ∧
      (badEstat e = false → s.me.pend.all (fun p => p.landed) = true → s.me.ftl = false → s.me.stopS = false →
        ∃ t, exec (.tret m) s = .next t ∧ s.onlyBank t s.focus.bank ∧
          t.me.pc = s.me.cw cwEPC ∧ t.me.stopped = false ∧
          (∀ i, i < 3 → (t.me.cw cwSTAT).getLsbD i = e.getLsbD i) ∧ t.me.ftl = false ∧
          t.me.targets = (if fld e 16 2 = 0 then [] else
            ⟨s.me.cw cwEPEND0, fld e 18 2⟩ :: (if fld e 16 2 = 2 then [⟨s.me.cw cwEPEND1, fld e 18 2 + 1⟩] else [])) ∧
          t.me.skipWait = e.getLsbD 20 ∧ t.me.sregs = s.me.sregs))

/-- R90, R95 to R98, R103, R106: LD, ST, AMO and CAS with clean operands take TCAUSE 0x05 at an address of 2^48 or more, 0x04 at a
misaligned one, and 0x05 where neither the local window nor an aperture entry holds it; each takes the first trap of its checks, and with
none it is performed. A ST that a full message window stops discards the open packet it addresses (R452). -/
def Obligations.MemoryWordsCheckThenAccess : Prop :=
  ∀ (s : State) (i : Instr) (f : MemForm), memForm i = some f → s.sIssues f.marks = true → s.clean f.regs = true →
    let b := s.focus.bank
    let ea := f.ea s
    let s' := if f.wr && f.plain && ea.toNat % f.n == 0 then s.dropOnTrap b ea f.n else s
    (2 ^ 48 ≤ ea.toNat → exec i s = .next (s'.trapS b ⟨0x05, ea⟩)) ∧
    (ea.toNat < 2 ^ 48 → ea.toNat % f.n ≠ 0 → exec i s = .next (s'.trapS b ⟨0x04, ea⟩)) ∧
    (ea.toNat % f.n = 0 → ea.toNat < 2 ^ 24 → s.localAt ea.toNat f.n = none → exec i s = .next (s'.trapS b ⟨0x05, ea⟩)) ∧
    (ea.toNat % f.n = 0 → 2 ^ 24 ≤ ea.toNat → ea.toNat < 2 ^ 48 → apFind s.me.apertures ea.toNat = none →
      exec i s = .next (s'.trapS b ⟨0x05, ea⟩)) ∧
    (∀ t, s.accessTrap i b ea f.n f.wr f.plain = some t → exec i s = .next (s'.trapS b t)) ∧
    (s.accessTrap i b ea f.n f.wr f.plain = none →
      exec i s = .next ((s.sIssued f.marks).memWord f.marks (f.d.map (fun r => r.toNat)) ea (f.access ea (s.sIssued f.marks)) f.lam))

/-- R96, R99, R103, R143: a load of the local window lands its little-endian bytes, zero- or sign-extended, and is poisoned by a marker
(R91). LDS does the same, and where LD would trap it lands its address, poisoned; but both take TCAUSE 0x0B at a message window and at
another die's reduce aperture (R451, R458; of LDS by log 79). -/
def Obligations.LocalLoadsLandTheirBytes : Prop :=
  ∀ (s : State) (m : Marks) (o : MoOp) (u : Store) (off : Nat), s.sIssues m = true →
    let n := 2 ^ o.size.toNat
    let x : BitVec (8 * n) := BitVec.ofNat (8 * n) (s.bytesAt u off n)
    let v : W64 := if o.sx then x.signExtend 64 else x.setWidth 64
    let i := s.sIssued m
    let ea := s.reg o.base + o.off.signExtend 64
    (s.clean [o.base] = true → ea.toNat % n = 0 → s.localAt ea.toNat n = some (u, off) →
      exec (.ld m o) s = .next (i.pendMem m o.d.toNat v ((s.memAt u).marked off n) (latency o.lat))) ∧
    (s.clean [o.base] = true → ea.toNat % n = 0 → s.localAt ea.toNat n = some (u, off) →
      exec (.lds m o) s = .next (i.pendMem m o.d.toNat v ((s.memAt u).marked off n) (latency o.lat))) ∧
    (s.clean [o.base] = false ∨ 2 ^ 48 ≤ ea.toNat ∨ ea.toNat % n ≠ 0 ∨ (ea.toNat < 2 ^ 24 ∧ s.localAt ea.toNat n = none) ∨
        (2 ^ 24 ≤ ea.toNat ∧ apFind s.me.apertures ea.toNat = none) →
      exec (.lds m o) s = .next (i.pendMem m o.d.toNat ea true (latency o.lat))) ∧
    (∀ die win, s.clean [o.base] = true → ea.toNat < 2 ^ 48 → ea.toNat % n = 0 →
      ((s.resolve s.focus.bank ea.toNat n false false).2 = .win die win ∨
        ((s.resolve s.focus.bank ea.toNat n false false).2 = .red die win ∧ die ≠ bankDie s.focus.bank)) →
      exec (.ld m o) s = .next (s.trapS s.focus.bank ⟨0x0B, ea⟩) ∧ exec (.lds m o) s = .next (s.trapS s.focus.bank ⟨0x0B, ea⟩))

/-- R91, R96, R103: a store to the local window writes its bytes and no other byte of any memory. A poisoned source marks the word it
touches; a clean one clears the marker only when it writes all 8 bytes. -/
def Obligations.LocalStoresWriteTheirBytes : Prop :=
  ∀ (s : State) (m : Marks) (d base : SReg) (size : BitVec 2) (imm : BitVec 21) (u : Store) (off : Nat),
    s.sIssues m = true → s.clean [base] = true →
    let n := 2 ^ size.toNat
    let ea := s.reg base + imm.signExtend 64
    ea.toNat % n = 0 → s.localAt ea.toNat n = some (u, off) → (s.memAt u).wf = true →
    let i := s.sIssued m
    ∃ t, exec (.st m d base size imm) s = .next t ∧
      (∀ v x, t.peek v x = if v = u ∧ off ≤ x ∧ x < off + n then (i.reg d >>> (8 * (x - off))).setWidth 8 else s.peek v x) ∧
      (∀ w, w ∈ (t.memAt u).marks ↔
        (if i.sBad s.focus.bank d.toNat then w ∈ (s.memAt u).marks ∨ w = off / 8
         else w ∈ (s.memAt u).marks ∧ (n = 8 → w ≠ off / 8))) ∧
      t = { i.doneS m with cores := t.cores, clusters := t.clusters }

/-- R104 to R106: an atomic in the local window lands the old value. AMO stores the value of its table, and CAS its new value when the old
one is equal; a marked word is left as it is and lands poisoned. No other byte changes. -/
def Obligations.LocalAtomics : Prop :=
  ∀ (s : State) (m : Marks) (d base src src2 : SReg) (lat op : BitVec 4) (scope : BitVec 3) (place size : BitVec 2) (u : Store)
    (off : Nat), s.sIssues m = true →
    let n := 2 ^ size.toNat
    let ea := s.reg base
    ea.toNat % n = 0 → s.localAt ea.toNat n = some (u, off) → (s.memAt u).wf = true →
    let i := s.sIssued m
    let old := s.bytesAt u off n
    let bad := (s.memAt u).marked off n
    let stored := fun (t : State) (new : Option Nat) => ∀ v x, t.peek v x =
      match (if bad then none else new) with
      | some y => if v = u ∧ off ≤ x ∧ x < off + n then BitVec.ofNat 8 (y / 256 ^ (x - off)) else s.peek v x
      | none => s.peek v x
    (s.clean [base, src] = true → op.toNat ≤ 9 → (op = 9 → size = 2) →
      ∃ t, exec (.amo m d base src lat op scope place size) s = .next t ∧
        stored t (some (amoValue op.toNat n old ((i.reg src).toNat % 256 ^ n))) ∧
        t = { i.pendMem m d.toNat (BitVec.ofNat 64 old) bad (latency lat) with cores := t.cores, clusters := t.clusters }) ∧
    (s.clean [base, src, src2] = true →
      ∃ t, exec (.cas m d base src src2 lat scope place size) s = .next t ∧
        stored t (if old = (i.reg src).toNat % 256 ^ n then some ((i.reg src2).toNat % 256 ^ n) else none) ∧
        t = { i.pendMem m d.toNat (BitVec.ofNat 64 old) bad (latency lat) with cores := t.cores, clusters := t.clusters })

/-- R103: PREF completes at issue with no trap, whatever its address: it goes on like a word with no result, from a state in which the
registers, the pending results, the flags, the control words and every byte of the scratchpads and of shared memory are as its issue
left them. In the local window, and beyond 48 bits, it has no effect at all. -/
def Parts.PrefetchHasNoArchitecturalEffect : Prop :=
  ∀ (s : State) (m : Marks) (hint : BitVec 6) (base : SReg) (off : BitVec 21), s.sIssues m = true →
    let i := s.sIssued m
    (((i.reg base + off.signExtend 64).toNat < 2 ^ 24 ∨ 2 ^ 48 ≤ (i.reg base + off.signExtend 64).toNat) →
      exec (.pref m hint base off) s = .next (i.doneS m)) ∧
    ∃ u, exec (.pref m hint base off) s = .next (State.doneS u m) ∧ u.focus = s.focus ∧
      (∀ v a, (∃ k, v = .scratchpad k) ∨ (∃ c, v = .shared c) → u.peek v a = s.peek v a) ∧
      u.me.sregs = i.me.sregs ∧ u.me.pend = i.me.pend ∧ u.me.flags = i.me.flags ∧ u.me.ctl = i.me.ctl ∧ u.me.pc = s.me.pc

/-- R94, R108: FENCE completes in its issue cycle when every memory access of S has landed, and FENCE.job when no operation issued before
it is in flight either (an operation's number says when it was issued); otherwise S blocks. IFENCE outside a slot discards the words
fetched ahead, and in one it is illegal (R134). -/
def Parts.FencesWaitForWhatTheyName : Prop :=
  ∀ (s : State) (m : Marks), s.sIssues m = true →
    let i := s.sIssued m
    let landed := s.me.pend.all (fun p => p.landed || !p.mem)
    let done := s.me.ops.all (fun o => decide (s.nextId ≤ o.id))
    let blocked := fun job => i.blockS m (.fence job s.nextId)
    (exec (.fence m) s = .next (if landed then (blocked false).unblock s.focus.bank none else blocked false)) ∧
    (exec (.fenceJob m) s = .next (if landed && done then (blocked true).unblock s.focus.bank none else blocked true)) ∧
    (s.me.targets = [] → exec (.ifence m) s = .next ((i.modBank s.focus.bank (fun k => { k with fetched := [] })).doneS m)) ∧
    (s.me.targets ≠ [] → ∀ w, encode (.ifence m) = some (.s, w) → exec (.ifence m) s = .next (s.trapS s.focus.bank ⟨0x01, w⟩))

/-- R92, R94: a blocking word that completes lands its result at once, unless an older result of its register is in flight, beside which it
is kept; it lets the next word issue from the next cycle, and makes its increment. -/
def Parts.BlockingWordsComplete : Prop :=
  ∀ (s : State) (b : Nat) (w : Blocked) (res : Option (Nat × W64)), (s.bank b).blocked = some w →
    let t := s.unblock b res
    s.onlyBank t b ∧ (t.bank b).blocked = none ∧ (t.bank b).nextIssue.get 0 0 = s.cycle + 1 ∧
    (t.bank b).pc = ((s.bank b).advance none).pc ∧ (t.bank b).targets = ((s.bank b).advance none).targets ∧
    (∀ d v, res = some (d, v) → d ≠ 0 → (s.bank b).pendingReg d = false → (t.bank b).sregs.get ⟨0, false⟩ d = ⟨v, false⟩) ∧
    (∀ d v, res = some (d, v) → (s.bank b).pendingReg d = true → (t.bank b).sregs = (s.bank b).sregs ∧
      ∃ p ∈ (t.bank b).pend, p.dest = .reg d ∧ p.val = v ∧ p.poison = false ∧ p.landed = true) ∧
    (∀ r, (∀ d v, res = some (d, v) → r ≠ d) → (t.bank b).sregs.get ⟨0, false⟩ r = (s.bank b).sregs.get ⟨0, false⟩ r) ∧
    (t.bank b).flags = (s.bank b).flags ∧
    (t.bank b).incs = (s.bank b).incs ++ (if sigMode w.signal = 1 ∨ sigMode w.signal = 3 then
      [⟨sigFlag w.signal, s.cycle + 1, .s, false, decide (sigMode w.signal = 3)⟩] else [])

/-- R108, R359, R360: PUB and ACQ complete at issue, but a PUB wider than the core waits while a store or atomic of the bank has still to
be performed. PUB.core and ACQ.core do nothing more. A wider PUB leaves no dirty byte in the core's
L1 and writes no scratchpad; a wider ACQ leaves no clean byte there, keeps the dirty bytes, and writes no memory, and one wider than
the die sets the acquire stamp. -/
def Parts.PublishAndAcquire : Prop :=
  ∀ (s : State) (m : Marks) (scope : BitVec 3), s.sIssues m = true →
    let i := s.sIssued m
    let c := bankCore s.focus.bank
    (scope = 0 → exec (.pub m scope) s = .next (i.doneS m) ∧ exec (.acq m scope) s = .next (i.doneS m)) ∧
    (scope ≠ 0 →
      (s.me.writeWaits = true → exec (.pub m scope) s = .next (i.blockS m (.publishing scope.toNat false))) ∧
      (s.me.writeWaits = false → ∃ t, exec (.pub m scope) s = .next t ∧ (∀ l ∈ (t.core c).l1, l.dirty = 0) ∧
        t.me = (i.doneS m).me ∧ ∀ k a, t.peek (.scratchpad k) a = s.peek (.scratchpad k) a) ∧
      (∃ t, exec (.acq m scope) s = .next t ∧
        (∀ l ∈ (t.core c).l1, ∃ l' ∈ (s.core c).l1, l.line = l'.line ∧ l.dirty = l'.dirty ∧ l.valid = l'.valid &&& l'.dirty) ∧
        (∀ l ∈ (s.core c).l1, l.valid &&& l.dirty ≠ 0 → ∃ l' ∈ (t.core c).l1, l'.line = l.line ∧ l'.dirty = l.dirty ∧ l'.data = l.data) ∧
        t.me = { (i.doneS m).me with stamp := if 3 ≤ scope.toNat then s.cycle else s.me.stamp } ∧
        ∀ v a, t.peek v a = s.peek v a))

/-- R108: CWB, CINV, CINV.discard and IINV of a clean base complete at issue, and a length of 0 does nothing more. Otherwise, of the
physical ranges that the address and length name, CWB leaves no dirty word in the core's L1, CINV no clean byte and CINV.discard no byte,
and IINV no line of memory in its instruction cache. CINV and CINV.discard set the acquire stamp, and CINV keeps every dirty byte. None of
them changes a register, a pending result, a flag or a byte of the scratchpads or of shared memory. -/
def Parts.CacheMaintenance : Prop :=
  ∀ (s : State) (m : Marks) (base src : SReg) (i : Instr), s.sIssues m = true → s.clean [base] = true →
    i = .cwb m base src ∨ i = .cinv m base src ∨ i = .cinvDiscard m base src ∨ i = .iinv m base src →
    let u := s.sIssued m
    let c := bankCore s.focus.bank
    let rs := (u.physRanges s.focus.bank (u.reg base).toNat (u.reg src).toNat).2
    (u.reg src = 0 → exec i s = .next (u.doneS m)) ∧
    ∃ t, exec i s = .next (State.doneS t m) ∧ t.focus = s.focus ∧
      (∀ v a, (∃ k, v = .scratchpad k) ∨ (∃ k, v = .shared k) → t.peek v a = s.peek v a) ∧
      t.me.sregs = s.me.sregs ∧ t.me.pend = s.me.pend ∧ t.me.flags = u.me.flags ∧ t.me.pc = s.me.pc ∧
      (u.reg src ≠ 0 →
        (i = .cwb m base src → ∀ l ∈ (t.core c).l1, l.dirty &&& wordsMask rs l.line = 0) ∧
        (i = .cinv m base src ∨ i = .cinvDiscard m base src → t.me.stamp = s.cycle) ∧
        (i = .cinv m base src → ∀ l ∈ (t.core c).l1, l.valid &&& ~~~l.dirty &&& rangesMask rs l.line = 0) ∧
        (i = .cinvDiscard m base src → ∀ l ∈ (t.core c).l1, l.valid &&& rangesMask rs l.line = 0) ∧
        (i = .iinv m base src → ∀ l ∈ (t.core c).ic, l.line < 2 ^ 60 → rangesMask rs l.line = 0)) ∧
      (i = .cinv m base src → ∀ l ∈ (s.core c).l1, l.valid &&& l.dirty ≠ 0 →
        ∃ l' ∈ (t.core c).l1, l'.line = l.line ∧ l'.dirty = l.dirty ∧ l'.data = l.data)

/-- R103, R108: PREF, PUB, ACQ, CWB, CINV, CINV.discard and IINV. -/
def Obligations.CacheWords : Prop := Parts.PrefetchHasNoArchitecturalEffect ∧ Parts.PublishAndAcquire ∧ Parts.CacheMaintenance

/-- R33, R108, R359: PHASE, once every store and atomic of the bank has been performed, publishes, counts one more arrival at its level,
and completes in its issue cycle when every member has arrived, always so at the core level and at a level that is not enabled; otherwise
S blocks. -/
def Parts.PhaseArrives : Prop :=
  ∀ (s : State) (m : Marks) (scope : BitVec 3), s.sIssues m = true →
    let b := s.focus.bank
    let w := ((s.sIssued m).publish b scope.toNat).modBank b (fun k =>
      { k with phases := k.phases.set scope.toNat (k.phases.get 0 scope.toNat + 1) })
    let v := w.blockS m (.phase scope.toNat)
    (scope ≠ 0 → s.me.writeWaits = true → exec (.phase m scope) s = .next ((s.sIssued m).blockS m (.publishing scope.toNat true))) ∧
    (scope = 0 ∨ s.me.writeWaits = false →
      (v.phaseComplete b scope.toNat = true → exec (.phase m scope) s = .next (v.phaseEnd b scope.toNat)) ∧
      (v.phaseComplete b scope.toNat = false → exec (.phase m scope) s = .next v)) ∧
    (scope = 0 → v.phaseComplete b scope.toNat = true) ∧
    (1 ≤ scope.toNat → scope.toNat ≤ 4 → (s.me.cw (cwDOM + scope.toNat - 1)).getLsbD 63 = false →
      v.phaseComplete b scope.toNat = true)

/-- R33, R94, R108: FENCE, FENCE.job, IFENCE and PHASE, and how a blocking word completes. -/
def Obligations.FencesAndPhases : Prop := Parts.FencesWaitForWhatTheyName ∧ Parts.BlockingWordsComplete ∧ Parts.PhaseArrives

/-- R25, R26, R111: PUSH of a clean register into an open ring with room writes the word at WP, in the core's scratchpad, and moves WP by
one modulo 2N; no other byte changes. A closed ring is TCAUSE 0x01, a full one that has nothing left to fetch 0x08, and a full one
that moves stalls the word. -/
def Parts.PushWritesItsRing : Prop :=
  ∀ (s : State) (m : Marks) (e : Engine) (a : SReg), s.sIssues m = true → (s.core (bankCore s.focus.bank)).sp.wf = true →
    let w := s.me.ring e
    let x := (s.sIssued m).reg a
    (ringClosed w = true → ∀ v, encode (.push m e a) = some (.s, v) →
      exec (.push m e a) s = .next (s.trapS s.focus.bank ⟨0x01, v⟩)) ∧
    (ringClosed w = false → ringFull w = true → ringRP w ≠ ringWP w →
      ∃ k, exec (.push m e a) s = .next (s.setBank s.focus.bank k) ∧ k = { s.me with waiters := k.waiters, nextIssue := k.nextIssue }) ∧
    (ringClosed w = false → s.clean [a] = true → ringFull w = true → ringRP w = ringWP w →
      exec (.push m e a) s = .next (s.trapS s.focus.bank ⟨0x08, e.code.setWidth 64⟩)) ∧
    (ringClosed w = false → s.clean [a] = true → ringFull w = false →
      ∃ t, exec (.push m e a) s = .next (State.doneS t m) ∧ t.focus = s.focus ∧
        ringWP (t.me.ring e) = (ringWP w + 1) % (2 * ringN w) % 2 ^ 16 ∧ ringRP (t.me.ring e) = ringRP w ∧ ringHP (t.me.ring e) = ringHP w ∧
        ringN (t.me.ring e) = ringN w ∧ ringBase (t.me.ring e) = ringBase w ∧ ringClosed (t.me.ring e) = false ∧
        (∀ v z, t.peek v z = if v = .scratchpad (bankCore s.focus.bank) ∧ ringAddr w (ringWP w) ≤ z ∧ z < ringAddr w (ringWP w) + 8
          then (x >>> (8 * (z - ringAddr w (ringWP w)))).setWidth 8 else s.peek v z) ∧
        t.me.sregs = s.me.sregs ∧ t.me.pend = s.me.pend ∧ t.me.pc = s.me.pc)

/-- R116: START points an idle engine with an open ring at the words between two ring positions; pointers too far apart are TCAUSE 0x0B, and
a closed ring 0x01; the word stalls until the engine is idle. -/
def Parts.StartPointsItsEngine : Prop :=
  ∀ (s : State) (m : Marks) (e : Engine) (a : SReg), s.sIssues m = true →
    let w := s.me.ring e
    let n := ringN w
    let rp := (s.reg a).toNat % 65536 % (2 * n)
    let wp := (s.reg a).toNat / 65536 % 65536 % (2 * n)
    (ringClosed w = true → ∀ v, encode (.start m e a) = some (.s, v) →
      exec (.start m e a) s = .next (s.trapS s.focus.bank ⟨0x01, v⟩)) ∧
    (ringClosed w = false → s.me.idleE e = false →
      ∃ k, exec (.start m e a) s = .next (s.setBank s.focus.bank k) ∧ k = { s.me with waiters := k.waiters, nextIssue := k.nextIssue }) ∧
    (ringClosed w = false → s.me.idleE e = true → s.clean [a] = true →
      (n < (wp + 2 * n - rp) % (2 * n) → exec (.start m e a) s = .next (s.trapS s.focus.bank ⟨0x0B, s.reg a⟩)) ∧
      ((wp + 2 * n - rp) % (2 * n) ≤ n → ∃ t, exec (.start m e a) s = .next t ∧ s.onlyBank t s.focus.bank ∧
        ringRP (t.me.ring e) = rp ∧ ringHP (t.me.ring e) = rp ∧ ringWP (t.me.ring e) = wp ∧ ringN (t.me.ring e) = n ∧
        (e = .v → t.me.vaPos = rp) ∧ t.me.sregs = s.me.sregs ∧ t.me.flags = (s.sIssued m).me.flags))

/-- R25, R26, R111, R116: PUSH and START. -/
def Obligations.RingWordsFromS : Prop := Parts.PushWritesItsRing ∧ Parts.StartPointsItsEngine

/-- R112, R113, R114, R129: WAITF and PARK complete in their issue cycle when the flag holds their count and no word ranked before them
takes it: WAITF lands the old value, unless an older result of its register is in flight, and, without .peek, takes its count; PARK takes
one. With a flag too low WAITF waits, and PARK holds the streams of its bank. RDF lands the flag as step 1 of R20 left it. SIGF sends one
increment to the flag it names on a die that is present: to its own die at once, and to another as a packet of kind 5; a die that is
absent is TCAUSE 0x05. -/
def Parts.FlagWords : Prop :=
  ∀ (s : State) (m : Marks) (d a c : SReg) (peek : Bool) (g : BitVec 6), s.sIssues m = true →
    let b := s.focus.bank
    let i := s.sIssued m
    let f := (i.reg a).toNat % 64
    let n := (i.reg c).toNat % 65536
    let old := i.me.flag f
    (s.clean [a, c] = true → n ≤ old → i.me.overtakes s.cycle .s f s.cycle = false →
      ∃ t, exec (.waitf m d a c peek) s = .next t ∧ s.onlyBank t b ∧ t.me.blocked = none ∧
        t.me.flag f = (if peek then old else old - n) ∧ (∀ x, x ≠ f → t.me.flag x = i.me.flag x) ∧
        (d ≠ 0 → s.me.pendingReg d.toNat = false → t.me.sregs.get ⟨0, false⟩ d.toNat = ⟨BitVec.ofNat 64 old, false⟩) ∧
        (∀ r, r ≠ d.toNat → t.me.sregs.get ⟨0, false⟩ r = s.me.sregs.get ⟨0, false⟩ r) ∧ t.me.pc = (i.doneS m).me.pc) ∧
    (s.clean [a, c] = true → old < n →
      ∃ t, exec (.waitf m d a c peek) s = .next t ∧ t.me.blocked = some ⟨.waitf d.toNat f n peek, m.signal, s.cycle⟩ ∧
        t.me.flags = i.me.flags ∧ t.me.sregs = s.me.sregs ∧ t.me.pc = s.me.pc) ∧
    (1 ≤ i.me.flag g.toNat → i.me.overtakes s.cycle .s g.toNat s.cycle = false →
      ∃ t, exec (.park m g) s = .next t ∧ s.onlyBank t b ∧ t.me.blocked = none ∧ t.me.flag g.toNat = i.me.flag g.toNat - 1 ∧
        (∀ x, x ≠ g.toNat → t.me.flag x = i.me.flag x) ∧ t.me.sregs = s.me.sregs ∧ t.me.pc = (i.doneS m).me.pc) ∧
    (i.me.flag g.toNat = 0 → i.me.overtakes s.cycle .s g.toNat s.cycle = false →
      ∃ t, exec (.park m g) s = .next t ∧ t.me.blocked = some ⟨.park g.toNat, m.signal, s.cycle⟩ ∧
        t.me.isParked = true ∧ t.me.parkHolds = true ∧ t.me.flags = i.me.flags) ∧
    (s.clean [a] = true → exec (.rdf m d a) s = .next (i.resultS m d (BitVec.ofNat 64 (i.me.flagSeen s.cycle f)) false 2)) ∧
    (s.clean [a] = true →
      let die := (s.reg a).toNat / 2 ^ 16 % 2 ^ 14
      (s.diePresent (bankDie b) die = false → exec (.sigf m a) s = .next (s.trapS b ⟨0x05, s.reg a⟩)) ∧
      (s.diePresent (bankDie b) die = true →
        let r : RIncr := ⟨die * 128 + (s.reg a).toNat / 2 ^ 8 % 2 ^ 6 * 2 + (s.reg a).toNat / 2 ^ 6 % 2, (s.reg a).toNat % 64,
          if s.me.sv then none else some s.me.seq, s.cycle, b⟩
        (die = bankDie b → exec (.sigf m a) s = .next (State.doneS { i with incs := i.incs ++ [r] } m)) ∧
        (die ≠ bankDie b → ∃ t p, exec (.sigf m a) s = .next (State.doneS t m) ∧ t = { i with pkts := t.pkts, dies := t.dies } ∧
          t.pkts = s.pkts ++ [p] ∧ p.kind = 5 ∧ p.src = bankDie b ∧ p.dst = die ∧ p.bank = r.bank ∧ p.aux = r.flag ∧
          p.seq = r.seq.getD 0 ∧ p.stage = .source ∧ (∀ v z, t.peek v z = s.peek v z))))

/-- R115: RDQ of a queue whose head has arrived lands the word of the head that s[b] numbers, unless an older result of its register is in
flight, and .pop removes it; an empty queue that nothing can fill is TCAUSE 0x09, and on one that something can fill, and on a head
that has not arrived, it waits. -/
def Parts.QueueReads : Prop :=
  ∀ (s : State) (m : Marks) (d c : SReg) (q : BitVec 5) (pop : Bool), s.sIssues m = true → s.clean [c] = true →
    let i := s.sIssued m
    (∀ x e rest, (s.me.queue q.toNat).slots = x :: rest → x.data = some e →
      ∃ t, exec (.rdq m d q c pop) s = .next t ∧ s.onlyBank t s.focus.bank ∧ t.me.blocked = none ∧
        (d ≠ 0 → s.me.pendingReg d.toNat = false → t.me.sregs.get ⟨0, false⟩ d.toNat = ⟨(e >>> (64 * ((i.reg c).toNat % 32))).setWidth 64, false⟩) ∧
        (t.me.queue q.toNat).slots = (if pop then rest else x :: rest) ∧
        (∀ y, y ≠ q.toNat → t.me.queue y = s.me.queue y) ∧ t.me.pc = (i.doneS m).me.pc) ∧
    ((s.me.queue q.toNat).slots = [] → (s.me.queue q.toNat).prod = .none → s.me.pushInFlight q.toNat = false →
      exec (.rdq m d q c pop) s = .next (s.trapS s.focus.bank ⟨0x09, q.setWidth 64⟩)) ∧
    ((∃ x rest, (s.me.queue q.toNat).slots = x :: rest ∧ x.data = none) ∨
      ((s.me.queue q.toNat).slots = [] ∧ ((s.me.queue q.toNat).prod ≠ .none ∨ s.me.pushInFlight q.toNat = true)) →
      exec (.rdq m d q c pop) s = .next (i.blockS m (.rdq d.toNat q.toNat ((i.reg c).toNat % 32) pop)))

/-- R112 to R115, R129: WAITF, PARK, RDF, SIGF and RDQ. -/
def Obligations.FlagAndQueueWords : Prop := Parts.FlagWords ∧ Parts.QueueReads

/-- R29, R117: RENDEZ closes the three rings and waits; END of a clean register also drops every unissued engine word, ends the loops, and
waits with s[a][31:0] as exit code. -/
def Obligations.JobsEndAtTheRendezvous : Prop :=
  ∀ (s : State) (m : Marks) (a : SReg) (e : Engine), s.sIssues m = true →
    (∃ t, exec (.rendez m) s = .next t ∧ s.onlyBank t s.focus.bank ∧ ringClosed (t.me.ring e) = true ∧
      ringWP (t.me.ring e) = ringWP (s.me.ring e) ∧ ringRP (t.me.ring e) = ringRP (s.me.ring e) ∧
      t.me.blocked = some ⟨.rendez 0, m.signal, s.cycle⟩ ∧ t.me.sregs = s.me.sregs ∧ t.me.ops = s.me.ops) ∧
    (s.clean [a] = true → ∃ t, exec (.endJob m a) s = .next t ∧ s.onlyBank t s.focus.bank ∧ ringClosed (t.me.ring e) = true ∧
      ringRP (t.me.ring e) = ringWP (s.me.ring e) ∧ ringWP (t.me.ring e) = ringWP (s.me.ring e) ∧ t.me.engLoop e = none ∧
      t.me.blocked = some ⟨.rendez (((s.sIssued m).reg a).toNat % 2 ^ 32), m.signal, s.cycle⟩ ∧ t.me.ops = s.me.ops)

/-- R120, R122: GETC lands the word as it stands at issue, within 2 cycles. SETC, SETB and CLRB of a clean register into a word that the
view gives, with no refusal, change its writable bits alone: they take the source's bits, its ones, or lose its ones; a bit cleared by
writing 1 is cleared by SETC and SETB (R154). In a ring word RP and WP are taken modulo 2N, and HP becomes RP (R180, R181). They go on
like a word with no result, and no other control word, register, predicate, flag or byte of memory changes. -/
def Obligations.ControlWords : Prop :=
  ∀ (s : State) (m : Marks) (a d : SReg) (cw : BitVec 12), s.sIssues m = true →
    let b := s.focus.bank
    let i := s.sIssued m
    let sel := cw.toNat
    (s.cwForbidden b sel false = false → exec (.getc m d cw) s = .next (i.resultS m d (i.readCw b sel) false 2)) ∧
    (∀ (w : Instr) (op : CwOp), (w = .setc m a cw ∧ op = .set) ∨ (w = .setb m a cw ∧ op = .orBits) ∨ (w = .clrb m a cw ∧ op = .clear) →
      s.cwForbidden b sel true = false → s.clean [a] = true →
      (s.cwRefused b op sel (s.reg a) = true → exec w s = .next (s.trapS b ⟨0x0B, BitVec.ofNat 64 sel⟩)) ∧
      (s.cwRefused b op sel (s.reg a) = false →
        ∃ t, exec w s = .next (State.doneS t m) ∧ t = { i with banks := t.banks, cores := t.cores } ∧ (∀ x, x ≠ b → t.bank x = s.bank x) ∧
          (∀ u z, t.peek u z = s.peek u z) ∧
          (∃ v : W64, (∀ n, n < 64 → v.getLsbD n =
              let x := (s.reg a).getLsbD n
              let old := (s.me.cw sel).getLsbD n
              let y := if (cwWritable sel).testBit n then (match op with | .set => x | .orBits => old || x | .clear => old && !x) else old
              if (cwW1c sel).testBit n && op != .clear && x then false else y) ∧
            ((∀ e, sel ≠ ringSel e) → t.me.cw sel = v) ∧
            (∀ e, sel = ringSel e → ringN (t.me.ring e) = ringN v ∧ ringBase (t.me.ring e) = ringBase v ∧
              ringClosed (t.me.ring e) = ringClosed (s.me.ring e) ∧ ringRP (t.me.ring e) = ringRP v % (2 * ringN v) ∧
              ringWP (t.me.ring e) = ringWP v % (2 * ringN v) ∧ ringHP (t.me.ring e) = ringRP (t.me.ring e))) ∧
          (∀ x, x ≠ sel → t.me.cw x = s.me.cw x) ∧ t.me.sregs = s.me.sregs ∧ t.me.preds = s.me.preds ∧
          t.me.flags = i.me.flags ∧ t.me.pc = s.me.pc))

/-- R118, R374: LAUNCH with a clean, aligned record address in the local window, no marked word in the record and room in Zenith's queue
lands the status word of its submission: 1 and the number of the launch it queued, or the error 0x02 of a record with a reserved field
set. A record that is read elsewhere is treated the same. With a full queue the word stalls. -/
def Parts.LaunchLandsItsStatus : Prop :=
  ∀ (s : State) (m : Marks) (d a : SReg), s.sIssues m = true → s.clean [a] = true → (s.reg a).toNat % 64 = 0 → (s.reg a).toNat < 2 ^ 48 →
    let b := s.focus.bank
    let pkg := pkgOf (bankDie b)
    let lands := fun (i : State) (r : Rec) =>
      (launchReserved r = true → exec (.launch m d a) s = .next (i.nowS m d 0x0200)) ∧
      (launchReserved r = false → ∃ t seq l, exec (.launch m d a) s = .next (State.nowS t m d (BitVec.ofNat 64 (1 + seq * 2 ^ 32))) ∧
        i.accept pkg r (some b) = (t, some seq) ∧ (t.hub pkg).launches = (i.hub pkg).launches ++ [l] ∧ l.seq = seq ∧
        l.record = r ∧ l.phase = .queued ∧ l.submitter = some b)
    (0 < (s.hub pkg).qfree →
      (∀ u off, s.localAt (s.reg a).toNat 64 = some (u, off) → (s.memAt u).marked off 64 = false →
        lands (s.sIssued m) (BitVec.ofNat 512 (s.bytesAt u off 64))) ∧
      (∀ s1 v, s.readBlock (.launch m d a) b (s.reg a) 8 = (s1, .ok v) → s1.sIssues m = true → s1.focus = s.focus →
        lands (s1.sIssued m) (BitVec.ofNat 512 v))) ∧
    ((s.hub pkg).qfree = 0 → ∃ k, exec (.launch m d a) s = .next (s.setBank b k) ∧ k = { s.me with waiters := k.waiters })

/-- R119: YIELD lands 0 at once when no launch of equal or higher priority waits for this bank's core. Otherwise it asks for the
pre-emption of its whole launch, and waits for it; where none is to be had any more, it lands 0. -/
def Parts.YieldGivesWayOnlyWhenWanted : Prop :=
  ∀ (s : State) (m : Marks) (d : SReg), s.sIssues m = true →
    let b := s.focus.bank
    let i := s.sIssued m
    let waiting := (i.blockS m (.yielded d.toNat)).requestPreempt s.me.seq
    (i.wanted b = false → exec (.yield m d) s = .next (i.nowS m d 0)) ∧
    (i.wanted b = true →
      exec (.yield m d) s = .next (if waiting.me.preempt then waiting else waiting.unblock b (some (d.toNat, 0))) ∧
      (∀ l, s.launchOf s.me.seq = some l → l.phase = .live → (∃ p ∈ l.jobs, p.bank = b ∧ p.over = false) →
        (∀ p ∈ l.jobs, p.over = false → (waiting.bank p.bank).preempt = true) ∧
        waiting.me.blocked = some ⟨.yielded d.toNat, m.signal, s.cycle⟩ ∧ waiting.me.pc = s.me.pc))

/-- R118, R119: LAUNCH and YIELD. -/
def Obligations.LaunchAndYield : Prop := Parts.LaunchLandsItsStatus ∧ Parts.YieldGivesWayOnlyWhenWanted

/-- R316, R317: MBOX of a clean register with room and no earlier sender waiting adds one entry, visible from 6 cycles after issue, and S
issues next 3 cycles on; without room it waits in its place among the stalled senders. MBRD on the master core lands the oldest
visible entry of its launch, which mode 1 leaves; with none, mode 2 lands 0 and the others wait. -/
def Obligations.Mailbox : Prop :=
  ∀ (s : State) (m : Marks) (a d : SReg) (mode : BitVec 2), s.sIssues m = true →
    let b := s.focus.bank
    let cl := bankCluster b
    let c := s.cluster cl
    let i := s.sIssued m
    let mine := fun (e : MailEntry) => e.visible && e.seq == s.me.seq
    let lands := fun (t : State) (v : W64) => d ≠ 0 → s.me.pendingReg d.toNat = false → t.me.sregs.get ⟨0, false⟩ d.toNat = ⟨v, false⟩
    (s.clean [a] = true → c.mail.length < 8 → (c.mailWait = [] ∨ c.mailWait.head? = some b) →
      ∃ t, exec (.mbox m a) s = .next t ∧
        (t.cluster cl).mail = c.mail ++ [⟨(i.reg a).setWidth 56, bankCore b % 4, b % 2, s.me.seq, s.cycle + 6, false⟩] ∧
        t.me.nextIssue.get 0 0 = s.cycle + 3 ∧ t.me.pc = (i.doneS m).me.pc ∧ t.me.sregs = s.me.sregs ∧
        (∀ v z, t.peek v z = s.peek v z)) ∧
    (s.clean [a] = true → (8 ≤ c.mail.length ∨ ∃ x, c.mailWait.head? = some x ∧ x ≠ b) →
      ∃ t, exec (.mbox m a) s = .next t ∧ (t.cluster cl).mail = c.mail ∧ b ∈ (t.cluster cl).mailWait ∧ t.me.pc = s.me.pc ∧
        t.me.flags = s.me.flags) ∧
    (s.isMaster b = true →
      (∀ e, c.mail.find? mine = some e → ∃ t, exec (.mbrd m d mode) s = .next t ∧ t.me.blocked = none ∧
        lands t (BitVec.ofNat 64 (e.msg.toNat + e.core % 4 * 2 ^ 56 + e.bank % 2 * 2 ^ 58 + 2 ^ 63)) ∧ t.me.pc = (i.doneS m).me.pc ∧
        (mode = 1 → (t.cluster cl).mail = c.mail) ∧
        (mode ≠ 1 → ∃ l r, c.mail = l ++ e :: r ∧ l.all (fun x => !mine x) = true ∧ (t.cluster cl).mail = l ++ r)) ∧
      (c.mail.find? mine = none → mode = 2 → ∃ t, exec (.mbrd m d mode) s = .next t ∧ t.me.blocked = none ∧ lands t 0) ∧
      (c.mail.find? mine = none → mode ≠ 2 →
        exec (.mbrd m d mode) s = .next (i.blockS m (.mbrd d.toNat mode.toNat))))

/-- R128, R393: EVT of class 1 in the supervisor view, or of another class, with room in the host's ring, moves the write index by 1, or
by 5 with the composite record, and completes in its issue cycle; its entry holds JOBID, COREID, the class and the datum, and stands in
host memory at the old index (where no HDM range of a die takes that address). Without room it waits. -/
def Parts.HostEvents : Prop :=
  ∀ (s : State) (m : Marks) (a : SReg) (cls : BitVec 4), s.sIssues m = true → s.clean [a] = true → (cls = 1 → s.me.sv = true) →
    let pkg := pkgOf (bankDie s.focus.bank)
    let need := if cls = 1 then 5 else 1
    let w := fun (t : State) => fld ((t.hub pkg).reg 0x20050) 0 6
    let i := s.sIssued m
    let entry := (s.me.cw cwJOBID).toNat + (s.coreId s.focus.bank).toNat * 2 ^ 64 + cls.toNat * 2 ^ 128 + (i.reg a).toNat * 2 ^ 192
    (need ≤ (s.hub pkg).evFree → ∃ t, exec (.evt m a cls) s = .next t ∧ w t = (w s + need) % 64 ∧
      t.me = (State.unblock (i.blockS m (.evt (decide (cls = 1)) entry)) s.focus.bank none).me ∧
      (∀ k z, t.peek (.scratchpad k) z = s.peek (.scratchpad k) z) ∧ (∀ k z, t.peek (.shared k) z = s.peek (.shared k) z) ∧
      (cls ≠ 1 → s.hdm = [] → s.hostMem.wf = true → ∀ n, n < 64 →
        t.hostMem.byte (fld ((s.hub pkg).reg 0x20048) 12 36 * 4096 + 64 * w s + n) = BitVec.ofNat 8 (entry / 256 ^ n))) ∧
    ((s.hub pkg).evFree < need → exec (.evt m a cls) s = .next (i.blockS m (.evt (decide (cls = 1)) entry)))

/-- R438, R447: FTIME lands fabric time within 4 cycles, FTHR the throttle state within 2; FTIME.until completes in its issue cycle when
fabric time has reached its target, and otherwise blocks. -/
def Parts.FabricTimeWords : Prop :=
  ∀ (s : State) (m : Marks) (d a : SReg), s.sIssues m = true →
    let i := s.sIssued m
    let x := s.die (bankDie s.focus.bank)
    exec (.ftime m d) s = .next (i.resultS m d (BitVec.ofNat 64 s.ft) false 4) ∧
    exec (.fthr m d) s = .next (i.resultS m d (BitVec.ofNat 64 (x.level % 8 + min 255 x.lastWin * 256)) false 2) ∧
    (s.clean [a] = true →
      ((i.reg a).toNat ≤ s.ft → exec (.ftimeUntil m d a) s =
        .next ((i.blockS m (.ftime d.toNat (i.reg a))).unblock s.focus.bank (some (d.toNat, BitVec.ofNat 64 s.ft)))) ∧
      (s.ft < (i.reg a).toNat → exec (.ftimeUntil m d a) s = .next (i.blockS m (.ftime d.toNat (i.reg a)))))

/-- R456: RGRP of clean registers with a sound group word installs it for the job's launch, or removes the group when VALID is clear; any
other group word is TCAUSE 0x0B. -/
def Parts.GroupWords : Prop :=
  ∀ (s : State) (m : Marks) (a c : SReg), s.sIssues m = true → s.clean [a, c] = true →
    let b := s.focus.bank
    let w := s.reg c
    let bad := (s.reg a).toNat / 16 != 0 || s.groupBad (bankDie b) w
    let key := groupKey s.me.seq ((s.reg a).toNat % 16)
    (bad = true → exec (.rgrp m a c) s = .next (s.trapS b ⟨0x0B, w⟩)) ∧
    (bad = false → ∃ t, exec (.rgrp m a c) s = .next t ∧
      (t.die (bankDie b)).groups.find? key = (if w.getLsbD 63 then some w else none) ∧
      (∀ x, x ≠ key → (t.die (bankDie b)).groups.find? x = (s.die (bankDie b)).groups.find? x) ∧
      t.me = ((s.sIssued m).doneS m).me ∧ ∀ v z, t.peek v z = s.peek v z)

/-- R128, R438, R447, R456: EVT, FTIME, FTIME.until, FTHR and RGRP. -/
def Obligations.HostFabricAndGroupWords : Prop := Parts.HostEvents ∧ Parts.FabricTimeWords ∧ Parts.GroupWords

/-- R405, R413: with no re-shard in flight, LAYSEL of 0 sends Zenith a layout of none, and LAYSEL of an aligned address in the local window
the descriptor there, and blocks; with one it is TCAUSE 0x12, value 5. A descriptor that is not valid is TCAUSE 0x12, value 3, and one
whose dies are not the launch's value 4. RSHRD of clean registers that no check of its rule stops, the first of its die, begins the
die's re-shard with the job's operands and completes at issue; with no layout it is TCAUSE 0x12, value 1. -/
def Parts.LayoutWords : Prop :=
  ∀ (s : State) (m : Marks) (a c e : SReg), s.sIssues m = true →
    let b := s.focus.bank
    let die := bankDie b
    let seq := s.me.seq
    let i := s.sIssued m
    let sends := fun (desc : Option Desc) => ∃ t, exec (.laysel m a) s = .next t ∧
      t.me.blocked = some ⟨.laysel s.nextId, m.signal, s.cycle⟩ ∧
      (t.hub (pkgOfSeq seq)).installs = (s.hub (pkgOfSeq seq)).installs ++ [⟨seq, b, s.nextId, desc⟩] ∧
      t.me.pc = s.me.pc ∧ ∀ v z, t.peek v z = s.peek v z
    (s.clean [a] = true → s.reshardLive seq = false → s.reg a = 0 → sends none) ∧
    (∀ u off, s.clean [a] = true → s.reshardLive seq = false → s.reg a ≠ 0 → (s.reg a).toNat % 128 = 0 →
      s.localAt (s.reg a).toNat 128 = some (u, off) → (s.memAt u).marked off 128 = false →
      let x : Desc := BitVec.ofNat 1024 (s.bytesAt u off 128)
      let ours := x.dies.foldl insertNat [] == s.launchDies seq
      (x.valid (s.die die).dims = false → exec (.laysel m a) s = .next (s.trapS b ⟨0x12, 3⟩)) ∧
      (x.valid (s.die die).dims = true → ours = false → exec (.laysel m a) s = .next (s.trapS b ⟨0x12, 4⟩)) ∧
      (x.valid (s.die die).dims = true → ours = true → sends (some x))) ∧
    (s.clean [a] = true → s.reshardLive seq = true → exec (.laysel m a) s = .next (s.trapS b ⟨0x12, 5⟩)) ∧
    (s.clean [a, c, e] = true → ((s.die die).layout seq).isSome = true →
      (s.hub (pkgOfSeq seq)).installs.any (fun x => x.seq == seq) = false → (s.reg a).toNat % 128 = 0 → (s.reg c).toNat / 512 = 0 →
      (s.die die).resharding seq = false →
      ∃ t, exec (.rshrd m a c e) s = .next t ∧ t.me.pc = (i.doneS m).me.pc ∧ t.me.sregs = s.me.sregs ∧
        ∃ r, (t.die die).reshardOf seq = some r ∧ r.ops = [((match s.me.job with | some j => j.jidx | none => 0), s.reg a, s.reg c, s.reg e)]) ∧
    (s.clean [a, c, e] = true → ((s.die die).layout seq).isNone = true → exec (.rshrd m a c e) s = .next (s.trapS b ⟨0x12, 1⟩))

/-- R459, R460: FPOST on the master core with a clean, 64-byte-aligned address in the job's scratchpad range, no marked word in the command,
and fewer than 16 commands held, completes with a status word: the error, or 1 and the instance number of the command it queued. -/
def Parts.CollectivePost : Prop :=
  ∀ (s : State) (m : Marks) (d a : SReg), s.sIssues m = true → s.isMaster s.focus.bank = true → s.clean [a] = true →
    let b := s.focus.bank
    let cl := bankCluster b
    let ea := s.reg a
    ea.toNat % 64 = 0 → s.me.inRange ea.toNat 64 = true → (s.core (bankCore b)).sp.marked ea.toNat 64 = false →
    (s.cluster cl).coll.length < 16 →
    let i := s.sIssued m
    let c : Rec := BitVec.ofNat 512 (s.bytesAt (.scratchpad (bankCore b)) ea.toNat 64)
    let err := i.postError b c
    (err ≠ 0 → exec (.fpost m d a) s = .next (i.nowS m d (BitVec.ofNat 64 (err * 256)))) ∧
    (err = 0 → ∃ t, exec (.fpost m d a) s = .next t ∧
      t.me = (i.nowS m d (BitVec.ofNat 64 (1 + (s.cluster cl).inst.get 0 (groupKey s.me.seq (fld c 12 4)) % 65536 * 65536))).me ∧
      ∃ x, (t.cluster cl).coll = (s.cluster cl).coll ++ [x] ∧ x.cmd = c ∧ x.bank = b ∧ x.phase = .queued)

/-- R449, R450: in the supervisor view, RASAVE of a clean, aligned address that its image may be written to, with no save outstanding,
removes the reassembly entries of messages and bulk writes for the bank, sets SAVED and their number, and completes; RALOAD of an image
that may be read back, with room, reinstates its entries, clears SAVED and completes. -/
def Parts.ReassemblySave : Prop :=
  ∀ (s s1 : State) (m : Marks) (a : SReg) (es : List RasmEntry), s.sIssues m = true → s.me.sv = true → s.clean [a] = true →
    (s.reg a).toNat % 256 = 0 →
    let b := s.focus.bank
    ((s.me.cw cwRASTAT).getLsbD 0 = false → s.imageTrap b (s.reg a).toNat (1 + 65 * (s.rasmOf b).length) true = none →
      ∃ t, exec (.rasave m a) s = .next t ∧ t.rasmOf b = [] ∧ (t.me.cw cwRASTAT).getLsbD 0 = true ∧
        fld (t.me.cw cwRASTAT) 7 6 = (s.rasmOf b).length % 64 ∧ t.me.pc = ((s.sIssued m).doneS m).me.pc) ∧
    (s.readImage b (s.reg a).toNat = (s1, .ok es) →
      (s.die (bankDie b)).rasm.length + es.length ≤ 256 →
      exec (.raload m a) s = .next (((s1.sIssued m).reinstate b es).doneS m))

/-- R405, R413, R449, R459, R460: LAYSEL, RSHRD, FPOST, RASAVE and RALOAD. -/
def Obligations.LayoutAndCollectiveWords : Prop := Parts.LayoutWords ∧ Parts.CollectivePost ∧ Parts.ReassemblySave

/-- What NOP, SETP and the words of R100, R101, R130 and R131 leave: unless the word waits or traps, nothing outside its bank changes; in
the bank only the pc, the pending targets and results, the word's own wait and increments, and, inside an S loop, the predicates, the
pending predicates and the two loop words (R138). At most one result is added to the pending ones. A flag changes only by the consume its
WAIT byte names (R15). Every byte of every memory is as it was. -/
def Parts.RegisterWordsFrame : Prop :=
  ∀ (s t : State) (i : Instr) (m : Marks), registerWord i = some m → exec i s = .next t →
    (s.sIssues m = false ∧ t = s.setBank s.focus.bank t.me ∧ t.me = { s.me with waiters := t.me.waiters }) ∨
    (∃ c, t = s.trapS s.focus.bank c) ∨
    (s.onlyBank t s.focus.bank ∧
      t.me = { s.me with
        pc := t.me.pc, targets := t.me.targets, pend := t.me.pend, flags := t.me.flags, waiters := t.me.waiters, took := t.me.took,
        incs := t.me.incs, idleSince := s.cycle, lastPoint := t.me.lastPoint, skipWait := false, nullS := t.me.nullS,
        preds := t.me.preds, sloop := t.me.sloop, ctl := t.me.ctl } ∧
      (s.me.sloop = none → t.me.preds = s.me.preds ∧ t.me.ctl = s.me.ctl ∧ t.me.sloop = none) ∧
      (∀ c, c ≠ cwLOOPC → c ≠ cwLSTAT → t.me.cw c = s.me.cw c) ∧
      (∃ l, l.length ≤ 1 ∧ (s.me.sloop = none → t.me.pend = s.me.pend ++ l) ∧
        t.me.pend.map (fun p => (p.id, p.val, p.poison, p.landed)) = (s.me.pend ++ l).map (fun p => (p.id, p.val, p.poison, p.landed))) ∧
      (∀ f, t.me.flag f ≠ s.me.flag f → sigMode m.wait = 1 ∧ f = sigFlag m.wait ∧ t.me.flag f = s.me.flag f - 1) ∧
      ∀ v a, t.peek v a = s.peek v a)

/-- R15, R20, R23, R100, R101, R130, R131, R138: what the words that touch only registers leave, and that an integer word whose WAIT is
not met stays. -/
def Obligations.RegisterWordsFrame : Prop := Parts.RegisterWordsFrame ∧ Parts.UnmetWaitHoldsTheWord

/-- What LD, ST, AMO and CAS of an address above the local window leave: every byte of every scratchpad, but the record of a trap, and of
every shared memory; and every bank but their own. -/
def Obligations.CachedAccessesFrame : Prop :=
  ∀ (s t : State) (i : Instr) (f : MemForm), memForm i = some f → 2 ^ 24 ≤ (f.ea s).toNat → exec i s = .next t →
    (s.core (bankCore s.focus.bank)).sp.wf = true →
    (∀ k a, (k = bankCore s.focus.bank → a < fld (s.me.cw cwFAREA) 8 11 * 256 ∨ fld (s.me.cw cwFAREA) 8 11 * 256 + 256 ≤ a) →
      t.peek (.scratchpad k) a = s.peek (.scratchpad k) a) ∧
    (∀ c a, t.peek (.shared c) a = s.peek (.shared c) a) ∧
    (∀ b, b ≠ s.focus.bank → t.bank b = s.bank b)

/-- R20, R173, R174, R184, R186, R188: an execute-side word whose WAIT, queues and masks let it issue reads and pops its sources, reserves a
slot at each destination, and starts one operation, which at its completion time fills those slots, writes the masks the word names
and nothing else; the next word waits for its occupancy. -/
def Parts.VectorWordsIssue : Prop :=
  ∀ (s : State) (i : Instr) (f : VecShape), vecShape i = some f → s.vecIssues f = true →
    ∃ effs, exec i s = .next (s.vecIssued f effs) ∧
      effs.all (fun e => match e with
        | .fill q slot _ => f.dsts.contains q && slot == slotOf (s.slotIds f.dsts) q
        | .mask n _ => f.masks.any (fun x => x % 4 == n)
        | _ => false) = true ∧
      (effs.filter (fun e => match e with | .fill .. => true | _ => false)).length = f.dsts.length

/-- R42 to R47, R60, R184, R194, R195, R212 to R214: VCVT, the nine functions, VROPE, VSMX.norm, VSMX.scale and VDWC push, for each active
lane, the value that their rule gives it, and zero elsewhere. -/
def Parts.WideWordsPushTheirRules : Prop :=
  ∀ (s : State) (i : Instr) (f : VecShape) (o : VOp) (r : Nat → Nat),
    vecShape i = some f → wideWord s i = some (o, r) → i.wellFormed = true → s.vecIssues f = true →
    ∃ x, exec i s = .next (s.vecIssued f [s.pushTo f 0 x]) ∧
      holdsLanes o.ty x (fun n => if s.me.activeLane o n then r n % 2 ^ o.ty.width else 0)

/-- R47 to R50, R197 to R199: VQMX and VQGI push the elements of their blocks in part p and the blocks' scales beside one another, and zero
elsewhere, under no mask; VDQMX rounds each element times its block's scale. -/
def Parts.BlockWordsScaleTheirBlocks : Prop :=
  ∀ (s : State) (i : Instr) (f : VecShape), vecShape i = some f → i.wellFormed = true → s.vecIssues f = true →
    (∀ o sct rule, blockWord i = some (o, sct, rule) →
      let first := o.sub.toNat / 2 % 8 * (blockType o).lanes
      let block := fun j => rule (fun k => s.randomFor o (first + 32 * j + k)) (s.sourceBlock o j)
      ∃ e sc, exec i s = .next (s.vecIssued f [s.pushTo f 0 e, s.pushTo f 1 sc]) ∧
        holdsLanes o.ty e (fun n => if first ≤ n ∧ n < first + (blockType o).lanes then
          ((block ((n - first) / 32)).2[(n - first) % 32]?).getD 0 % 2 ^ o.ty.width else 0) ∧
        holdsLanes sct sc (fun n => if first ≤ 32 * n ∧ 32 * n < first + (blockType o).lanes then
          (block (n - first / 32)).1 % 2 ^ sct.width else 0)) ∧
    (∀ m o, i = .vdqmx m o →
      ∃ x, exec i s = .next (s.vecIssued f [s.pushTo f 0 x]) ∧
        holdsLanes o.ty x (fun n =>
          let j := o.sub.toNat / 16 % 8 * o.ty.lanes + n
          let sc := elemAt (s.me.headOf o.vb.toNat) 8 (j / 32)
          EType.rnd o.ty o.rm (if sc = 255 then .nan else
            (EType.value (sourceType o) (s.lane o.va (sourceType o) j)).scale ((sc : Int) - 127)) % 2 ^ o.ty.width))

/-- R58, R205, R213, R217: VSMX.step pushes the new maximum, sum and rescale factor, and the probabilities; VWELF pushes the new mean, or
the new second moment, and carries the old one through an inactive lane. -/
def Parts.SoftmaxAndWelfordSteps : Prop :=
  ∀ (s : State) (f : VecShape) (m : Marks) (o : VOp),
    (vecShape (.vsmxStep m o) = some f → (Instr.vsmxStep m o).wellFormed = true → s.vecIssues f = true →
      let a := s.lane o.va .fp32
      let st := s.lane o.vb .fp32
      let mn := reduceOp .fp32 2 .rne (st 0)
        (treeLevel (reduceOp .fp32 2 .rne) (fun n => if s.me.activeLane o n then a n else 0xFF800000) 6 0)
      let p := fun n => if mn ≠ 0xFF800000 ∧ s.me.activeLane o n = true then Fn.fp32 .exp2 (subF (a n) mn) else 0
      let al := if mn = 0xFF800000 then 0x3F800000 else Fn.fp32 .exp2 (subF (st 0) mn)
      let ln := if mn = 0xFF800000 then st 1 else fmaF (st 1) al (treeLevel addF p 6 0)
      ∃ x y, exec (.vsmxStep m o) s = .next (s.vecIssued f [s.pushTo f 0 x, s.pushTo f 1 y]) ∧
        holdsLanes .fp32 x (fun n => (if n = 0 then mn else if n = 1 then ln else if n = 2 then al else 0) % 2 ^ 32) ∧
        holdsLanes .fp32 y (fun n => p n % 2 ^ 32)) ∧
    (vecShape (.vwelf m o) = some f → (Instr.vwelf m o).wellFormed = true → s.vecIssues f = true →
      let mu := s.lane o.va .fp32
      let m2 := s.lane o.vc .fp32
      let d := fun n => subF (s.lane o.vb .fp32 n) (mu n)
      let mn := fun n => fmaF (d n) (Fn.fp32 .rcp (toFp32 (Val.ofInt ((s.focus.k + 1 : Nat) : Int)))) (mu n)
      ∃ x, exec (.vwelf m o) s = .next (s.vecIssued f [s.pushTo f 0 x]) ∧
        holdsLanes .fp32 x (fun n => (if o.sub.getLsbD 0 then
            (if s.me.activeLane o n then fmaF (d n) (subF (s.lane o.vb .fp32 n) (mn n)) (m2 n) else m2 n)
          else if s.me.activeLane o n then mn n else mu n) % 2 ^ 32))

/-- R45, R47, R49, R50, R60 to R64, R67, R68: what rounding, blocks and functions come to: the manual's own examples, the special values of
R61, and the recipes of VEXP2, VLOG2, VRCP, VTANH and VSIGM in terms of their tables and coefficients. -/
def Parts.NumbersAsTheManualStates : Prop :=
  -- stochastic rounding, the top of the range, and a block (R45, R47, R50)
  ([(0x3F804C00, 0xB3, 0x3F80), (0x3F804C00, 0xB4, 0x3F81), (0xBF804C00, 0xB3, 0xBF80), (0xBF804C00, 0xB4, 0xBF81)].all
    (fun (x, r, y) => EType.round .bf16 .sr (8, r) (fp32 x) == y) = true) ∧
  ([(.rne, 0x7E), (.rtz, 0x7E), (.rdn, 0x7E), (.rup, 0x7F), (.rna, 0x7F), (.rns, 0x7E)].all
    (fun (x : RMode × Nat) => EType.rnd .e4m3 x.1 (Val.ofInt 464) == x.2) = true) ∧
  ([(.rne, 0xFE), (.rtz, 0xFE), (.rdn, 0x7F), (.rup, 0xFE), (.rna, 0x7F), (.rns, 0xFE)].all
    (fun (x : RMode × Nat) => EType.rnd .e4m3 x.1 (Val.ofInt (-464)) == x.2) = true) ∧
  ([(.rne, 0x7C00), (.rtz, 0x7BFF), (.rdn, 0x7BFF), (.rup, 0x7C00), (.rna, 0x7C00), (.rns, 0x7BFF)].all
    (fun (x : RMode × Nat) => EType.rnd .fp16 x.1 (Val.ofInt 65520) == x.2) = true) ∧
  (let rest := fp32 0x3E99999A :: Val.ofInt (-1) :: List.replicate 29 (.zero false)
   mxQuantise .e4m3 .rne (fun _ => noSr) (Val.ofInt 20 :: rest) = (0x7B, [0x7A, 0x4A, 0xD8] ++ List.replicate 29 0) ∧
   (mxQuantise .e4m3 .rne (fun _ => noSr) (Val.ofInt 31 :: rest)).2.head? = some 0x7E) ∧
  -- the special values: NaN, both infinities and both zeros, in FP32 and exactly (R61)
  ([(.exp2, [0x7FC00000, 0, 0x7F800000, 0x3F800000, 0x3F800000]), (.log2, [0x7FC00000, 0x7FC00000, 0x7F800000, 0xFF800000, 0xFF800000]),
    (.rcp, [0x7FC00000, 0x80000000, 0, 0xFF800000, 0x7F800000]), (.rsq, [0x7FC00000, 0x7FC00000, 0, 0xFF800000, 0x7F800000]),
    (.sqrt, [0x7FC00000, 0x7FC00000, 0x7F800000, 0x80000000, 0]), (.sin, [0x7FC00000, 0x7FC00000, 0x7FC00000, 0x80000000, 0]),
    (.cos, [0x7FC00000, 0x7FC00000, 0x7FC00000, 0x3F800000, 0x3F800000]), (.tanh, [0x7FC00000, 0xBF800000, 0x3F800000, 0x80000000, 0]),
    (.sigm, [0x7FC00000, 0, 0x3F800000, 0x3F000000, 0x3F000000])].all
    (fun (x : Fn × List Nat) => [0x7FC00000, 0xFF800000, 0x7F800000, 0x80000000, 0].map x.1.fp32 == x.2 &&
      [0x7FC00000, 0xFF800000, 0x7F800000, 0x80000000, 0].map (fun c => toFp32 (x.1.exact (fp32 c))) == x.2) = true) ∧
  -- the recipes, where no special value and no exact result comes first (R62 to R64, R67, R68)
  (∀ x, Fn.special .exp2 (fp32 x) = none → Val.lt (fp32 x) (Val.ofInt (-160)) = false →
    let n := nearestInt ((fp32 x).scale 6)
    let r := toFp32 (Val.sub .rne (fp32 x) ((Val.ofInt n).scale (-6)))
    let te := tabTE (n % 64).toNat
    let q := mulF (fmaF (fmaF (fmaF 0x3C1D955B r 0x3D635847) r 0x3E75FDF0) r 0x3F317218) r
    Fn.fp32 .exp2 x = scaleF (fmaF te q te) (n / 64)) ∧
  (∀ x, Fn.special .exp2 (fp32 x) = none → Val.lt (fp32 x) (Val.ofInt (-160)) = true → Fn.fp32 .exp2 x = 0) ∧
  (∀ x, Fn.special .log2 (fp32 x) = none → exactFp32 (log2Val (fp32 x)) = none →
    let j := frac6 (splitF (fp32 x))
    let r := fmaF (splitF (fp32 x)) (tabTC j) 0xBF800000
    let p := fmaF (fmaF (fmaF (fmaF 0x3E93BB63 r 0xBEB8AA3B) r 0x3EF6384F) r 0xBF38AA3B) r 0x3FB8AA3B
    Fn.fp32 .log2 x = addF (toFp32 (Val.ofInt (splitE (fp32 x)))) (fmaF p r (tabTL j))) ∧
  (∀ x, Fn.special .rcp (fp32 x) = none → exactFp32 (Val.div (Val.ofInt 1) (fp32 x)) = none →
    let tc := tabTC (frac6 (splitF (fp32 x)))
    let t := fmaF (negF (splitF (fp32 x))) tc 0x3F800000
    let q := mulF (fmaF (fmaF 0x3F800000 t 0x3F800000) t 0x3F800000) t
    let y := scaleF (fmaF tc q tc) (-splitE (fp32 x))
    Fn.fp32 .rcp x = if (fp32 x).sgn then negF y else y) ∧
  (∀ x, Fn.special .tanh (fp32 x) = none →
    let one := 0x3F800000
    let e := Fn.fp32 .exp2 (mulF (toFp32 (fp32 x).abs) 0xC038AA3B)
    let y := mulF (subF one e) (Fn.fp32 .rcp (addF one e))
    let p := fmaF 0x3E088889 (mulF x x) 0xBEAAAAAB
    Fn.fp32 .tanh x =
      if Val.lt (fp32 x).abs (.fin false 19 (-1) false) = false then (if (fp32 x).sgn then 0xBF800000 else one)
      else if Val.lt (fp32 x).abs (.fin false 1 (-4) false) then fmaF x (mulF p (mulF x x)) x
      else if (fp32 x).sgn then negF y else y) ∧
  (∀ x, Fn.special .sigm (fp32 x) = none →
    let e := Fn.fp32 .exp2 (mulF x (if (fp32 x).sgn then 0x3FB8AA3B else 0xBFB8AA3B))
    let y := Fn.fp32 .rcp (addF 0x3F800000 e)
    Fn.fp32 .sigm x = if (fp32 x).sgn then mulF e y else y)

/-- R42 to R50, R60 to R64, R67, R68, R174, R184, R186, R188, R194, R195, R197 to R199, R212 to R214, R217: an execute-side word pops,
reserves and starts one operation; what the conversions, the functions, the quantising words, VROPE, VSMX, VDWC and VWELF push. -/
def Obligations.VectorWordsIssue : Prop :=
  Parts.VectorWordsIssue ∧ Parts.WideWordsPushTheirRules ∧ Parts.BlockWordsScaleTheirBlocks ∧ Parts.SoftmaxAndWelfordSteps ∧
  Parts.NumbersAsTheManualStates

/-- R189, R190, R200 to R203: the words of one result per lane push, for each active lane, the value of their table, and zero elsewhere. -/
def Parts.LaneWordsPushTheirTable : Prop :=
  ∀ (s : State) (i : Instr) (f : VecShape) (o : VOp) (r : (Nat → Nat) → (Nat → Nat) → (Nat → Nat) → Nat → Nat),
    vecShape i = some f → laneWord i = some (o, r) → i.wellFormed = true → s.vecIssues f = true →
    ∃ x, exec i s = .next (s.vecIssued f [s.pushTo f 0 x]) ∧
      holdsLanes o.ty x (fun n => if s.me.activeLane o n then
        r (laneOf o.ty (s.me.headOf o.va.toNat)) (bLane i o (s.me.headOf o.vb.toNat)) (laneOf o.ty (s.me.headOf o.vc.toNat)) n
          % 2 ^ o.ty.width else 0)

/-- R47, R189: VADD, VSUB and VMUL round the exact sum, difference or product of each active lane once; under SR with the bits that R47
takes from vc. -/
def Parts.RoundedArithmetic : Prop :=
  ∀ (s : State) (i : Instr) (f : VecShape) (m : Marks) (o : VOp) (g : Val → Val → Val),
    (i = .vadd m o ∧ g = Val.add o.rm) ∨ (i = .vsub m o ∧ g = Val.sub o.rm) ∨ (i = .vmul m o ∧ g = Val.mul) →
    vecShape i = some f → i.wellFormed = true → s.vecIssues f = true →
    ∃ x, exec i s = .next (s.vecIssued f [s.pushTo f 0 x]) ∧
      holdsLanes o.ty x (fun n => if s.me.activeLane o n then
        EType.round o.ty o.rm (if o.rm = .sr then randomBits o (s.me.headOf o.vc.toNat) n else noSr)
          (g (EType.value o.ty (laneOf o.ty (s.me.headOf o.va.toNat) n)) (EType.value o.ty (laneOf o.ty (s.me.headOf o.vb.toNat) n)))
          % 2 ^ o.ty.width else 0)

/-- R192, R215, R216: VCMP and VICMP write the mask of their condition in the active lanes, VMASKP that of a window of positions, and VZCMP
packs the non-zero active elements and writes their mask. Bits at and above L are 0. VSEL, VZEXP and VMOVI push what they say. -/
def Parts.MaskWords : Prop :=
  ∀ (s : State) (i : Instr) (f : VecShape) (m : Marks) (o : VOp), vecShape i = some f → i.wellFormed = true → s.vecIssues f = true →
    let a := laneOf o.ty (s.me.headOf o.va.toNat)
    let b := laneOf o.ty (s.me.headOf o.vb.toNat)
    let act := s.me.activeLane o
    let bits := fun (v : Mask) (p : Nat → Bool) => ∀ n, n < 512 → v.getLsbD n = (decide (n < o.ty.lanes) && act n && p n)
    (i = .vcmp m o → ∃ v, exec i s = .next (s.vecIssued f [.mask (o.vd.toNat % 4) v]) ∧ bits v (fun n =>
      let x := EType.value o.ty (a n)
      let y := EType.value o.ty (b n)
      match o.sub.toNat % 8 with
      | 0 => Val.eq x y
      | 1 => !Val.eq x y
      | 2 => Val.lt x y
      | 3 => Val.lt x y || Val.eq x y
      | 4 => Val.lt y x
      | 5 => Val.lt y x || Val.eq x y
      | 6 => x.isNan || y.isNan
      | _ => !(x.isNan || y.isNan))) ∧
    (i = .vicmp m o → ∃ v, exec i s = .next (s.vecIssued f [.mask (o.vd.toNat % 4) v]) ∧ bits v (fun n =>
      let x := intOf o.ty (a n)
      let y := intOf o.ty (b n)
      match o.sub.toNat % 8 with
      | 0 => decide (x = y)
      | 1 => decide (x ≠ y)
      | 2 => decide (x < y)
      | 3 => decide (x ≤ y)
      | 4 => decide (y < x)
      | _ => decide (y ≤ x))) ∧
    (i = .vmaskp m o → ∃ v, exec i s = .next (s.vecIssued f [.mask (o.vd.toNat % 4) v]) ∧ bits v (fun n =>
      let lo := laneOf .n32 (s.me.headOf o.va.toNat) 1
      let hi := laneOf .n32 (s.me.headOf o.va.toNat) 2
      let pos := if o.sub.getLsbD 0 then laneOf .n32 (s.me.headOf o.vb.toNat) n else laneOf .n32 (s.me.headOf o.va.toNat) 0 + n
      decide (lo ≤ pos) && decide (pos ≤ hi))) ∧
    (i = .vzcmp m o → ∃ x v, exec i s = .next (s.vecIssued f [s.pushTo f 0 x, .mask (o.vc.toNat % 4) v]) ∧
      bits v (fun n => a n != 0) ∧
      holdsLanes o.ty x (fun n => ((((List.range o.ty.lanes).filter (fun j => act j && a j != 0)).map a)[n]?).getD 0)) ∧
    (i = .vzexp m o → ∃ x, exec i s = .next (s.vecIssued f [s.pushTo f 0 x]) ∧
      holdsLanes o.ty x (fun n => if act n then a ((List.range n).countP act) else 0)) ∧
    (i = .vsel m o → ∃ x, exec i s = .next (s.vecIssued f [s.pushTo f 0 x]) ∧
      holdsLanes o.ty x (fun n => if act n then a n else b n)) ∧
    (∀ vd imm, i = .vmovi m vd imm → ∃ x, exec i s = .next (s.vecIssued f [s.pushTo f 0 x]) ∧
      holdsLanes .n32 x (fun _ => imm.toNat))

/-- R200: VPACK clamps 256 INT8 elements into part p of an INT4 or INT3 register, and VUNPK widens part p to INT8. -/
def Parts.PackedIntegers : Prop :=
  ∀ (s : State) (i : Instr) (f : VecShape) (m : Marks) (o : VOp), vecShape i = some f → i.wellFormed = true → s.vecIssues f = true →
    let p := o.sub.toNat % 4
    (i = .vpack m o → ∃ x, exec i s = .next (s.vecIssued f [s.pushTo f 0 x]) ∧
      holdsLanes o.ty x (fun n => if p * 256 ≤ n ∧ n < p * 256 + 256 then keptOf o.ty true (intOf .i8 (s.lane o.va .i8 (n - p * 256))) else 0)) ∧
    (i = .vunpk m o → ∃ x, exec i s = .next (s.vecIssued f [s.pushTo f 0 x]) ∧
      holdsLanes .i8 x (fun n => if p * 256 + n < o.ty.lanes then (intOf o.ty (s.lane o.va o.ty (p * 256 + n)) % 256).toNat else 0))

/-- R47, R189, R190, R192, R193, R200 to R204, R215, R216: words of one result per lane push their tables of lanes, VADD, VSUB and VMUL
their rounded results, the mask words write their masks, and VPACK and VUNPK move packed integers. -/
def Obligations.LaneWords : Prop := Parts.LaneWordsPushTheirTable ∧ Parts.RoundedArithmetic ∧ Parts.MaskWords ∧ Parts.PackedIntegers

/-- R58, R205: VRED combines the L elements of its source, excluded lanes at their identity, with the fixed pairwise tree, and pushes the
result in element 0 with zero in every other. -/
def Obligations.ReductionTree : Prop :=
  ∀ (s : State) (f : VecShape) (m : Marks) (o : VOp), vecShape (.vred m o) = some f → (Instr.vred m o).wellFormed = true →
    s.vecIssues f = true →
    let op := reduceOp o.ty (o.sub.toNat % 8) o.rm
    let x := fun n => if s.me.activeLane o n then laneOf o.ty (s.me.headOf o.va.toNat) n else reduceIdentity o.ty (o.sub.toNat % 8) o.rm
    ∃ y, exec (.vred m o) s = .next (s.vecIssued f [s.pushTo f 0 y]) ∧
      holdsLanes o.ty y (fun n => if n = 0 then treeLevel op x (Nat.log2 o.ty.lanes) 0 % 2 ^ o.ty.width else 0)

/-- R59, R205: VSCAN pushes in each active lane its inclusive prefix by the fixed doubling network. -/
def Obligations.ScanNetwork : Prop :=
  ∀ (s : State) (f : VecShape) (m : Marks) (o : VOp), vecShape (.vscan m o) = some f → (Instr.vscan m o).wellFormed = true →
    s.vecIssues f = true →
    let op := reduceOp o.ty (o.sub.toNat % 8) o.rm
    let y := fun n => if s.me.activeLane o n then laneOf o.ty (s.me.headOf o.va.toNat) n else reduceIdentity o.ty (o.sub.toNat % 8) o.rm
    ∃ z, exec (.vscan m o) s = .next (s.vecIssued f [s.pushTo f 0 z]) ∧
      holdsLanes o.ty z (fun n => if s.me.activeLane o n then scanLevel op y (Nat.log2 o.ty.lanes) n % 2 ^ o.ty.width else 0)

/-- R174, R206 to R209, R452: VLD, VST, VGATH and VSCAT with their queues ready and no fault of R209 start an access at the address of R207
or R208; VLD and VGATH fill the slot that their issue reserves. An address at or above 2^48 is TCAUSE 0x05, and one that is not a
multiple of 64, or of 4 for the lanes, 0x04, each with the lowest lane's such address (log 76). A VST to a message window appends its
256 bytes, whole in its issue step as log 41 has it, and one with a reserved bit set, or with no room, is TCAUSE 0x0B. -/
def Obligations.VectorMemoryWords : Prop :=
  ∀ (s : State) (m : Marks), s.focus.point = .va →
    let b := s.focus.bank
    let base : Bool → Bool → BitVec 5 → Nat := fun has wide va => if has then (s.me.headOf va.toNat).toNat % 2 ^ (if wide then 64 else 32) else 0
    let src := fun (has : Bool) (va : BitVec 5) (ka : Bool) => if has then [(va.toNat, ka)] else []
    let slot := issueSlot s.cycle .va
    let faults := fun (i : Instr) (align : Nat) (eas : List Nat) =>
      (∀ a, eas.find? (fun x => decide (2 ^ 48 ≤ x)) = some a → exec i s = .next (s.faultE b .va 0x05 (BitVec.ofNat 64 a) s.focus.pos)) ∧
      (∀ a, eas.all (fun x => decide (x < 2 ^ 48)) = true → eas.find? (fun x => decide (x % align ≠ 0)) = some a →
        exec i s = .next (s.faultE b .va 0x04 (BitVec.ofNat 64 a) s.focus.pos))
    (∀ (f : VMemOp) (ea : Nat),
      (ea : Int) = ((base f.hasBase f.wide f.va : Int) + 64 * (f.offset.toNat : Int) + 64 * f.stride.toInt * (s.focus.k : Int)) % 2 ^ 64 →
      (s.eIssues m (src f.hasBase f.va f.ka) [f.vq.toNat] = true →
        (s.checkV b 256 64 false [ea] = none →
          exec (.vld m f) s = .next ((s.eIssued m (src f.hasBase f.va f.ka) [f.vq.toNat]).startOp m 6 (.vld ea f.vq.toNat slot) [])) ∧
        faults (.vld m f) 64 [ea]) ∧
      (s.eIssues m (src f.hasBase f.va f.ka ++ [(f.vq.toNat, f.kq)]) [] = true →
        (∀ die off, ea % 64 = 0 → s.windowAt b ea = some (die, off) →
          (winReserved off = false → s.me.winFull (winKey die off) 256 = false → exec (.vst m f) s =
            .next (((s.eIssued m (src f.hasBase f.va f.ka ++ [(f.vq.toNat, f.kq)]) []).winAppend b die off
              (leBytes 256 (s.me.headOf f.vq.toNat).toNat) 0).startOp m 6 .none [])) ∧
          (winReserved off = true → exec (.vst m f) s = .next (s.faultE b .va 0x0B (BitVec.ofNat 64 ea) s.focus.pos)) ∧
          (winReserved off = false → s.me.winFull (winKey die off) 256 = true → exec (.vst m f) s =
            .next ((s.faultE b .va 0x0B (BitVec.ofNat 64 ea) s.focus.pos).modBank b (fun k => k.winDrop (winKey die off))))) ∧
        (s.windowAt b ea = none → s.checkV b 256 64 true [ea] = none →
          exec (.vst m f) s = .next ((s.eIssued m (src f.hasBase f.va f.ka ++ [(f.vq.toNat, f.kq)]) []).startOp m 6
            (.vst ea (s.me.headOf f.vq.toNat)) [])) ∧
        faults (.vst m f) 64 [ea])) ∧
    (∀ (f : VGatOp) (eas : List Nat),
      eas = (List.range 64).map (fun n =>
        (base f.hasBase f.wide f.va + 256 * f.offset.toNat + 4 * laneOf .n32 (s.me.headOf f.vi.toNat) n) % 2 ^ 64) →
      (s.eIssues m (src f.hasBase f.va f.ka ++ [(f.vi.toNat, f.ki)]) [f.vq.toNat] = true →
        (s.checkV b 4 4 false eas = none →
          exec (.vgath m f) s = .next ((s.eIssued m (src f.hasBase f.va f.ka ++ [(f.vi.toNat, f.ki)]) [f.vq.toNat]).startOp m 6
            (.vgath eas f.vq.toNat slot) [])) ∧
        faults (.vgath m f) 4 eas) ∧
      (s.eIssues m (src f.hasBase f.va f.ka ++ [(f.vi.toNat, f.ki), (f.vq.toNat, f.kq)]) [] = true →
        (s.checkV b 4 4 true eas = none →
          exec (.vscat m f) s = .next ((s.eIssued m (src f.hasBase f.va f.ka ++ [(f.vi.toNat, f.ki), (f.vq.toNat, f.kq)]) []).startOp m 6
            (.vscat eas (s.me.headOf f.vq.toNat)) [])) ∧
        faults (.vscat m f) 4 eas))

/-- R210, R211, R307, R309: VQCFG of an empty, unbound queue sets its depth, and of any other is TCAUSE 0x0B with its number. VDROP of a
queue with no reserved slot removes every slot and leaves the bindings; with one it waits. VKST takes its three registers, its rows and
its head slot whole (in its issue cycle: the model's choice, log 65), starts its operation, and holds its issue point for the rows of the
slot; a place that it may not write is a fault. -/
def Obligations.QueueControlWords : Prop :=
  ∀ (s : State) (m : Marks) (vd : BitVec 5) (depth : BitVec 3) (f : VOp),
    let q := s.me.queue vd.toNat
    (s.eIssues m [] [] = true →
      (q.slots = [] ∧ q.prod = .none ∧ q.cons = .none →
        exec (.vqcfg m vd depth) s = .next (((s.eIssued m [] []).modBank s.focus.bank (fun k =>
          k.modQueue vd.toNat (fun x => { x with depth := depth.toNat + 1 }))).doneE m)) ∧
      (¬(q.slots = [] ∧ q.prod = .none ∧ q.cons = .none) →
        exec (.vqcfg m vd depth) s = .next (s.faultE s.focus.bank s.focus.point 0x0B (vd.setWidth 64) s.focus.pos)) ∧
      (q.reserved = 0 → ∃ t, exec (.vdrop m vd) s = .next t ∧ s.onlyBank t s.focus.bank ∧ (t.me.queue vd.toNat).slots = [] ∧
        (t.me.queue vd.toNat).prod = q.prod ∧ (t.me.queue vd.toNat).cons = q.cons ∧ (t.me.queue vd.toNat).depth = q.depth ∧
        ∀ x, x ≠ vd.toNat → t.me.queue x = s.me.queue x)) ∧
    (q.reserved ≠ 0 → ∃ k, exec (.vdrop m vd) s = .next (s.setBank s.focus.bank k) ∧ k = { s.me with waiters := k.waiters }) ∧
    (s.eIssues m (vABC f) [] = true → s.me.maskBusy f.msel.toNat = false →
      let head := s.headSlot s.focus.bank (f.sub.toNat % 32)
      let rows := (List.range 16).filter (fun i => f.msel == 0 || (s.me.masks.get 0 f.msel.toNat).getLsbD i)
      let check := match head with
        | some h => s.checkKst s.focus.bank h f.ty (s.me.headOf f.va.toNat) (s.me.headOf f.vc.toNat) rows
        | none => none
      (check = none → exec (.vkst m f) s = .next (((s.eIssued m (vABC f) []).startOp m 32
        (.vkst (f.sub.toNat % 32) head f.ty (s.me.headOf f.va.toNat) (s.me.headOf f.vb.toNat) (s.me.headOf f.vc.toNat) rows) []).occupy
          (match head with | some h => hdRows h.record | none => 1))) ∧
      (∀ c v, check = some (c, v) → exec (.vkst m f) s = .next (s.faultE s.focus.bank s.focus.point c v s.focus.pos)))

/-- R218 to R221, R252, R253, R293, R294: VLOOP, CLOOP and MLOOP with their end word in the ring and no pre-emption at hand begin a loop
of N iterations, N from the word, or with PRE set from the loop word, with N - 1 left and stage 0 live, or pass a loop of none; a body
that is empty or not a multiple of its stages is TCAUSE 0x0B, with the word as its value (log 45). Before the end word is in the ring they
wait, and inside a loop they are TCAUSE 0x01. -/
def Parts.RingLoopsBegin : Prop :=
  ∀ (s : State) (i : Instr) (e : Engine) (m : Marks) (st : BitVec 3) (n : BitVec 24) (body : Nat), loopForm i = some (e, m, st, n) →
    s.focus.point = loopPoint e →
    let ends := s.bodyFrom s.focus.bank s.focus.point s.focus.pos 0 (ringAhead (s.me.ring e) s.focus.pos - 1)
    ((s.me.inLoop s.focus.point).isSome = true → ∀ sp w, encode i = some (sp, w) →
      exec i s = .next (s.faultE s.focus.bank s.focus.point 0x01 w s.focus.pos)) ∧
    (s.me.engLoop e = none → ends = none →
      ∃ k, exec i s = .next (s.setBank s.focus.bank k) ∧ k = { s.me with waiters := k.waiters }) ∧
    (s.eIssues m [] [] = true → s.me.engLoop e = none → (e = .m → s.me.mReady = true) → ends = some body →
    let b := s.focus.bank
    let stages := st.toNat + 1
    let n2 := 2 * ringN (s.me.ring e)
    let pre := (s.me.cw (loopSSel e)).getLsbD 2
    let left := if pre then fld (s.me.cw (loopCSel e)) 0 24 else n.toNat
    (body = 0 ∨ body % stages ≠ 0 → ∀ sp w, encode i = some (sp, w) →
      exec i s = .next (s.faultE b s.focus.point 0x0B w s.focus.pos)) ∧
    (body ≠ 0 → body % stages = 0 → s.me.preempting = false →
      ∃ t, exec i s = .next t ∧ s.onlyBank t b ∧
        (left ≠ 0 → ∃ l, t.me.engLoop e = some l ∧ l.loopPos = s.focus.pos ∧ l.body = body ∧ l.stages = stages ∧
          l.passOf s.focus.point = 1 ∧ l.mask 1 = 1 ∧ fld (t.me.cw (loopCSel e)) 0 24 = left - 1 ∧
          (e ≠ .c → l.k0 = if pre then fld (s.me.cw (loopCSel e)) 24 24 else 0) ∧
          (t.me.cw (loopSSel e)).getLsbD 0 = true ∧ t.me.pointPos s.focus.point = (s.me.pointPos s.focus.point + 1) % n2 % 2 ^ 16) ∧
        (left = 0 → t.me.pointPos s.focus.point = (s.focus.pos + body + 2) % n2 % 2 ^ 16)))

/-- R218, R219, R221: a break word in its engine's loop stops stage 0 from the next pass when its flag, as step 1 of R20 left it, is at
least 1; an end word takes its side to the next pass or out of the loop, on V and C in no cycle, and on M in one (R282). Outside a loop
both are TCAUSE 0x01, whatever their WAIT and whatever is in flight. -/
def Parts.RingLoopsEnd : Prop :=
  ∀ (s : State) (i : Instr) (e : Engine) (m : Marks), s.focus.point = loopPoint e →
    let b := s.focus.bank
    let p := s.focus.point
    let mayRun := e = .m → s.me.mReady = true
    (∀ g, breakForm i = some (e, m, g) →
      let u := s.eIssued m [] []
      (s.me.inLoop p = none → ∀ sp w, encode i = some (sp, w) → exec i s = .next (s.faultE b p 0x01 w s.focus.pos)) ∧
      (∀ l, mayRun → s.eIssues m [] [] = true → s.me.inLoop p = some l →
        (u.me.flagSeen s.cycle g.toNat = 0 → exec i s = .next (u.doneE m)) ∧
        (u.me.flagSeen s.cycle g.toNat ≠ 0 → ∃ t l', exec i s = .next t ∧ s.onlyBank t b ∧ t.me.engLoop e = some l' ∧ l'.stop = true ∧
          l'.body = l.body ∧ l'.passOf p = l.passOf p ∧ (t.me.cw (loopSSel e)).getLsbD 1 = true ∧ t.me.flags = u.me.flags))) ∧
    (endForm i = some (e, m) →
      (s.me.inLoop p = none → ∀ sp w, encode i = some (sp, w) → exec i s = .next (s.faultE b p 0x01 w s.focus.pos)) ∧
      (∀ l, mayRun → s.me.inLoop p = some l → ∃ t, exec i s = .next t ∧
        t = { s with banks := t.banks, agenda := if e = .m then s.agenda else .issue b p :: s.agenda } ∧
        (e = .m → t.me.nextIssue.get 0 p.index = s.cycle + 1) ∧
        (∀ x, x ≠ b → t.bank x = s.bank x) ∧ t.me.sregs = s.me.sregs ∧ t.me.flags = s.me.flags ∧ t.me.queues = s.me.queues ∧
        (l.masks.find? (fun x => x.1 == l.passOf p + 1) = none → l.stop = false → s.me.preempting = false → 0 < l.stages →
          fld (s.me.cw (loopCSel e)) 0 24 ≠ 0 →
          fld (t.me.cw (loopCSel e)) 0 24 = fld (s.me.cw (loopCSel e)) 0 24 - 1 ∧
          t.me.pointPos p = (l.loopPos + 1) % (2 * ringN (s.me.ring e)) % 2 ^ 16)))

/-- R218, R219, R252, R253, R293, R294: the loop, break and end words of V, C and M. -/
def Obligations.RingLoops : Prop := Parts.RingLoopsBegin ∧ Parts.RingLoopsEnd


/-- R225 to R228, R231, R232, R234 to R243, R246 to R251, R299 to R301, R310, R311, R453: every C command but CUNB and CHALO, once it may
issue, faults at the first of its checks that fails, with its cause and value and no consume; with none it pops, starts its operation
on what it reads at issue, takes its queue sides, and advances its maps. -/
def Obligations.CopyCommandsCheckThenStart : Prop :=
  ∀ (s : State) (i : Instr) (f : CopyForm), copyForm s i = some f → s.cIssues f = true →
    (∀ c v, firstFailed f.checks = some (c, v) → exec i s = .next (s.faultE s.focus.bank s.focus.point c v s.focus.pos)) ∧
    (firstFailed f.checks = none → exec i s = .next (s.cStarted f))

/-- R242, R243: CUNB of a side that nothing binds only completes; where one CBIND, CSINK or unlinked CPEER binds it, that binding ends:
its word is gone and makes its increment, its side of the queue is free, and the elements in the queue stay. While an element of it is
half moved, stopped by a page, CUNB waits. A FENCE.job of S may wait for that binding, and is then over (R108). -/
def Parts.UnbindEndsItsBinding : Prop :=
  ∀ (s : State) (m : Marks) (q : BitVec 5) (p c : Bool), s.eIssues m [] [] = true → s.me.cReady [] [] = true →
    let u := s.eIssued m [] []
    let ends := s.me.ops.filter (fun o => (p && o.bindsProd q.toNat) || (c && o.bindsCons q.toNat))
    (ends = [] → exec (.cunb m q p c) s = .next (u.doneE m)) ∧
    ((∃ o ∈ ends, o.parked = true) → ∃ t, exec (.cunb m q p c) s = .next t ∧ s.onlyBank t s.focus.bank ∧ t.me.ops = s.me.ops ∧
      t.me.queues = s.me.queues ∧ t.me.incs = s.me.incs) ∧
    (∀ o, ends = [o] → o.parked = false → (∀ tx x y z, o.todo ≠ .peer tx x y z true) → (∀ j n g c, s.me.blocked ≠ some ⟨.fence j n, g, c⟩) →
      ∃ t, exec (.cunb m q p c) s = .next t ∧ s.onlyBank t s.focus.bank ∧ t.me.ops = s.me.ops.filter (fun x => x.id != o.id) ∧
        (t.me.queue q.toNat).slots = (s.me.queue q.toNat).slots ∧ (∀ x, x ≠ q.toNat → t.me.queue x = s.me.queue x) ∧
        (t.me.queue q.toNat).prod = (if p && o.bindsProd q.toNat then .none else (s.me.queue q.toNat).prod) ∧
        (t.me.queue q.toNat).cons = (if c && o.bindsCons q.toNat then .none else (s.me.queue q.toNat).cons) ∧
        t.me.incs = ((u.me.signalDone s.cycle o.point o.signal).signalDone s.cycle s.focus.point m.signal).incs)

/-- R407 to R409: CHALO starts its operation on its two maps with the parities of its faces as they stood, flips the parity of each face
that it names, and leaves the other parities alone; at the first of its checks that fails it faults. No face that belongs to it has come
before it. -/
def Parts.HaloTogglesItsParities : Prop :=
  ∀ (s : State) (m : Marks) (gA gB : BitVec 4) (mask f : BitVec 6) (dil : BitVec 8), s.eIssues m [] [] = true →
    s.me.cReady [gA.toNat, gB.toNat] [] = true →
    let w := s.me.cw cwHSTAT
    (∀ c v, firstFault (s.haloChecks gA gB mask) = some (c, v) →
      exec (.chalo m gA gB mask f dil) s = .next (s.faultE s.focus.bank s.focus.point c v s.focus.pos)) ∧
    (firstFault (s.haloChecks gA gB mask) = none → (∀ g ∈ s.me.halo.got, g.num ≠ s.me.halo.count) → ∃ t o, exec (.chalo m gA gB mask f dil) s = .next t ∧ s.onlyBank t s.focus.bank ∧
      t.me.ops = s.me.ops ++ [o] ∧ o.point = s.focus.point ∧ o.signal = m.signal ∧
      o.todo = .halo (s.mapOf gA) (s.mapOf gB) mask.toNat f.toNat (dil.toNat + 1) (fld w 0 6) s.me.halo.count ∧
      (∀ n, n < 6 → (t.me.cw cwHSTAT).getLsbD n = (w.getLsbD n ^^ mask.getLsbD n)) ∧
      (∀ n, n < 3 → mask.getLsbD (2 * n) = false → mask.getLsbD (2 * n + 1) = false →
        (t.me.cw cwHSTAT).getLsbD (6 + n) = w.getLsbD (6 + n)) ∧
      (∀ x, x ≠ cwHSTAT → t.me.cw x = ((s.eIssued m [] []).me).cw x) ∧ t.me.maps = s.me.maps)

/-- R242, R243, R409: CUNB and CHALO. -/
def Obligations.BindingsAndHalos : Prop := Parts.UnbindEndsItsBinding ∧ Parts.HaloTogglesItsParities

/-- R227: Advance moves the cursor of the lowest dimension by its box, and one that leaves its extent goes to 0 and carries into the next;
the highest dimension of the rank is left where it comes to. Nothing but the cursors changes. -/
def Obligations.AdvanceIsAnOdometer : Prop :=
  ∀ (r : Rec), let t := advanceMap r
    let step := fun d => (BitVec.ofInt 32 (mapPos r d + (mapBox r d : Int))).toInt
    let inside := fun d => decide (step d < (mapExt r d : Int)) || decide (d + 1 = mapRank r)
    (mapPos t 0 = if inside 0 then step 0 else 0) ∧
    (∀ d, 0 < d → d < mapRank r → mapPos t d =
      if (List.range d).all (fun e => !inside e) then (if inside d then step d else 0) else mapPos r d) ∧
    (∀ n, n < 360 ∨ 488 ≤ n → t.getLsbD n = r.getLsbD n)


/-- R53, R263, R269, R271, R272, R275, R276, R279, R284 to R292: an M word that may issue and breaks a rule faults at the first check that
fails, with its cause and value and no consume. An array command stands at its issue point first (R268). -/
def Parts.MatrixWordsCheck : Prop :=
  ∀ (s : State) (i : Instr) (m : Marks) (cs : List Check) (c : Nat) (v : W64),
    let a := arrayState s i
    matrixChecks a i = some (m, cs) → a.eIssues m [] [] = true → a.me.mReady = true → matrixReady a i = true → firstFailed cs = some (c, v) →
    exec i s = .next (a.faultE s.focus.bank s.focus.point c v s.focus.pos)

/-- R268, R269, R278, R284 to R288, R291, R292: what each M word with no check that fails starts. MLEASE waits for the grant with
MSTAT.REQ set. MFMT, MSCALE and MBLD read their box at issue. MREL, MBSEL, MZERO, MMA and an MDRAIN to memory start and are looked at
once: MREL with no array command in flight ends the lease, and with one stays in flight; MBSEL of a slot whose plane is current completes;
MZERO with no earlier word on its rows sets them to zero. An MDRAIN to a queue has its first look later in the cycle (R173). That an MMA
keeps a sink or peer binding (log 33), that the boxes have size 1 above dimension 1 and MREL and MBSEL wait as they do (log 46), and that
the checks of an MMA come with the grant (log 66) are the model's choices. -/
def Parts.MatrixWordsStart : Prop :=
  ∀ (s : State) (i : Instr) (m : Marks) (cs : List Check),
    let r := arrayState s i
    let b := s.focus.bank
    let u := r.eIssued m [] []
    matrixChecks r i = some (m, cs) → firstFailed cs = none → r.eIssues m [] [] = true → r.me.mReady = true → matrixReady r i = true →
    (i = .mlease m → ∃ t o, exec i s = .next t ∧ s.onlyBank t b ∧ t.me.ops = s.me.ops ++ [o] ∧ o.todo = .mlease ∧ o.signal = m.signal ∧
      (t.me.cw cwMSTAT).getLsbD 2 = true ∧ t.me.leaseHeld = s.me.leaseHeld) ∧
    (i = .mrel m → ∃ t, exec i s = .next t ∧ t = (u.startOp m 0 .mrel []).stepNow b ∧
      (s.me.arrayBusy = true → t.me.leaseHeld = s.me.leaseHeld ∧ t.me.ops.any (fun o => o.todo == .mrel) = true) ∧
      (s.me.arrayBusy = false → t.me.leaseHeld = false ∧ t.me.ops = s.me.ops.filter (fun o => o.id != u.nextId) ∧
        (t.me.cw cwMSTAT).getLsbD 34 = false ∧ t.clusters = s.clusters)) ∧
    (∀ g, i = .mfmt m g → exec i s = .next
      (let x := u.mRead b (s.mapOf g) (.mfmt g.toNat); x.1.startOp m 4 x.2 [])) ∧
    (∀ g rows, i = .mscale m g rows → exec i s = .next
      (let x := u.mRead b (s.mapOf g) (fun v => .mscale v (rows.toNat + 1)); x.1.startOp m (4 + (rows.toNat + 32) / 32) x.2 [])) ∧
    (∀ g slot off, i = .mbld m g slot off → exec i s = .next
      (let x := u.mRead b (s.mapOf g) (fun v => .mbld v (boxBytes (s.mapOf g)) slot.toNat off.toNat)
       x.1.startOp m (16 + boxBytes (s.mapOf g) / 256) x.2 [])) ∧
    (∀ slot, i = .mbsel m slot → ∃ t, exec i s = .next t ∧ t = (u.countCmd.startOp m 0 (.mbsel slot.toNat) []).stepNow b ∧
      (s.me.ops.all (fun o => o.point != .m) = true → (∀ j n g c, s.me.blocked ≠ some ⟨.fence j n, g, c⟩) →
        (s.cluster (bankCluster b)).planeCurrent (s.cluster (bankCluster b)).array.activePlane slot.toNat (slot.toNat % 2 == 0) = true →
        t.me.ops = s.me.ops.filter (fun o => o.id != u.nextId) ∧
        t.me.incs = (u.me.signalDone s.cycle s.focus.point m.signal).incs ∧
        (t.cluster (bankCluster b)).array.activePlane = (s.cluster (bankCluster b)).array.activePlane)) ∧
    (∀ tile rows row0, i = .mzero m tile rows row0 →
      ∃ t, exec i s = .next t ∧ t = (u.startOp m 0 (.mzero tile.toNat (rows.toNat + 1) row0.toNat) []).stepNow b ∧
      ((List.range (rows.toNat + 1)).all (fun r => !s.me.rowBusy u.nextId tile.toNat (row0.toNat + r)) = true → ∀ x r, (t.tile b x).row r =
        (if x = tile.toNat ∧ row0.toNat ≤ r ∧ r < row0.toNat + (rows.toNat + 1) then List.replicate 256 0 else (s.tile b x).row r))) ∧
    (∀ tile asrc aq gs rm ot rows row0 clr a, i = .mdrain m tile asrc aq gs rm ot rows row0 clr a →
      let q := if aq then some asrc.toNat else none
      let w := u.startOp m 0 (.mdrain tile.toNat (s.mapOf asrc) (s.mapOf gs) q ot rm (rows.toNat + 1) row0.toNat clr 0) []
      let w := if aq then w else w.stepNow b
      exec i s = .next ((w.holdM b (s.cycle + (rows.toNat + 1))).advanceMaps s.me
        (if a then asrc :: (if drainMx ot then [gs] else []) else []))) ∧
    (∀ tile asrc aq slot prof fidx rows row0 z a, i = .mma m tile asrc aq slot prof fidx rows row0 z a →
      let e := (s.mmaEntry fidx).2
      let pf := if fmtPtab e then fmtProf e else prof.toNat
      let todo := Work.mma tile.toNat (s.mapOf asrc) (if aq then some asrc.toNat else none) slot.toNat e pf (rows.toNat + 1) row0.toNat z 0 none
      let cons := (s.me.queue asrc.toNat).cons
      let w := u.countCmd.startOp m 0 todo (if aq ∧ (cons = .none ∨ cons = .m) then [.unbindCons asrc.toNat] else [])
      let w := if aq then w.modBank b (fun k => k.modQueue asrc.toNat (fun x => if x.cons = .none then { x with cons := .m } else x)) else w
      exec i s = .next ((w.stepNow b).advanceMaps r.me (if a then [asrc] else [])))

/-- R53, R263, R268, R269, R271 to R273, R275, R276, R278, R279, R284 to R292: every M command checks what the manual says, and otherwise
starts. -/
def Obligations.MatrixWordsIssue : Prop := Parts.MatrixWordsCheck ∧ Parts.MatrixWordsStart

/-- R54 to R57, R264, R265, R277, R289, R290: a row that MMA streams gives every element of its tile row the sum of its rule over the
active plane, from the old element or from +0; every other row and tile is as it was. -/
def Obligations.MatrixRowsAccumulate : Prop :=
  ∀ (s : State) (b tile : Nat) (a : Rec) (aq : Option Nat) (slot : Nat) (e : W64) (pf nr r0 : Nat) (z : Bool) (row v : Nat),
    0 < row → pf < 4 → ((s.tile b tile).row (r0 + (row - 1))).length = 256 →
    let r := r0 + (row - 1)
    let t := (s.streamRow b tile a aq slot e pf nr r0 z row v).1
    let p := (s.cluster (bankCluster b)).array.activePlane.tileBytes
    (∀ c x, c < 256 → ((s.tile b tile).row r)[c]? = some x → ((t.tile b tile).row r)[c]? = some (BitVec.ofNat 32
      (mmaOutput e pf p (aValue e v ((s.bank b).scaleRow (row - 1))) (if z then 0 else x.toNat) c))) ∧
    (∀ y q, (y ≠ tile ∨ q ≠ r) → (t.tile b y).row q = (s.tile b y).row q) ∧
    (∀ y, y ≠ bankCore b → t.core y = s.core y)

/-! The events of other agents. -/

/-- R20 step 1, R21, R155: the flag unit adds to each flag the increments that are due, sets the CEVT bits of the signals of mode 0b11,
and keeps what is not due, or waits for an earlier store of S (R355, as log 89 has it). One that is due alone and would pass 65,535 is
dropped: TCAUSE 0x0A with its flag and signaller. -/
def Parts.FlagUnitCountsItsIncrements : Prop :=
  ∀ (s : State) (b : Nat),
    let k := s.bank b
    let due := k.incs.filter (k.applies s.cycle)
    let rest := k.incs.filter (fun i => !k.applies s.cycle i)
    ((∀ f, k.flag f + (due.filter (fun i => i.flag == f)).length ≤ 65535) →
      ∃ t, exec (.flagUnitCycle b) s = .next t ∧ s.onlyBank t b ∧
        (∀ f, (t.bank b).flag f = k.flag f + (due.filter (fun i => i.flag == f)).length) ∧
        (∀ f, f < 64 → ((t.bank b).cw cwCEVT).getLsbD f = ((k.cw cwCEVT).getLsbD f || due.any (fun i => i.event && i.flag == f))) ∧
        (∀ c, c ≠ cwCEVT → (t.bank b).cw c = k.cw c) ∧
        t.bank b = { k with flags := (t.bank b).flags, ctl := (t.bank b).ctl, incs := rest }) ∧
    (∀ i, due = [i] → i.event = false → k.flag i.flag = 65535 →
      exec (.flagUnitCycle b) s = .next ((s.setBank b { k with incs := rest }).freezeBy b (if i.remote then none else some i.point) 0x0A
        (BitVec.ofNat 64 (i.flag + (if i.remote then 64 else i.point.index * 256)))
        (if i.remote || i.point == .s then 0 else k.pointPos i.point)))

/-- R22, R387: a remote increment reaches a started job of its launch (or, from the supervisor view, any) and counts one cycle later; it is
held for a pre-empted job while its die has room, and discarded where there is neither. -/
def Parts.RemoteIncrementsArrive : Prop :=
  ∀ (s : State) (n : Nat) (i : RIncr), s.incs[n]? = some i →
    let u := { s with incs := s.incs.eraseIdx n }
    let k := s.bank i.bank
    let taken := k.started && (i.seq.isNone || i.seq == some k.seq)
    (taken = true → exec (.remoteIncrement n) s =
      .next (u.setBank i.bank { k with incs := k.incs ++ [⟨i.flag, s.cycle + 1, .s, true, false⟩] })) ∧
    (taken = false → (∀ q, i.seq = some q → s.savedOn i.bank q = false) → exec (.remoteIncrement n) s = .next u) ∧
    (∀ q, taken = false → i.seq = some q → s.savedOn i.bank q = true → (s.die (bankDie i.bank)).heldIncs.length < 1024 →
      ∃ t, exec (.remoteIncrement n) s = .next t ∧ t = { u with dies := t.dies } ∧
        (t.die (bankDie i.bank)).heldIncs = (s.die (bankDie i.bank)).heldIncs ++ [i]) ∧
    (∀ q, taken = false → i.seq = some q → s.savedOn i.bank q = true → 1024 ≤ (s.die (bankDie i.bank)).heldIncs.length →
      exec (.remoteIncrement n) s = .next s)

/-- R18, R92: a result lands after its issue cycle, writes its register and makes its word's increment; while an older or newer result of
the register is in flight, nothing is written. An operation with nothing left to access completes: its slots fill, it is gone, and its
increment is made. -/
def Parts.ResultsAndOperationsComplete : Prop :=
  ∀ (s : State) (b : Nat), (∀ j n g a, (s.bank b).blocked ≠ some ⟨.fence j n, g, a⟩) →
    let k := s.bank b
    let made := fun (p : Point) (sig : BitVec 8) => if sigMode sig = 1 ∨ sigMode sig = 3 then
      [(⟨sigFlag sig, s.cycle + 1, p, false, decide (sigMode sig = 3)⟩ : Incr)] else []
    (∀ p d, p ∈ k.pend → (∀ q ∈ k.pend, q.id = p.id → q = p) → p.dest = .reg d → d ≠ 0 → p.landed = false → p.issued < s.cycle →
      p.page = none → p.denied = none →
      ∃ t, exec (.sResultLand b p.id) s = .next t ∧ s.onlyBank t b ∧ (t.bank b).incs = k.incs ++ made .s p.signal ∧
        (∀ r, r ≠ d → (t.bank b).sregs.get ⟨0, false⟩ r = k.sregs.get ⟨0, false⟩ r) ∧
        ((∀ q ∈ k.pend, q.dest = .reg d → q = p) →
          (t.bank b).sregs.get ⟨0, false⟩ d = ⟨p.val, p.poison⟩ ∧ (t.bank b).pendingReg d = false) ∧
        ((∃ q ∈ k.pend, q.dest = .reg d ∧ q ≠ p ∧ q.landed = false) → (t.bank b).sregs = k.sregs)) ∧
    (∀ o, k.ops.find? (fun x => x.id == o.id) = some o → o.todo = .none → o.ready ≤ s.cycle → o.parked = false → k.held = [] →
      (∀ e ∈ o.effs, ∃ q i x, e = .fill q i x) →
      ∃ t, exec (.wordCompletion b o.id) s = .next t ∧ s.onlyBank t b ∧
        (t.bank b).ops = k.ops.filter (fun x => x.id != o.id) ∧ (t.bank b).incs = k.incs ++ made o.point o.signal ∧
        (∀ q i x, o.effs = [.fill q i x] → ((t.bank b).queue q).slots =
          (k.queue q).slots.map (fun y => if y.id = i then { y with data := some x } else y)) ∧
        t.bank b = { k with ops := (t.bank b).ops, incs := (t.bank b).incs, queues := (t.bank b).queues })

/-- R18, R23, R98, R166, R206 to R208, R226, R229, R231, R236 to R239, R292: what an operation does to memory when its time has come. In
the local window VLD and VGATH read their bytes, and write none; VST, VSCAT, CFILL, CCOPY, CGATH and CSCAT write the bytes of their runs, a
later run over an earlier one, and no others; CZC sets the bit of each granule of its box to whether it holds a byte that is not zero; and a
row of MDRAIN is written with its scales, and cleared where the word asks for it. Wherever else their accesses go, VST, CFILL and the moves
complete once all are made, and stop at the first that fails. -/
def Parts.OperationsMoveTheirBytes : Prop :=
  ∀ (s : State) (b : Nat) (o : Op), s.performs b o = true →
    let done := fun (t : State) => exec (.wordCompletion b o.id) s = .next t ∧ (t.bank b).ops = (s.bank b).ops.filter (fun x => x.id != o.id)
    (∀ runs q slot, loadOf o.todo = some (runs, q, slot) → runs.length ≤ 64 → s.ownRuns b runs = true → s.cleanRuns b runs →
      ∃ t e, done t ∧ (∀ u x, t.peek u x = s.peek u x) ∧ (∀ j, j < 256 → elemByte e j = s.streamByte b runs j) ∧
        ((t.bank b).queue q).slots = ((s.bank b).queue q).slots.map (fun y => if y.id = slot then { y with data := some e } else y)) ∧
    (∀ runs f, storeOf o = some (runs, f) → s.memWf = true → s.ownRuns b runs = true →
      (∀ d pat, o.todo = .fill d pat → pat < 2 ^ (mapType d).width) →
      ∃ t, done t ∧ ∀ u x, t.peek u x = written b f runs u x (s.peek u x)) ∧
    (∀ r d src dst, moveOf o = some (r, d, src, dst) → mapZc r = false → mapZc d = false → s.memWf = true →
      s.ownRuns b src = true → s.cleanRuns b src → s.ownRuns b dst = true →
      ∃ t, done t ∧ (∀ u x, ¬runsHold b dst u x → t.peek u x = s.peek u x) ∧
        ((∀ u x, runsHold b dst u x → ¬runsHold b src u x) →
          ∀ u x, t.peek u x = written b (s.streamByte b src) dst u x (s.peek u x))) ∧
    (∀ r, o.todo = .zc r → s.memWf = true →
      let gs := granules r o.lay
      let whole := gs.map (fun l => (0, l, 64))
      let bits := gs.map (fun l => (0, zcByte r l, 1))
      s.ownRuns b whole = true → s.cleanRuns b whole → s.ownRuns b bits = true → s.cleanRuns b bits →
      (∀ u x, runsHold b bits u x → ¬runsHold b whole u x) →
      ∃ t, done t ∧ ∀ u x, t.peek u x = gs.foldl (fun v l =>
        let on := (List.range 64).any (fun i => s.streamByte b [(0, l, 64)] i != 0)
        let bit : Byte := 1#8 <<< (zcGranule r l % 8)
        written b (fun _ => if on then v ||| bit else v &&& ~~~bit) [(0, zcByte r l, 1)] u x v) (s.peek u x)) ∧
    (∀ tile d sc ot rm nr r0 clr row, o.todo = .mdrain tile d sc none ot rm nr r0 clr row → row < nr → s.memWf = true →
      (s.bank b).rowBusy o.id tile (r0 + row) = false → (s.core (bankCore b)).tileErr.contains (tile, r0 + row) = false →
      mapZc d = false → mapZc sc = false →
      let runs := boxPart d none (32 * ot.width * row) (32 * ot.width * (row + 1))
      let scales := if drainMx ot then boxPart sc none (8 * row) (8 * (row + 1)) else []
      let out := drainRow ot rm ((s.tile b tile).row (r0 + row))
      s.ownRuns b runs = true → s.ownRuns b scales = true →
      ∃ t o', exec (.wordCompletion b o.id) s = .next t ∧
        (t.bank b).ops = (s.bank b).ops.map (fun x => if x.id = o.id then o' else x) ∧
        o'.todo = .mdrain tile d sc none ot rm nr r0 clr (row + 1) ∧
        (t.tile b tile).row (r0 + row) = (if clr then zeroRow else (s.tile b tile).row (r0 + row)) ∧
        ∀ u x, t.peek u x = written b (fun j => BitVec.ofNat 8 (out.2 / 256 ^ j)) scales u x
          (written b (fun j => BitVec.ofNat 8 (out.1 / 256 ^ j)) runs u x (s.peek u x))) ∧
    (∀ v, s.accessOf b o = some (v, none) → exec (.wordCompletion b o.id) s = .next ((v.finishOp b o).takeHeld b)) ∧
    (∀ v x, s.accessOf b o = some (v, some x) →
      (∀ ea d, o.todo = .vst ea d → exec (.wordCompletion b o.id) s = .next ((v.stopOp b o x).takeHeld b)) ∧
      (∀ c w, x = .fault c w → exec (.wordCompletion b o.id) s = .next (((v.failOp b o []).faultE b o.point c w o.pos).takeHeld b)))

/-- R26, R148, R181: a ring word fetched ahead is the scratchpad's word at the issue point's position, where PUSH or a preload was the
last to write it and no other ring of the bank holds it; an S word fetched ahead is the word at pc, and a fetch that fails, or that finds
no page, raises nothing. -/
def Parts.FetchingAhead : Prop :=
  ∀ (s : State) (b : Nat), (s.bank b).running = true →
    let k := s.bank b
    (∀ p, p ≠ .s → s.fetchable b p ≠ 0 → k.ringBuf.find? p.index = none →
      let sp := (s.core (bankCore b)).sp
      let a := ringAddr (k.ring (Point.engine p)) (k.pointPos p)
      s.ringSpoilt b p (k.pointPos p) = false → exec (.ringFetch b p) s = .next (s.setBank b { k with
        ringBuf := k.ringBuf.set p.index (k.pointPos p, BitVec.ofNat 64 (sp.load a 8), sp.marked a 8) })) ∧
    (k.fetched.any (fun x => x.1 == k.pc.toNat) = false →
      (∀ u w bad, s.fetchWord b k.pc = (u, .word w bad) →
        exec (.sFetch b) s = .next (u.modBank b (fun k => { k with fetched := k.fetched ++ [(k.pc.toNat, w, bad)] }))) ∧
      (∀ u t, s.fetchWord b k.pc = (u, .trap t) → exec (.sFetch b) s = .next s) ∧
      (∀ u r, s.fetchWord b k.pc = (u, .page r) → exec (.sFetch b) s = .next s))

/-- R18, R20 to R22, R26, R92, R148, R206 to R208, R236 to R239, R292: increments, results, fetching ahead, and the bytes that operations
move, with every byte that they leave. -/
def Obligations.AgentsOfABank : Prop :=
  Parts.FlagUnitCountsItsIncrements ∧ Parts.RemoteIncrementsArrive ∧ Parts.ResultsAndOperationsComplete ∧ Parts.OperationsMoveTheirBytes
  ∧ Parts.FetchingAhead

/-- R20, R33, R112, R129, R438: a waiting PHASE, WAITF, PARK or FTIME.until completes when what it waits for has come, and otherwise waits
on. WAITF and PARK are evaluated once a cycle and after the words ranked before them; the result of WAITF lands where no other one of its
register is in flight. -/
def Parts.WaitsEnd : Prop :=
  ∀ (s : State) (b : Nat),
    let k := s.bank b
    (∀ l g a, k.blocked = some ⟨.phase l, g, a⟩ → exec (.phaseBarrierComplete b) s =
      .next (if s.phaseComplete b l then s.phaseEnd b l else s)) ∧
    (k.parked = [] → k.freeze = none →
      (∀ d f n peek g a w, k.blocked = some ⟨.waitf d f n peek, g, a⟩ → k.waiterOf .s = some w → k.judgedAt s.cycle .s = false →
        k.overtakes s.cycle .s f w.rank = false →
        (n ≤ k.flag f →
          ∃ t, exec (.waitfComplete b) s = .next t ∧ s.onlyBank t b ∧ (t.bank b).blocked = none ∧
            (t.bank b).flag f = (if peek then k.flag f else k.flag f - n) ∧ (∀ x, x ≠ f → (t.bank b).flag x = k.flag x) ∧
            (d ≠ 0 → k.pendingReg d = false → (t.bank b).sregs.get ⟨0, false⟩ d = ⟨BitVec.ofNat 64 (k.flag f), false⟩)) ∧
        (k.flag f < n → ∃ t, exec (.waitfComplete b) s = .next t ∧ t = s.setBank b { k with waiters := (t.bank b).waiters })) ∧
      (∀ f g a w, k.blocked = some ⟨.park f, g, a⟩ → k.waiterOf .s = some w → k.judgedAt s.cycle .s = false →
        k.overtakes s.cycle .s f w.rank = false →
        (1 ≤ k.flag f →
          ∃ t, exec (.parkWake b) s = .next t ∧ s.onlyBank t b ∧ (t.bank b).blocked = none ∧ (t.bank b).flag f = k.flag f - 1 ∧
            (∀ x, x ≠ f → (t.bank b).flag x = k.flag x) ∧ (t.bank b).sregs = k.sregs) ∧
        (k.flag f = 0 → ∃ t, exec (.parkWake b) s = .next t ∧ t = s.setBank b { k with waiters := (t.bank b).waiters })) ∧
      (∀ d v g a, k.blocked = some ⟨.ftime d v, g, a⟩ → exec (.ftimeUntilTargetReached b) s =
        .next (if v.toNat ≤ s.ft then s.unblock b (some (d, BitVec.ofNat 64 s.ft)) else s)))

/-- R34, R127: a running job no stream of which has issued in WDOG.LIMIT times 1,024 whole cycles takes TCAUSE 0x13 from S, also while S
waits in a blocking word; that word resumes at EPC, or runs again there without its WAIT, as ESTAT.WD will say (R23, R152). With LIMIT 0,
before then, and once all four streams have reached the rendezvous, the watchdog does nothing. -/
def Parts.WatchdogBites : Prop :=
  ∀ (s : State) (b : Nat),
    let k := s.bank b
    let limit := (k.cw cwWDOG).toNat % 2 ^ 24
    (limit = 0 ∨ s.cycle ≤ k.idleSince + limit * 1024 → exec (.watchdogExpiry b) s = .next s) ∧
    let atEnd := (∃ e g a, k.blocked = some ⟨.rendez e, g, a⟩) ∧ k.atRendezvous .v = true ∧ k.atRendezvous .c = true ∧ k.atRendezvous .m = true
    (atEnd → exec (.watchdogExpiry b) s = .next s) ∧
    (limit ≠ 0 → k.idleSince + limit * 1024 < s.cycle → k.parked = [] → k.freeze = none → ¬ atEnd →
      (∃ j, k.job = some j ∧ j.phase = .running) →
      (k.blocked = none ∨ k.resumable = true →
        exec (.watchdogExpiry b) s = .next ((s.setBank b { k with idleSince := s.cycle }).freezeBy b (some .s) 0x13 0 0)) ∧
      (k.blocked ≠ none → k.resumable = false → ∃ t, exec (.watchdogExpiry b) s = .next t ∧ s.onlyBank t b ∧
        (t.bank b).blocked = none ∧ (t.bank b).skipWait = true ∧ (t.bank b).pc = k.pc ∧ (t.bank b).sregs = k.sregs ∧
        (t.bank b).freeze.map (fun f => (f.point, f.cause, f.value, f.pos)) = some (some .s, 0x13, 0, 0)))

/-- R142, R155, R312, R414, R390: at a word boundary outside trap state, a held fallback and a re-shard's fault freeze the job with their
causes, and an enabled core event and a pre-emption are taken with theirs (that the fallback comes first, and then the re-shard's fault, is
the model's order, log 15); a frozen job with nothing in flight ends in its record and
trap. -/
def Parts.BoundariesTakeTraps : Prop :=
  ∀ (s : State) (b : Nat),
    let k := s.bank b
    (k.atBoundary = true → k.ts = false → k.held = [] →
      (∀ v, k.reshardTrap = some v →
        exec (.trapEntry b) s = .next ((s.setBank b { k with reshardTrap := none }).freezeBy b (some .s) 0x15 v 0)) ∧
      (k.reshardTrap = none → k.eie = true → k.cw cwCEVT ≠ 0 →
        exec (.trapEntry b) s = .next (s.takeRequest b ⟨0x11, k.cw cwCEVT⟩ k.pc)) ∧
      (k.reshardTrap = none → k.eie = false ∨ k.cw cwCEVT = 0 → exec (.trapEntry b) s = .next s)) ∧
    (∀ v pos t, k.atBoundary = true → k.ts = false → k.held = (v, pos) :: t →
      exec (.trapEntry b) s = .next ((s.setBank b { k with held := t }).freezeBy b (some .c) 0x0D v pos)) ∧
    (k.atBoundary = false → exec (.trapEntry b) s = .next s) ∧
    (k.preempt = true → k.stopS = false → k.ts = false → k.loopAct = false → k.atBoundary = true →
      (∀ d g a, k.blocked ≠ some ⟨.yielded d, g, a⟩) →
      ∃ t, exec (.preemptionLanding b) s = .next t ∧ (t.bank b).cw cwTCAUSE = 0x0F ∧ (t.bank b).cw cwTVAL = 0 ∧
        (t.bank b).cw cwEPC = wordAddr k.pc ∧ (t.bank b).pc = k.cw cwTVEC ∧ (t.bank b).stopS = true ∧ (t.bank b).ts = true ∧
        ∀ x ∈ (t.cluster (bankCluster b)).coll, x.bank = b → x.phase = .cancelled) ∧
    (k.preempt = false → (∀ d g a, k.blocked ≠ some ⟨.yielded d, g, a⟩) → exec (.preemptionLanding b) s = .next s) ∧
    (∀ fr, k.freeze = some fr → (∀ d q w p g a, k.blocked ≠ some ⟨.rdq d q w p, g, a⟩) → (∀ r e g a, k.blocked ≠ some ⟨.evt r e, g, a⟩) →
      exec (.compositeRecordWrite b) s = .next (if k.settled then s.finishFreeze b fr else s)) ∧
    (k.freeze = none → exec (.compositeRecordWrite b) s = .next s)

/-- R33, R112, R127, R129, R142, R155, R390, R438: what ends a wait, and what is taken at a word boundary. -/
def Obligations.WaitsAndTrapsLand : Prop := Parts.WaitsEnd ∧ Parts.WatchdogBites ∧ Parts.BoundariesTakeTraps

/-- R28, R378, R380: a placed job starts at its entry address with every flag 0, every queue empty, nothing in flight, no register
poisoned, no ring closed, and STAT, TVEC, FAREA, JOBID and CTXB as its records say; no other bank changes. The jobs of a launch with GANG
start together. -/
def Parts.JobsStartAsTheManualSays : Prop :=
  ∀ (s : State) (b : Nat) (j : Job) (l : Launch), (s.bank b).job = some j → j.phase = .placed → s.launchOf j.seq = some l →
    (lrGang l.record = true → exec (.jobStart b) s = .next (l.jobs.foldl (fun (s : State) p => s.startJob l p.bank) s)) ∧
    (lrGang l.record = false → exec (.jobStart b) s = .next (s.startJob l b)) ∧
    (l.submitter = none → ∃ t, s.startJob l b = t ∧ (∀ x, x ≠ b → t.bank x = s.bank x) ∧
      (t.bank b).job = some { j with phase := .running } ∧ (t.bank b).pc = BitVec.ofNat 64 (jrEntry j.record) ∧
      (∀ f, (t.bank b).flag f = 0) ∧ (∀ q, (t.bank b).queue q = Queue.fresh) ∧ (t.bank b).ops = [] ∧ (t.bank b).pend = [] ∧
      (t.bank b).incs = [] ∧ (t.bank b).targets = [] ∧ (t.bank b).parked = [] ∧ (t.bank b).freeze = none ∧ (t.bank b).blocked = none ∧
      (∀ r, ((t.bank b).sregs.get ⟨0, false⟩ r).poison = false) ∧
      (t.bank b).sv = false ∧ (t.bank b).ts = false ∧ (t.bank b).eie = j.record.getLsbD 53 ∧
      (t.bank b).cw cwTVEC = BitVec.ofNat 64 (jrTvec j.record / 8 * 8) ∧ (t.bank b).cw cwFAREA = BitVec.ofNat 64 (jrFarea j.record) ∧
      (t.bank b).cw cwJOBID = BitVec.ofNat 64 (j.seq % 2 ^ 32 + j.jidx * 2 ^ 32 + j.tag * 2 ^ 48) ∧
      (∀ e, ringClosed ((t.bank b).ring e) = false) ∧
      ((t.bank b).cw cwCTXB).getLsbD 1 = j.paired ∧ (t.bank b).tlb = (s.bank b).tlb ∧ (t.core (bankCore b)).ic = [])

/-- R30, R379, R387: a job all of whose streams are at the rendezvous, with nothing of it in flight, is published and retired; one that may
be saved is saved; either way its bank has no job, flag, queue slot, control word or operation, its core's L1 nothing dirty, its translation
buffer stays, and no other bank changes. A retired job's s registers keep their last values (log 78). A job that still has something in
flight stays. -/
def Parts.JobsLeaveTheirBanks : Prop :=
  ∀ (s : State) (b : Nat) (j : Job), (s.bank b).job = some j →
    let gone := fun (t : State) => (t.bank b).job = none ∧ (t.bank b).flags = [] ∧ (t.bank b).queues = [] ∧
      (t.bank b).ctl = [] ∧ (t.bank b).ops = [] ∧ (t.bank b).tlb = (s.bank b).tlb ∧
      (t.core (bankCore b)).l1.all (fun l => l.dirty == 0) = true
    (∀ e g a, (s.bank b).blocked = some ⟨.rendez e, g, a⟩ →
      ((s.bank b).retiring = true → (s.bank b).awake = true → s.sentAll b = true → (s.bank b).pend.all (fun p => p.landed) = true →
        ∃ t, exec (.jobRetire b) s = .next t ∧ gone t ∧ (t.bank b).sregs = (s.bank b).sregs ∧ (∀ x, x ≠ b → t.bank x = s.bank x)) ∧
      ((s.bank b).retiring = false ∨ s.sentAll b = false → exec (.jobRetire b) s = .next s)) ∧
    (s.maySave b = true → ∃ t, exec (.preemptSave b) s = .next t ∧ gone t ∧ (t.bank b).sregs = [] ∧ (∀ x, x ≠ b → t.bank x = s.bank x)) ∧
    (s.maySave b = false → exec (.preemptSave b) s = .next s)

/-- R28, R30, R378, R387: a job's start, its retirement and its save. -/
def Obligations.LivesOfJobs : Prop := Parts.JobsStartAsTheManualSays ∧ Parts.JobsLeaveTheirBanks

/-- R379 to R382, R386, R389, R396: what Zenith does with a launch: a round of issue, an aging head, a status record at the end, a kill, a
pre-emption, a resumption on its own banks, and the agents' reports. -/
def Parts.ZenithServesItsLaunches : Prop :=
  ∀ (s : State) (pkg seq : Nat) (q : BitVec 32) (l : Launch),
    exec (.launchIssue pkg) s = .next (s.zenithRound pkg) ∧
    (((s.hub pkg).reg 0x20000).getLsbD 0 = false → exec (.launchIssue pkg) s = .next s) ∧
    (∀ n h t, (s.hub pkg).level n = h :: t → n < 7 →
      let period := max 1 (((s.hub pkg).reg 0x20010).toNat % 2 ^ 24) * 1024
      (s.cycle < h.since + period → exec (.launchAging pkg n) s = .next s) ∧
      (h.since + period ≤ s.cycle → exec (.launchAging pkg n) s = .next (s.setHub pkg { s.hub pkg with
        launches := (s.hub pkg).launches.filter (fun x => x.seq != h.seq) ++ [{ h with level := n + 1, since := s.cycle }] }))) ∧
    ((s.hub pkg).launches.find? (fun x => x.seq == seq && x.phase == .ended) = some l →
      ∃ t, exec (.launchEnd pkg seq) s = .next t ∧ (t.hub pkg).launches = (s.hub pkg).launches.filter (fun x => x.seq != seq) ∧
        (∀ d x, (d, x) ∈ t.dies → ∀ e ∈ x.layouts, e.seq ≠ seq) ∧
        (l.submitter = none → s.hdm = [] → lrStaddr l.record % 64 = 0 → s.hostMem.wf = true → ∀ i, i < 64 →
          t.hostMem.byte (lrStaddr l.record + i) = BitVec.ofNat 8 (l.status seq / 256 ^ i))) ∧
    (q.toNat / 2 ^ 21 ≠ pkg → exec (.zkill pkg q) s = .next s ∧ exec (.zpre pkg q) s = .next s) ∧
    (q.toNat / 2 ^ 21 = pkg → s.launchOf q.toNat = none → exec (.zkill pkg q) s = .next s ∧ exec (.zpre pkg q) s = .next s) ∧
    (q.toNat / 2 ^ 21 = pkg → s.launchOf q.toNat = some l →
      (l.phase = .queued → ∃ t, exec (.zkill pkg q) s = .next t ∧ t.agenda = .event (.launchEnd pkg q.toNat) :: s.agenda ∧
        (∀ x ∈ (t.hub pkg).launches, x.seq = q.toNat → x.phase = .ended) ∧ t.banks = s.banks) ∧
      (l.phase ≠ .queued → exec (.zkill pkg q) s = .next (s.killLaunch q.toNat)) ∧
      (l.phase = .live → l.jobs.any (fun p => !p.over && !(s.bank p.bank).retiring) = true →
        ∃ t, exec (.zpre pkg q) s = .next t ∧ (∀ p ∈ l.jobs, p.over = false → (t.bank p.bank).preempt = true) ∧
          ∀ x ∈ (t.hub pkg).launches, x.seq = q.toNat → x.phase = .preempting)) ∧
    (∀ d, ∃ t, exec (.agentFreeReport d) s = .next t ∧ (t.die d).report = s.freeCounts d ∧ t = { s with dies := t.dies }) ∧
    (s.launchOf seq = some l → l.phase = .preempted → pkgOfSeq seq = pkg → s.banksFree l [] = true →
      (∃ t, (s.hub pkg).level l.level = l :: t) → (∀ n, l.level < n → (s.hub pkg).level n = []) → l.level < 8 →
      (∀ d, (s.die d).rasm.length + (l.jobs.map (fun p => ((s.die d).rasmKept.filter (fun e => e.bank == p.bank && e.seq == seq)).length)).sum ≤ 256) →
      (s.hub pkg).stopped = false → ((s.hub pkg).reg 0x20000).getLsbD 0 = true →
      exec (.launchResume pkg seq) s = .next (l.jobs.foldl (fun (s : State) p => s.resumeBank seq p)
        (s.modLaunch seq (fun l => { l with phase := .live, issuedAt := s.cycle }))))

/-- R374, R379: a record that the host writes while Zenith is usable is accepted when the queue has room and no reserved bit is set, with a
sequence number of its package; with no room its status is 0x01, and with a reserved bit 0x02, written at its STADDR. -/
def Parts.HostSubmitsLaunches : Prop :=
  ∀ (s : State) (pkg : Nat) (r : BitVec 512), (s.die (pkgDie pkg 0)).isReady 6 = true →
    let tag := r.toNat / 2 ^ 384 % 2 ^ 64
    (0 < (s.hub pkg).qfree → launchReserved r = false →
      ∃ t l, exec (.hostLaunchWrite pkg r) s = .next t ∧ (t.hub pkg).launches = (s.hub pkg).launches ++ [l] ∧ l.record = r ∧
        l.phase = .queued ∧ l.submitter = none ∧ l.level = lrPrio r ∧ l.seq / 2 ^ 21 = pkg ∧ l.seq % 2 ^ 21 ≠ 0 ∧
        t = { s with hubs := t.hubs }) ∧
    ((s.hub pkg).qfree = 0 → exec (.hostLaunchWrite pkg r) s = .next (s.hostWrite (lrStaddr r) 64 (0x01 * 2 ^ 32 + tag * 2 ^ 192))) ∧
    (0 < (s.hub pkg).qfree → launchReserved r = true →
      exec (.hostLaunchWrite pkg r) s = .next (s.hostWrite (lrStaddr r) 64 (0x02 * 2 ^ 32 + tag * 2 ^ 192)))

/-- R374, R379 to R382, R386, R389, R396: a launch from its record to its status. -/
def Obligations.LivesOfLaunches : Prop := Parts.HostSubmitsLaunches ∧ Parts.ZenithServesItsLaunches

/-- R98, R335, R394, R395, R422: translation and its answers. An answer with another tag changes nothing; a grant that now translates
frees the bank's wait; a denial and an expired time limit (that of the package of the unit that made the request: log 52) take the denial
of R98, which freezes the job with cause 0x07 and the address, an S result then being poisoned and an operation gone; a shoot-down drops
the page from every translation buffer of the domain and then sets DONE. -/
def Parts.PagesAndShootdowns : Prop :=
  ∀ (s : State) (d n : Nat) (tag : BitVec 16) (r : PageReq) (b : Nat) (va v : W64) (wr : Bool),
    (∀ e, apFind (s.bank b).apertures va.toNat = some e → apPaged e = true → (s.bank b).started = true →
      (∀ u root h, s.translatePaged b va.toNat (apRoot e) wr = (u, .absent root h) →
        exec (.translationRequest b va wr) s = .next (u.parkFor b 0 va.toNat wr root)) ∧
      (∀ u pa leaf pg, s.translatePaged b va.toNat (apRoot e) wr = (u, .pa pa leaf pg) → exec (.translationRequest b va wr) s = .next u)) ∧
    ((s.die d).requests.find? (fun x => x.rqn == n) = some r →
      (r.tag % 2 ^ 16 ≠ tag.toNat → exec (.pageAnswerGrant d n tag) s = .next s ∧ exec (.pageAnswerDeny d n tag) s = .next s) ∧
      (r.tag % 2 ^ 16 = tag.toNat →
        exec (.pageAnswerDeny d n tag) s = .next (s.denyRequest d r) ∧
        (r.banks = [] → exec (.pageAnswerGrant d n tag) s = .next (s.takeRequestOf d n).sendWaiting) ∧
        (∀ p u pa leaf pg, r.banks = [b] → (s.bank b).parked = [p] → r.serves p = true →
          (s.takeRequestOf d n).translatePaged b p.va p.root p.wr = (u, .pa pa leaf pg) → (s.bank b).parked = (u.bank b).parked →
          exec (.pageAnswerGrant d n tag) s = .next ((((u.modBank b (fun k => { k with parked := [] })).retryPend b p.id).resumeParked b).sendWaiting))) ∧
      (let limit := ((s.hub (pkgOf d)).reg 0x20038).toNat % 2 ^ 16
       (limit = 0 ∨ s.cycle < r.made + limit * 2 ^ 20 → exec (.pageRequestTimeout d n) s = .next s) ∧
       (limit ≠ 0 → r.made + limit * 2 ^ 20 ≤ s.cycle → exec (.pageRequestTimeout d n) s = .next (s.denyRequest d r)))) ∧
    (∀ p o, (s.bank b).freeze = none → (s.bank b).ops.find? (fun o => o.id == p.id) = some o →
      let k := (s.denyOne b p).bank b
      k.freeze.map (fun f => (f.point, f.cause, f.value, f.pos)) = some (some o.point, 0x07, BitVec.ofNat 64 p.va, o.pos) ∧
      k.parked = (s.bank b).parked.filter (fun q => q != p) ∧ k.ops = (s.bank b).ops.filter (fun x => x.id != o.id)) ∧
    (∀ p q, (s.bank b).freeze = none → (s.bank b).ops.find? (fun o => o.id == p.id) = none → (s.bank b).pend = [q] → q.id = p.id →
      let k := (s.denyOne b p).bank b
      k.freeze.map (fun f => (f.point, f.cause, f.value, f.pos)) = some (some .s, 0x07, BitVec.ofNat 64 p.va, 0) ∧
      ∃ x, k.pend = [x] ∧ x.poison = true ∧ x.dest = q.dest ∧ x.page = none) ∧
    (v.getLsbD 15 = true → (s.die d).shootPend = [] →
      ∃ t, exec (.shootdownGo d v) s = .next t ∧ (t.die d).shootPend ≠ [] ∧ ((t.die d).reg 0x10048).getLsbD 16 = false ∧
        ∀ x k, (x, k) ∈ t.banks → ∀ e ∈ k.tlb,
          ¬ (e.page = ((s.die d).reg 0x10040).toNat / 2 ^ 16 % 2 ^ 32 ∧ paDie e.root = v.toNat % 2 ^ 14)) ∧
    ((s.die d).shootPend ≠ [] → exec (.shootdownDone d) s = .next (s.setDie d { (s.die d).setReg 0x10048 ((s.die d).reg 0x10048 ||| 0x10000) with shootPend := [] }))

/-- R337, R344, R350, R367, R418, R419, R458: accesses at home: a masked write puts the bytes its mask names into its line, valid and
dirty, and no other byte of it changes; a read answers its bytes and their markers; the bank ALU is one read and write; the gateway, the
host and a reduce read answer what their paths give; a launch record that the host writes to a die whose Zenith unit is not usable is
discarded (R426); the scrubber reads the word that its input names (log 54) unless it is stopped. That an offset from hostBase on names
the host's own memory is the model's choice (log 64). -/
def Parts.MemoryRequests : Prop :=
  ∀ (s : State) (d off n : Nat),
    (∀ data mask, ∃ t, exec (.mscMaskedWrite d off data mask) s = .next t ∧ t = { s with dies := t.dies } ∧ (∀ x, x ≠ d → t.die x = s.die x) ∧
      ∃ l, (t.die d).mscFind (off / 256) = some l ∧
        ∀ i, i < 64 → mask.getLsbD i = true →
          l.valid.getLsbD (off / 64 % 4 * 64 + i) = true ∧ l.dirty.getLsbD (off / 64 % 4 * 64 + i) = true ∧
          ∀ j, j < 8 → l.data.getLsbD ((off / 64 % 4 * 64 + i) * 8 + j) = data.getLsbD (8 * i + j)) ∧
    (∀ data mask l, (s.die d).mscFind (off / 256) = some l → ∃ t l', exec (.mscMaskedWrite d off data mask) s = .next t ∧
      (t.die d).mscFind (off / 256) = some l' ∧ ∀ i j, i < 256 → j < 8 →
        (i / 64 ≠ off / 64 % 4 ∨ mask.getLsbD (i % 64) = false) → l'.data.getLsbD (8 * i + j) = l.data.getLsbD (8 * i + j)) ∧
    (∀ use dead u v bad, (s.die d).homeRead off n use.toNat dead (n / 256 + 2) = (u, v, bad) →
      exec (.mscRead d off n use dead) s = .next ((s.setDie d u).reads (leBytes n v) (u.wordMarks off n))) ∧
    (∀ op size x u old bad, op.toNat ≤ 9 →
      s.homeAtomic (d * 2 ^ 42 + off) (2 ^ size.toNat) (fun o => some (amoOp op.toNat (2 ^ size.toNat) o (x.toNat % 256 ^ 2 ^ size.toNat))) = (u, old, bad) →
      exec (.mscBankAluOp d off op size x) s = .next (u.reads (leBytes (2 ^ size.toNat) old) (if bad then 1 else 0))) ∧
    (∀ b u v bad, s.physRead b off n 0 false (n / 256 + 2) = (u, v, bad) →
      exec (.gatewayRead b off n) s = .next (u.reads (leBytes n v) (if bad then ones (ceilDiv n 8) else 0))) ∧
    (∀ pkg u v bad, off < 2 ^ 39 → s.homeLoad (pkgDie pkg (off / 2 ^ 36) * 2 ^ 42 + off % 2 ^ 36) n = (u, v, bad) →
      exec (.hostMemRead pkg off n) s = .next (u.reads (leBytes n v) ((u.die (pkgDie pkg (off / 2 ^ 36))).wordMarks (off % 2 ^ 36) n))) ∧
    (∀ pkg, 2 ^ 39 ≤ off → off < hostBase →
      exec (.hostMemRead pkg off n) s = .next ((s.afterCtl (ctlReadEvents (pkgDie pkg (off / 2 ^ 30 % 8)) (off % 2 ^ 30) n)).reads
        (leBytes n (s.ctlBytes (pkgDie pkg (off / 2 ^ 30 % 8)) (off % 2 ^ 30) n)) 0)) ∧
    (∀ pkg data, off < 2 ^ 39 → exec (.hostMemWrite pkg off data) s = .next (s.setDie (pkgDie pkg (off / 2 ^ 36))
      ((s.die (pkgDie pkg (off / 2 ^ 36))).write (off % 2 ^ 36) data.length (leNat data) false))) ∧
    (∀ pkg, hostBase ≤ off → exec (.hostMemRead pkg off n) s = .next (s.reads (leBytes n (s.hostMem.load (off - hostBase) n)) 0)) ∧
    (∀ pkg data, hostBase ≤ off → exec (.hostMemWrite pkg off data) s =
      .next { s with hostMem := s.hostMem.write (off - hostBase) data.length (leNat data) false }) ∧
    (∀ pkg data, 2 ^ 39 ≤ off → off < hostBase → 0x8000 ≤ off % 2 ^ 30 → off % 2 ^ 30 < 0x9000 → off % 64 = 0 → data.length = 64 →
      exec (.hostMemWrite pkg off data) s =
        .next (if (s.die (pkgDie pkg (off / 2 ^ 30 % 8))).isReady 6 then
          { s with agenda := .event (.hostLaunchWrite pkg (BitVec.ofNat 512 (leNat data))) :: s.agenda } else s)) ∧
    (((s.die d).reg 0x10030).toNat % 2 ^ 16 = 0 → exec (.patrolScrub d off) s = .next s) ∧
    (((s.die d).reg 0x10030).toNat % 2 ^ 16 ≠ 0 →
      exec (.patrolScrub d off) s = .next (s.setDie d ((s.die d).scan (off / 8) 1))) ∧
    (∀ seq u l marks, s.reduceLine d seq off = (u, l, marks) →
      exec (.reduceRead d seq off) s = .next (u.reads (leBytes 256 l.toNat) marks))

/-- R335, R337, R344, R350, R394, R395, R419, R422, R458: page requests, shoot-downs and accesses at home. -/
def Obligations.PagesAndMemory : Prop := Parts.PagesAndShootdowns ∧ Parts.MemoryRequests

/-- R345, R348, R412, R436, R437, R446, R428: the registers that other agents move. A swap of a table that is not whole, or on a pending
one, sets ERR; a pending one is installed at the next multiple of 256 cycles of the die, counted from its bring-up (log 49), after its
write; synchronisation sets and clears SYNC; a window moves the throttle level by at most one between its floor and 7. -/
def Parts.DieRegistersMove : Prop :=
  ∀ (s : State) (d : Nat),
    let x := s.die d
    let w := x.reg 0x10000
    let only := fun (t : State) => t = { s with dies := t.dies } ∧ ∀ y, y ≠ d → t.die y = s.die y
    (∃ t, exec (.jsctlSwap d) s = .next t ∧ only t ∧
      ((w.getLsbD 1 = true ∨ x.jsShadowOk = false) → ((t.die d).reg 0x10000).getLsbD 2 = true ∧ (t.die d).jsActive = x.jsActive) ∧
      (w.getLsbD 1 = false → x.jsShadowOk = true → ((t.die d).reg 0x10000).getLsbD 1 = true)) ∧
    (∃ t, exec (.jstabInstall d) s = .next t ∧ only t ∧
      (w.getLsbD 1 = true → (s.cycle - x.born) % 256 = 0 → x.swapAt < s.cycle →
        ((t.die d).reg 0x10000).getLsbD 1 = false ∧ ∀ p l, p < 256 → l < 4 → (t.die d).jsOwner p l = x.jsShadow p l) ∧
      (w.getLsbD 1 = false ∨ (s.cycle - x.born) % 256 ≠ 0 ∨ s.cycle ≤ x.swapAt → t.die d = x)) ∧
    ((x.reg 0x10010).getLsbD 4 = true →
      ∃ t, exec (.replicaDropDone d) s = .next t ∧ only t ∧ (t.die d).replicas = [] ∧ ((t.die d).reg 0x10010).getLsbD 4 = false) ∧
    (∀ wr v, ∃ t, exec (.rsdataAccess d wr v) s = .next t ∧ only t ∧
      (wr = true → v.toNat / 2 ^ 24 % 2 ^ 40 = 0 → x.rsBusy ((x.reg 0x30000).toNat % 4) = false →
        (t.die d).rsTable.find? ((x.reg 0x30000).toNat % 4 * 16384 + (x.reg 0x30000).toNat / 4 % 2 ^ 14) = some v) ∧
      (wr = false → (t.die d).rsTable = x.rsTable) ∧
      ((x.reg 0x30000).getLsbD 16 = true →
        ((t.die d).reg 0x30000).toNat / 4 % 2 ^ 14 = ((x.reg 0x30000).toNat / 4 % 2 ^ 14 + 1) % 2 ^ 14)) ∧
    (∃ t, exec (.ftSyncLost d) s = .next t ∧ only t ∧ ((t.die d).reg 0x100008).getLsbD 6 = false ∧ ((t.die d).reg 0x100008).getLsbD 7 = true) ∧
    (∃ t, exec (.ftSyncAchieved d) s = .next t ∧ only t ∧ ((t.die d).reg 0x100008).getLsbD 6 = true) ∧
    (∃ t, exec (.throttleWindow d) s = .next t ∧ only t ∧ (t.die d).winDefl = 0 ∧ (t.die d).winPos = 0 ∧
      (let th := (x.reg 0x100010).toNat
       let up := th % 16 * x.winPos ≤ 16 * x.winDefl
       let down := 16 * x.winDefl < th / 16 % 16 * x.winPos
       let floor := th / 256 % 8
       floor ≤ x.level → x.level ≤ 7 → floor ≤ (t.die d).level ∧ (t.die d).level ≤ 7 ∧
        (up ∧ ¬ down → (t.die d).level = min 7 (x.level + 1)) ∧ (down ∧ ¬ up → (t.die d).level = max floor (x.level - 1)) ∧
        ((up ↔ down) → (t.die d).level = x.level)))

/-- R7, R8, R397, R423, R426, R427, R429: a control register takes a write only while its function is usable and with no reserved bit set.
The power controller moves the clock step by at most one and asks for a shutdown at 115 degrees, which kills every launch on the package's
dies and stops it; bring-up leaves a die with no job, and with functions that are usable from the next cycle (that all seven are, and that
HBM is kept, are the model's choices, log 28). -/
def Parts.ControlSpaceAndPower : Prop :=
  ∀ (s : State) (d pkg off : Nat) (v : W64),
    (ctlFunction off = none → exec (.controlRegisterWrite d off v) s = .next s) ∧
    (∀ f, ctlFunction off = some f → (s.die d).isReady f = false ∨ v &&& ~~~(BitVec.ofNat 64 (ctlFields off)) ≠ 0 →
      exec (.controlRegisterWrite d off v) s = .next s) ∧
    ((s.die d).isReady 5 = true → v.toNat < 2048 →
      ∃ t, exec (.controlRegisterWrite d 0x100010 v) s = .next t ∧ (t.die d).reg 0x100010 = v ∧
        (t.die d).level = max (s.die d).level (v.toNat / 256 % 8) ∧ t = { s with dies := t.dies }) ∧
    ((s.die d).isReady 0 = true → v.toNat < 65536 →
      exec (.controlRegisterWrite d 0x10030 v) s = .next (s.setDie d ((s.die d).setReg 0x10030 v))) ∧
    ((s.die d).isReady 1 = true → exec (.controlRegisterWrite d 0x20028 v) s =
      .next (if v.toNat < 2 ^ 32 then { s with agenda := .event (.zkill (pkgOf d) (v.setWidth 32)) :: s.agenda } else s)) ∧
    (∀ w c, ∃ t, exec (.powerManagementTick pkg w c) s = .next t ∧
      (let old := ((s.hub pkg).reg 0x50008).toNat % 16
       let new := ((t.hub pkg).reg 0x50008).toNat % 16
       old ≤ 12 → (s.hub pkg).power ≤ 12 → (s.hub pkg).thermal ≤ 12 → new ≤ old + 1 ∧ old ≤ new + 1 ∧ new ≤ 12) ∧
      t.agenda = (if 115 ≤ c then [.event (.thermalShutdown pkg)] else []) ++ s.agenda) ∧
    (∃ t, exec (.thermalShutdown pkg) s = .next t ∧ (t.hub pkg).stopped = true ∧
      (let hit := s.hubs.flatMap (fun (h : Nat × Hub) => (h.2.launches.filter (fun (l : Launch) =>
          l.phase != .ended && (h.1 == pkg || l.diesUsed.any (fun d => pkgOf d == pkg)))).map (fun l => l.seq))
       t = (hit.foldl (fun (u : State) q => u.killLaunch q) s).modHub pkg (fun h => { h with stopped := true }))) ∧
    (∃ t, exec (.bringUp d) s = .next t ∧ (t.die d).up = true ∧ (∀ f, f < 7 → (t.die d).isReady f = false ∧ (t.die d).startCycle.isReady f = true) ∧
      (t.die d).hbm = (s.die d).hbm ∧ (t.die d).regs = [] ∧ (∀ b, bankDie b = d → t.bank b = Bank.reset) ∧
      (∀ b, bankDie b ≠ d → t.bank b = s.bank b) ∧ (∀ y, y ≠ d → t.die y = s.die y))

/-- R7, R8, R345, R348, R397, R412, R426 to R429, R436, R437, R446: the registers of control space and the agents that move them. -/
def Obligations.ControlSpace : Prop := Parts.DieRegistersMove ∧ Parts.ControlSpaceAndPower

/-- R241, R243, R266, R269, R295, R306, R316, R318: the agents of a cluster. An append is performed whole. The array's grant passes to the
next waiting bank when its holder may lose it, and a lease that a pre-emption ends goes first. A plane is valid when its load is over. A
bound stream moves one element when its queue has room or a head, and no earlier command of its stream is in its way. Two ends that name
each other form a link, over which heads move, each within the step that forwards it (log 1), while the other queue has room. A mailbox
entry becomes visible in its cycle and is counted by the master bank that asks for it. -/
def Obligations.ClusterAgents : Prop :=
  ∀ (s : State) (cl b id k : Nat),
    (∀ a, (s.cluster cl).appends[k]? = some a → exec (.cirrusAppend cl k) s =
      .next (((s.setCluster cl { s.cluster cl with appends := (s.cluster cl).appends.eraseIdx k }).append a).appendDone a)) ∧
    (b / 8 = cl → (s.bank b).leaseEnds = true → (∀ o ∈ (s.bank b).ops, o.todo ≠ .mlease) →
      ∃ t, exec (.arrayGrantPass cl) s = .next t ∧ (t.bank b).leaseHeld = false ∧ (t.bank b).leaseOwed = true) ∧
    ((∀ i, i < 8 → (s.bank (8 * cl + i)).leaseEnds = false) → (s.grantEnds cl = false ∨ s.nextHolder cl = none →
      exec (.arrayGrantPass cl) s = .next s) ∧
      ∀ x, s.nextHolder cl = some x → s.grantEnds cl = true →
      ∃ t, exec (.arrayGrantPass cl) s = .next t ∧ (t.cluster cl).array.grant = some x ∧ (t.cluster cl).array.run = 0 ∧
        (t.cluster cl).array.plane1 = Plane.empty ∧ (t.cluster cl).array.active = false) ∧
    (∀ side c, (if side then (s.cluster cl).array.plane1 else (s.cluster cl).array.plane0).loading = some c →
      ∃ t, exec (.planeLoadComplete cl side) s = .next t ∧ t = { s with clusters := t.clusters } ∧
        (let p := if side then (t.cluster cl).array.plane1 else (t.cluster cl).array.plane0
         (c ≤ s.cycle → p.valid = true ∧ p.loading = none) ∧ (s.cycle < c → p.valid = (if side then (s.cluster cl).array.plane1 else (s.cluster cl).array.plane0).valid ∧ p.loading = some c))) ∧
    (∀ o g q left n r, (s.bank b).ops.find? (fun o => o.id == id) = some o → o.ready ≤ s.cycle → (s.bank b).streamsMove = true →
      s.behindOp b o = false →
      let w := elemBytes r
      (∀ x, s.boxStop b o g n r = some x → (o.todo = .bind g q left n r ∨ (o.todo = .sink g q left n r ∧ ((s.bank b).queue q).head ≠ none)) →
        exec (.boundStreamElement b id) s = .next (s.stopOp b o x)) ∧
      (o.todo = .bind g q left n r → s.boxStop b o g n r = none → ((s.bank b).queue q).depth ≤ ((s.bank b).queue q).occupied s.cycle →
        exec (.boundStreamElement b id) s = .next s) ∧
      (o.todo = .sink g q left n r → ((s.bank b).queue q).head = none → exec (.boundStreamElement b id) s = .next s) ∧
      (∀ u v, o.todo = .bind g q left n r → s.boxStop b o g n r = none →
        ((s.bank b).queue q).occupied s.cycle < ((s.bank b).queue q).depth →
        s.runsRead b r (boxPart r o.lay (w * n) (w * (n + 1))) = (u, v, none) →
        exec (.boundStreamElement b id) s = .next (({ u with nextId := u.nextId + 1 }.spend.modBank b (fun k =>
          k.modQueue q (fun x => x.append u.nextId (u.elemOf r n v)))).streamOn b o g left n r (fun l n r => .bind g q l n r))) ∧
      (∀ u e, o.todo = .sink g q left n r → s.boxStop b o g n r = none → ((s.bank b).queue q).head = some e →
        s.runsWrite b r (boxPart r o.lay (w * n) (w * (n + 1))) e.toNat = (u, none) →
        exec (.boundStreamElement b id) s =
          .next ((u.modBank b (fun k => k.modQueue q (fun x => x.pop u.cycle))).streamOn b o g left n r (fun l n r => .sink g q l n r)))) ∧
    (∀ o tx q pb vp, (s.bank b).ops.find? (fun o => o.id == id) = some o → o.todo = .peer tx q pb vp false →
      (s.peerMatch b tx q pb vp = none → exec (.peerLinkForm b id) s = .next s) ∧
      (∀ x q', b ≠ pb → s.peerMatch b tx q pb vp = some x → x.todo = .peer (!tx) vp b q' false →
        ∃ t, exec (.peerLinkForm b id) s = .next t ∧
          (t.bank b).ops = (s.bank b).ops.map (fun y => if y.id = o.id then { o with todo := .peer tx q pb vp true } else y) ∧
          (t.bank pb).ops = (s.bank pb).ops.map (fun y => if y.id = x.id then { x with todo := .peer (!tx) vp b q' true } else y))) ∧
    (∀ o q pb vp z e, b ≠ pb → (s.bank b).ops.find? (fun o => o.id == id) = some o → o.todo = .peer true q pb vp true →
      s.otherEnd b o = some z → ((s.bank b).queue q).head = some e → (s.bank b).streamsMove = true → (s.bank pb).streamsMove = true →
      (((s.bank pb).queue vp).depth ≤ ((s.bank pb).queue vp).occupied s.cycle → exec (.peerElementForward b id) s = .next s) ∧
      (((s.bank pb).queue vp).occupied s.cycle < ((s.bank pb).queue vp).depth →
        ∃ t, exec (.peerElementForward b id) s = .next t ∧ ((t.bank b).queue q).slots = ((s.bank b).queue q).slots.drop 1 ∧
          ((t.bank pb).queue vp).slots = ((s.bank pb).queue vp).slots ++ [⟨agentSlot s.nextId, some e⟩])) ∧
    (∀ e, (s.cluster cl).mail[k]? = some e →
      (s.cycle < e.at_ → exec (.mailboxEntryVisible cl k) s = .next s) ∧
      (e.at_ ≤ s.cycle → ∃ t, exec (.mailboxEntryVisible cl k) s = .next t ∧
        ((∀ i d mode g a, i < 8 → (s.bank (8 * cl + i)).blocked ≠ some ⟨.mbrd d mode, g, a⟩) →
          (∀ i, i < 8 → s.savedOn (8 * cl + i) e.seq = false) →
          t = { s with clusters := t.clusters, banks := t.banks } ∧
          (t.cluster cl).mail = (s.cluster cl).mail.set k { e with visible := true } ∧
          ∀ i, i < 8 → e.visible = false → (t.bank (8 * cl + i)).incs = (s.bank (8 * cl + i)).incs ++
            (if s.isMaster (8 * cl + i) && (s.bank (8 * cl + i)).started && (s.bank (8 * cl + i)).seq == e.seq &&
                ((s.bank (8 * cl + i)).cw cwMBCFG).getLsbD 6 then
              [⟨((s.bank (8 * cl + i)).cw cwMBCFG).toNat % 64, s.cycle + 1, .s, true, false⟩] else []))))

/-- R405, R408, R409, R414, R437: layouts and halos. Zenith installs the oldest LAYSEL on every die of its launch and the word completes;
a halo face is held, dropped, refused, or written part by part and then counted, by a remote increment (log 70); a re-shard starts once
every die has reported, runs its steps in their windows, reports skew for rows that reach another die more than 256 fabric cycles early or
256 late, and ends with the rows that the launch has written since undefined (R415) and its layout installed. -/
def Obligations.LayoutsAndHalosMove : Prop :=
  ∀ (s : State) (pkg n seq die : Nat),
    ((s.hub pkg).installs = [] → exec (.layoutInstall pkg) s = .next s) ∧
    (∀ i rest g a, (s.hub pkg).installs = i :: rest → (s.bank i.bank).blocked = some ⟨.laysel i.ticket, g, a⟩ →
      exec (.layoutInstall pkg) s =
        .next (((s.setHub pkg { s.hub pkg with installs := rest }).installOn i.seq i.desc).unblock i.bank none)) ∧
    (∀ x d, (s.launchDies seq).Nodup → d ∈ s.launchDies seq → (s.installOn seq x |>.die d).layout seq = x) ∧
    (∀ f, s.faces[n]? = some f →
      (s.haloHeld f = true ∨ s.faceParts f = [] → exec (.haloDelivery n) s = .next s) ∧
      -- a part that is not the last is judged, and the face goes on waiting
      (∀ u g, s.haloHeld f = false → s.faceParts f ≠ [] → (s.faceParts f).foldl State.takePart (s, f) = (u, g) → g.parts ≠ [] →
        exec (.haloDelivery n) s = .next { u with faces := u.faces.set n g }) ∧
      -- the last part of a face whose earlier parts were written
      (∀ p place, s.haloHeld f = false → f.fate = .good → s.faceParts f = [p] → f.parts = [(p.num, place)] →
        let u := (s.dropPkt p).freeEntry p.dst p.src p.num
        let off := fun (v : State) => { v with faces := v.faces.eraseIdx n }
        (s.haloReceiver f.seq f.die f.member = none →
          exec (.haloDelivery n) s = .next (((off u).modDie f.die Die.drop).haloAck f none)) ∧
        (∀ b, s.haloReceiver f.seq f.die f.member = some b →
          (s.haloPlace b f.addr f.room = false →
            exec (.haloDelivery n) s = .next (((off u).modDie f.die Die.drop).haloAck f (some (BitVec.ofNat 64 (f.face + f.die * 256))))) ∧
          (s.haloPlace b f.addr f.room = true → f.addr + place < 2 ^ 24 →
            ∃ v, v = (off (u.engWrite b (f.addr + place) (s.pktData p).length (leNat (s.pktData p)) true false).1).haloMatch b
                ⟨f.num, f.face ^^^ 1, f.par, f.addr, f.len, f.box, f.buf⟩ ∧
              exec (.haloDelivery n) s = .next ((v.setBank b { v.bank b with
                incs := (v.bank b).incs ++ [⟨f.flag, v.cycle + 1, .s, true, false⟩] }).haloAck f none))))) ∧
    (s.reshardDies seq = [] → exec (.reshardCheck seq) s = .next s ∧ exec (.reshardComplete seq) s = .next s) ∧
    (∀ r, s.reshardDies seq = [(die, some r)] →
      ((r.reported = false ∨ r.running = true) → exec (.reshardCheck seq) s = .next s) ∧
      (∀ x, r.reported = true → r.running = false → r.ops = [x] → r.bad = 0 →
        exec (.reshardCheck seq) s = .next (s.modReshard die seq (fun q =>
          { q with running := true, late := s.startPassed die x.2.2.2.toNat }))) ∧
      (∀ x, r.reported = true → r.running = false → r.ops = [x] → r.bad ≠ 0 →
        exec (.reshardCheck seq) s = .next ((s.modReshard die seq (fun q => { q with inflight := false })).reshardTrapAll seq
          (BitVec.ofNat 64 (r.bad + die * 256)))) ∧
      (r.running = false ∨ r.sentAll = false → exec (.reshardComplete seq) s = .next s) ∧
      (∀ x l, r.running = true → r.sentAll = true → r.newDesc = some x → (s.reshardSpoil seq die).launchOf seq = some l →
        ∃ u, u = (s.reshardSpoil seq die).installOn seq (some x) ∧
        exec (.reshardComplete seq) s = .next (l.jobs.foldl (fun (s : State) p => s.agentFlag p.bank seq (fld r.operands.2.1 1 6))
          (u.modReshard die seq (fun q => { q with done := true, running := false, inflight := false }))))) ∧
    (∀ r, (s.die die).reshardOf seq = some r →
      let win := (s.die die).rsWindow r.operands.2.1 r.operands.2.2 r.step
      let dest := s.stepRows seq die r.step
      let skewed := dest.1 ≠ die ∧ dest.2.2 ≠ [] ∧ (s.ft + 256 < win.1 ∨ win.2 + 256 ≤ s.ft)
      let u := s.modReshard die seq (fun q => { q with late := q.late || (r.step == 0 && decide (s.ft < win.1)) })
      (r.inflight = false ∨ r.running = false ∨ r.sentAll = true ∨ s.startPassed die win.1 = false →
        exec (.reshardStep seq die) s = .next s) ∧
      (r.inflight = true → r.running = true → r.sentAll = false → s.startPassed die win.1 = true → ¬ skewed →
        exec (.reshardStep seq die) s = .next ((u.reshardMove seq die r.step).modReshard die seq (fun q =>
          { q with step := q.step + 1, sentAll := decide (u.reshardCount seq die ≤ q.step + 1) }))) ∧
      (r.inflight = true → r.running = true → r.sentAll = false → s.startPassed die win.1 = true → skewed →
        exec (.reshardStep seq die) s = .next { u with agenda := .event (.reshardSkew seq) :: u.agenda })) ∧
    (∃ t, exec (.reshardSkew seq) s = .next t ∧
      (s.launchDies seq = [] → t = s.modLaunch seq (fun l => { l with nd := l.nd || lrDet l.record })) ∧
      (∀ r, s.launchDies seq = [die] → (s.die die).reshardOf seq = some r → r.inflight = true → r.running = true → r.sentAll = true →
        t = (s.modReshard die seq (fun q => { q with skew := true, sentAll := true })).modLaunch seq
          (fun l => { l with nd := l.nd || lrDet l.record })))

/-- R439, R442, R443, R448, R440: flits. A router sends a lone flit out of the first productive port, and one at its destination into
the die; an ejected flit is its packet, a flag increment that has come to its die, or fills its slot of the entry, with its poison
markers; one whose entry is gone is discarded, or held while the entry is in an image; a header error kills the launches of both dies. -/
def Parts.FlitsTravel : Prop :=
  ∀ (s : State) (d n : Nat),
    let x := s.die d
    (∀ f c p ps, (∀ q ∈ s.pkts, q.stage ≠ .source) → x.flitsIn = [(c, f)] → c ≤ s.cycle → x.flitsOut = [] → f.anc = false →
      productive x.dims d f.dst = p :: ps → (p = 6 ∨ portDie x.dims d p ≠ d) →
      ∃ t, exec (.flitArrival d) s = .next t ∧ (t.die d).flitsIn = [] ∧ (t.die d).flitsOut = [] ∧ (t.die d).winPos = x.winPos + 1 ∧
        (t.die d).winDefl = x.winDefl ∧ (p = 6 ↔ f.dst = d) ∧
        (p = 6 → (t.die d).ejected = x.ejected ++ [f] ∧ ∀ y, y ≠ d → t.die y = s.die y) ∧
        (p ≠ 6 → (t.die d).ejected = x.ejected ∧
          (t.die (portDie x.dims d p)).flitsIn = (s.die (portDie x.dims d p)).flitsIn ++ [(s.cycle + 1, f)])) ∧
    (∀ f, x.ejected[n]? = some f →
      (12 ≤ f.kind → exec (.flitEject d n) s = .fault .neverSent) ∧
      (f.kind < 12 →
        let gone := s.setDie d { x with ejected := x.ejected.eraseIdx n }
        let one := s.pkts.find? (fun p => p.stage == .travelling && p.kind == f.kind && p.num == f.pkt && p.ends == (f.src, d))
        (one = none → exec (.flitEject d n) s = .next gone) ∧
        (∀ p, one = some p → f.kind = 5 → exec (.flitEject d n) s = .next { gone with
          pkts := s.pkts.filter (fun q => q != p),
          incs := s.incs ++ [⟨p.bank, p.aux, if p.seq = 0 then none else some p.seq, s.cycle, p.srcBank⟩] }) ∧
        (∀ p, one = some p → f.kind ≠ 5 → p.flitCount = 1 →
          exec (.flitEject d n) s = .next { gone with pkts := s.pkts.map (fun q => if q = p then { p with stage := .arrived } else q) }) ∧
        (∀ p e, one = some p → f.kind ≠ 5 → p.flitCount ≠ 1 → s.entryOf d f.src f.pkt = some e →
          ∃ t, exec (.flitEject d n) s = .next t ∧ (t.die d).ejected = x.ejected.eraseIdx n ∧
            (∃ e', t.entryOf d f.src f.pkt = some e' ∧ e'.got.get 0 f.idx = f.payload ∧
              (∀ j, j < 8 → e'.marks.testBit (8 * f.idx + j) = (e.marks.testBit (8 * f.idx + j) || f.marks.getLsbD j)) ∧
              ∀ i, i ≠ f.idx → e'.got.get 0 i = e.got.get 0 i) ∧
            t.pkts = (if e.nf ≤ (e.got.set f.idx f.payload).length then s.pkts.map (fun q => if q = p then { p with stage := .arrived } else q) else s.pkts)) ∧
        (∀ p, one = some p → f.kind ≠ 5 → p.flitCount ≠ 1 → s.entryOf d f.src f.pkt = none →
          (s.pktHeld p = true → exec (.flitEject d n) s = .next s) ∧
          (s.pktHeld p = false → s.isFace p = true → exec (.flitEject d n) s =
            .next { gone with pkts := s.pkts.map (fun q => if q = p then { p with stage := .arrived } else q) }) ∧
          (s.pktHeld p = false → s.isFace p = false → p.body ≠ 8 →
            exec (.flitEject d n) s = .next { gone with pkts := s.pkts.filter (fun q => q != p) }) ∧
          (s.pktHeld p = false → s.isFace p = false → p.body = 8 → exec (.flitEject d n) s = .next (gone.discard p))))) ∧
    (∀ src dst, (∀ k h l, (k, h) ∈ s.hubs → l ∈ h.launches → l.phase = .ended ∨ l.phase = .queued ∨
        (l.diesUsed.contains src = false ∧ l.diesUsed.contains dst = false)) → exec (.flitHeaderError src dst) s = .next s) ∧
    (∀ src dst, exec (.flitHeaderError src dst) s = .next
      ((s.hubs.flatMap (fun (h : Nat × Hub) => (h.2.launches.filter (fun (l : Launch) => l.phase != .ended && l.phase != .queued &&
        (l.diesUsed.contains src || l.diesUsed.contains dst))).map (fun l => l.seq))).foldl (fun (u : State) q => u.killLaunch q) s))

/-- R439, R440, R441, R448, R453, R454, R462: packets at their destination. A read request is answered with the home's bytes and their
markers, a masked write changes its line and is acknowledged in the order of its source's packet numbers, a bank-ALU request answers the
old bytes, an acknowledgement completes the operation that waits for it. An entry request that its three conditions allow is granted, one
that nobody takes is discarded, and any other waits or is refused; a refused one asks again 512 fabric cycles later. A message goes into
its port's ring and counts, and data go to their home with their markers, to their instance's staging area (undefined where others share
it, R436), or wait for the other parts of their halo face. That a grant keeps the packet's number is log 53, and that a message of one
flit is judged at its delivery, and waits while its port has no room, is log 55. -/
def Parts.PacketsArrive : Prop :=
  ∀ (s : State) (n : Nat) (p : Pkt), s.pkts[n]? = some p →
    let u := { s with pkts := s.pkts.filter (fun q => q != p) }
    (p.stage ≠ .arrived → ∀ i, (i = .readRequest n ∨ i = .readResponse n ∨ i = .maskedWrite n ∨ i = .bankAluRequest n ∨
      i = .acknowledgement n ∨ i = .entryGrant n ∨ i = .message n ∨ i = .bulkWrite n ∨ i = .collectiveControl n) → exec i s = .next s) ∧
    (p.stage = .arrived →
      (p.kind = 0 ∨ p.kind = 0xA → ∀ d v bad, (s.die p.dst).homeRead p.offset p.len (p.aux % 16) false (p.len / 256 + 2) = (d, v, bad) →
        exec (.readRequest n) s = .next { u.setDie p.dst d with pkts := u.pkts ++ [{ p with
          kind := 1, src := p.dst, dst := p.src, data := leBytes p.len v, bank := p.srcBank, srcBank := p.bank, body := 1, stage := .source,
          marks := d.wordMarks p.offset p.len }] }) ∧
      (p.kind = 1 → ∃ t, exec (.readResponse n) s = .next t ∧ t.lastRead = s.pktData p ∧ t.lastMarks = s.pktMarks p ∧ t.pkts = u.pkts ∧
        t.entryOf p.dst p.src p.num = none) ∧
      (p.kind = 2 → s.pkts.any (fun q => q.writeBefore p) = true → exec (.maskedWrite n) s = .next s) ∧
      (p.kind = 2 → s.pkts.any (fun q => q.writeBefore p) = false →
        ∃ t a, exec (.maskedWrite n) s = .next t ∧ t.pkts = u.pkts ++ [a] ∧ a.kind = 4 ∧ a.src = p.dst ∧ a.dst = p.src ∧ a.num = p.num ∧
          (t.die p.dst).msc = ((s.die p.dst).writeLine (p.offset / 256) (leNat p.data * 2 ^ (8 * (p.offset % 256)))
            (p.mask.toNat * 2 ^ (p.offset % 256)) (p.marks * 2 ^ (p.offset % 256 / 8))).msc) ∧
      (p.kind = 3 → p.aux % 16 ≤ 9 → ∀ v old bad,
        u.homeAtomic (p.dst * 2 ^ 42 + p.offset) (2 ^ (p.aux / 16 % 4)) (fun o =>
          some (amoOp (p.aux % 16) (2 ^ (p.aux / 16 % 4)) o (leNat p.data % 256 ^ 2 ^ (p.aux / 16 % 4)))) = (v, old, bad) →
        exec (.bankAluRequest n) s = .next (v.answer p (leBytes (2 ^ (p.aux / 16 % 4)) old))) ∧
      (p.kind = 4 → ∀ o, (s.bank p.bank).ops.find? (fun o => o.todo == .msgWait (p.src * 4096 + p.num)) = some o →
        exec (.acknowledgement n) s = .next ((u.reads p.data 0).finishOp p.bank o)) ∧
      (p.kind = 4 → (s.bank p.bank).ops.find? (fun o => o.todo == .msgWait (p.src * 4096 + p.num)) = none →
        exec (.acknowledgement n) s = .next (u.reads p.data 0)) ∧
      (p.kind = 6 → s.pktHeld p = true → exec (.entryRequest n) s = .next s) ∧
      (p.kind = 6 → s.pktHeld p = false → s.unwanted p = true → exec (.entryRequest n) s = .next
        (if p.body = 8 then (s.leaveWait p).discard p else (s.leaveWait p).dropPkt p)) ∧
      (p.kind = 6 → s.pktHeld p = false → s.unwanted p = false → s.grantable p = true → (s.die p.dst).waitList = [] →
        ∃ t, exec (.entryRequest n) s = .next t ∧
          t.pkts = s.pkts.map (fun q => if q = p then { p with kind := 7, granted := true, stage := .source } else q) ∧
          (t.die p.dst).rasm = (s.die p.dst).rasm ++ [⟨p.src, p.num, p.bodyFlits, p.bank, p.body, p.len, p.offset, p.aux, p.srcBank, p.seq, [], 0⟩]) ∧
      (p.kind = 6 → s.pktHeld p = false → s.unwanted p = false → s.grantable p = false →
        ((s.die p.dst).waitList.length < 64 → ∃ t, exec (.entryRequest n) s = .next t ∧
          (t.die p.dst).waitList = (s.die p.dst).waitList ++ [p.key] ∧ (t.die p.dst).rasm = (s.die p.dst).rasm ∧
          t.pkts = s.pkts.map (fun q => if q = p then { p with stage := .waiting } else q)) ∧
        (64 ≤ (s.die p.dst).waitList.length → exec (.entryRequest n) s =
          .next { s with pkts := s.pkts.map (fun q => if q = p then { p with kind := 7, granted := false, stage := .source } else q) })) ∧
      (p.kind = 7 → exec (.entryGrant n) s = .next { s with pkts := s.pkts.map (fun q => if q = p then
        (if p.granted then { p with kind := p.body, stage := .source }
         else { p with kind := 6, retryAt := some (s.ft + 512), stage := .waiting }) else q) }) ∧
      (p.kind = 8 → (s.pkts.take n).any (fun q => q.srcBank == p.srcBank && q.samePort p) = false →
        (if p.flitCount = 1 then s.savedOn p.bank p.seq else s.pktHeld p) = false → ∀ w, s.portOf p = some w →
        (p.flitCount = 1 → w.getLsbD 0 = false → exec (.message n) s = .next (s.discard p)) ∧
        (p.flitCount = 1 → w.getLsbD 0 = true → s.portRoom p w = false → exec (.message n) s = .next s) ∧
        ((p.flitCount = 1 → w.getLsbD 0 = true ∧ s.portRoom p w = true) →
          ∃ t, exec (.message n) s = .next t ∧
            fld ((t.bank p.bank).cw (cwMPORT + p.aux % 8)) 30 13 =
              (fld w 30 13 + ((s.pktData p).length + 8 + 63) / 64) % (2 * portRing w) % 2 ^ 13 ∧
            (t.bank p.bank).incs = (s.bank p.bank).incs ++ [⟨w.toNat / 2 % 64, s.cycle + 1, .s, true, false⟩] ∧
            ∃ a, t.pkts = u.pkts ++ [a] ∧ a.kind = 4 ∧ a.dst = p.src ∧ a.num = p.num)) ∧
      (p.kind = 8 → (s.pkts.take n).any (fun q => q.srcBank == p.srcBank && q.samePort p) = false →
        (if p.flitCount = 1 then s.savedOn p.bank p.seq else s.pktHeld p) = false → s.portOf p = none → exec (.message n) s = .next (s.discard p)) ∧
      (p.kind = 9 → ∀ g i m part, p.coll = some (.data g i m part) → ∃ t, exec (.bulkWrite n) s = .next t ∧
        ∀ y ∈ (t.cluster (bankCluster p.bank)).coll, y.inst = i → ccGrp y.cmd = g → y.seq = p.seq → y.phase = .exchanging →
          (m * 65536 + part, (((u.freeEntry p.dst p.src p.num).stage p.dst).stagedData p.dst (s.pktData p)).2) ∈ y.got) ∧
      (p.kind = 9 → p.coll = none → s.isFace p = true → exec (.bulkWrite n) s = .next s) ∧
      (p.kind = 9 → p.coll = none → s.isFace p = false →
        ∃ t a, exec (.bulkWrite n) s = .next t ∧ t.pkts = u.pkts ++ [a] ∧ a.kind = 4 ∧ a.dst = p.src ∧
          (t.die p.dst).msc = (((u.freeEntry p.dst p.src p.num).die p.dst).writeWords p.offset (s.pktData p).length (leNat (s.pktData p))
            (s.pktMarks p) (ceilDiv (s.pktData p).length 8)).msc)) ∧
    (p.kind = 6 → ∀ c, p.retryAt = some c → exec (.entryRequestRetry n) s = .next (if c ≤ s.ft then
      { s with pkts := s.pkts.map (fun q => if q = p then { p with retryAt := none, stage := .source } else q) } else s)) ∧
    (p.retryAt = none → exec (.entryRequestRetry n) s = .next s)

/-- R439 to R443, R448, R453, R454: flits and packets. -/
def Obligations.FabricPackets : Prop := Parts.FlitsTravel ∧ Parts.PacketsArrive

/-- R462 to R464: an instance begins after those posted before it, once its flag and its time have come, and asks its sources, all of them
at once (the model's choice, log 69); a READY for one that is posted is answered, from SRC as it was then (log 80), and one for an
instance that is not posted yet is held (log 29); it ends with its result when every contribution is there, or at its deadline. -/
def Obligations.CollectivesProceed : Prop :=
  ∀ (s : State) (cl n : Nat) (x : Coll), (s.cluster cl).coll[n]? = some x →
    (x.phase ≠ .queued ∨ (s.bank x.bank).live = false ∨ ((s.cluster cl).coll.take n).any (fun y => y.phase != .exchanging) = true →
      exec (.collectiveStart cl n) s = .next s) ∧
    (x.phase = .queued → (s.bank x.bank).live = true → ((s.cluster cl).coll.take n).any (fun y => y.phase != .exchanging) = false →
      (∀ f, ccWflag x.cmd = some f → x.wc = false → (s.bank x.bank).flag f = 0 → exec (.collectiveStart cl n) s = .next s) ∧
      (ccWflag x.cmd = none → ccTT x.cmd = true → ((s.die (cl / 16)).reg 0x100008).getLsbD 6 = true → s.ft < ccStart x.cmd →
        exec (.collectiveStart cl n) s = .next (s.modColl cl x.inst (ccGrp x.cmd) x.seq (fun y => { y with waited := true }))) ∧
      (ccWflag x.cmd = none → ccTT x.cmd = false → ∃ t, exec (.collectiveStart cl n) s = .next t ∧
        (t.cluster cl).coll = (s.cluster cl).coll.map (fun y => if y.inst = x.inst ∧ ccGrp y.cmd = ccGrp x.cmd ∧ y.seq = x.seq then
          { y with phase := .exchanging, began := s.ft, late := false } else y) ∧
        t.pkts.length = s.pkts.length + ((ccSources x.cmd (s.collDies cl x).length).filter (fun m => m != s.collMe cl x)).length ∧
        ∀ p ∈ t.pkts.drop s.pkts.length, p.kind = 0xB ∧ p.src = cl / 16 ∧
          p.coll = some (.ready (ccGrp x.cmd) x.inst (s.collMe cl x) (ccDigest x.cmd)))) ∧
    (exec (.collectiveResult cl n) s = .next (if s.collReady cl x then s.collFinish cl x false else s)) ∧
    (ccDL x.cmd = false → exec (.collectiveDeadline cl n) s = .next s) ∧
    (ccDL x.cmd = true → ccTT x.cmd = false →
      exec (.collectiveDeadline cl n) s = .next (if x.phase == .exchanging && decide (x.began + ccDlrel x.cmd ≤ s.ft) then s.collFinish cl x true else s)) ∧
    (∀ k p, s.pkts[k]? = some p → p.kind = 0xB → p.stage = .arrived → bankCluster p.bank = cl →
      (∀ g i m dg, p.coll = some (.ready g i m dg) → s.readyAnswer cl i g p.seq = false → exec (.collectiveControl k) s = .next s) ∧
      (∀ g i m dg, p.coll = some (.ready g i m dg) → s.findColl cl i g p.seq = some x → x.phase ≠ .cancelled →
        ∃ t, exec (.collectiveControl k) s = .next t ∧
          ∀ y ∈ (t.cluster cl).coll, y.inst = i → ccGrp y.cmd = g → y.seq = p.seq → m ∈ y.served) ∧
      (∀ g i m bad, p.coll = some (.none_ g i m bad) → exec (.collectiveControl k) s =
        .next ({ s with pkts := s.pkts.filter (fun q => q != p) }.modColl cl i g p.seq (fun (y : Coll) =>
          if y.phase == CollPhase.exchanging then { y with none_ := y.none_ ++ [m], err := y.err || bad } else y))))

/-! The whole machine. -/

/-- What a V, C or M word leaves in its issue cycle: the registers and pending results of S; its predicates, program counter and pending
targets and every control word but the engines' own, unless S stands in a FENCE that the word's own end may complete; and, but for CUNB,
which ends a link at both ends (R243), every other bank; and every byte of every scratchpad and shared memory, but for the first row of
MDRAIN, which is written at once (R292), and the buffer of a face of its number that CHALO finds already there (R408, R409). Every other
access of an operation comes later (R18). -/
def Obligations.EngineWordsFrame : Prop :=
  ∀ (s t : State) (i : Instr), (engineSpace i).isSome = true → exec i s = .next t →
    t.me.sregs = s.me.sregs ∧ t.me.pend = s.me.pend ∧
    -- an operation that ends at once may be the last that a FENCE waits for, and S goes on
    ((∀ job n g a, s.me.blocked ≠ some ⟨.fence job n, g, a⟩) →
      t.me.preds = s.me.preds ∧ t.me.pc = s.me.pc ∧ t.me.targets = s.me.targets ∧
      ∀ c, engineControl c = false → t.me.cw c = s.me.cw c) ∧
    (∀ u x, u.isLocal = true →
      -- the first row of MDRAIN, with its scales, and the buffer of a face that CHALO finds
      (∀ m tile g gs r ot n n0 c a, i = .mdrain m tile g false gs r ot n n0 c a →
        ¬runsHold s.focus.bank (boxPart (s.mapOf g) none 0 (32 * ot.width)) u x ∧
        (drainMx ot = true → ¬runsHold s.focus.bank (boxPart (s.mapOf gs) none 0 8) u x)) →
      (∀ m gA gB k f d, i = .chalo m gA gB k f d →
        ∀ h l, h ∈ s.me.halo.got → h.num = s.me.halo.count → s.layoutOf s.focus.bank = some l →
          ¬runsHold s.focus.bank [(0, .ea (haloBuf (s.mapOf gB) (s.mapOf gA) l h.side h.par), faceBuf (s.mapOf gA) l h.side)] u x) →
      t.peek u x = s.peek u x) ∧
    ((∀ m q p c, i ≠ .cunb m q p c) → ∀ b, b ≠ s.focus.bank → t.bank b = s.bank b)

/-- R121, R151, R157: in the job view no word reaches the supervisor view, but by a trap, which goes to the address in TVEC. -/
def Obligations.OnlyTrapsRaiseTheView : Prop :=
  ∀ (s t : State) (i : Instr), (encode i).isSome = true → s.me.sv = false → exec i s = .next t → t.me.sv = true →
    t.me.ts = true ∧ t.me.pc = s.me.cw cwTVEC

/-- Every step keeps every memory in its canonical form, so that equal memories are equal data. -/
def Obligations.MemoriesStayCanonical : Prop :=
  ∀ (s t : State), s.memWf = true → step s = .next t → t.memWf = true

/-- R7, R351, R436: what reset leaves: no bank has a job, every control word is 0, SCRUB.PERIOD is 24, the domain is one package with the
thresholds 4 and 1, and every memory is in its canonical form. That every s register is 0 with a clear poison bit, that the control words
which a launch sets (TVEC, JOBID, WDOG, DOM) are 0 (log 2), and that a byte which nothing has written reads as 0 (log 3) are the model's
choices. -/
def Obligations.ResetLeaves : Prop :=
  State.reset.memWf = true ∧
  (∀ b, (State.reset.bank b).job = none ∧ (State.reset.bank b).parked = [] ∧ (State.reset.bank b).freeze = none ∧
    (∀ c, (State.reset.bank b).cw c = 0) ∧ (∀ f, (State.reset.bank b).flag f = 0) ∧
    (∀ q, (State.reset.bank b).queue q = Queue.fresh) ∧ ∀ r, (State.reset.bank b).sregs.get ⟨0, false⟩ r = ⟨0, false⟩) ∧
  (∀ d, (State.reset.die d).reg 0x10030 = 24 ∧ (State.reset.die d).dims = (2, 2, 2) ∧
    ((State.reset.die d).reg 0x100010).toNat = 4 + 1 * 16 ∧ (State.reset.die d).reg 0x10000 = 0 ∧ (State.reset.die d).reg 0x10020 = 0) ∧
  (∀ p, (State.reset.hub p).launches = []) ∧ State.reset.incs = [] ∧ State.reset.pkts = [] ∧
  ∀ v a, State.reset.peek v a = 0
end

