-- ==== Sys2Proof/Laws/SMap.lean ====
section
/-! SUPPORT. Reading a sparse map after a write. -/

namespace Sys2Proof

theorem SMap.find?_set_same {α : Type} (m : SMap α) (k : Nat) (v : α) : (m.set k v).find? k = some v := by
  induction m with
  | nil => simp [SMap.set, SMap.find?]
  | cons p t ih =>
    obtain ⟨k', v'⟩ := p
    simp only [SMap.set]
    split
    · simp [SMap.find?]
    · split
      · simp [SMap.find?]
      · simp [SMap.find?, *]

theorem SMap.find?_set_ne {α : Type} (m : SMap α) (k j : Nat) (v : α) (h : j ≠ k) : (m.set k v).find? j = m.find? j := by
  induction m with
  | nil => simp [SMap.set, SMap.find?, h.symm]
  | cons p t ih =>
    obtain ⟨k', v'⟩ := p
    simp only [SMap.set]
    split
    · simp [SMap.find?, h.symm]
    · split
      · subst_vars; simp [SMap.find?, h.symm]
      · simp only [SMap.find?, ih]

@[simp] theorem SMap.get_set_same {α : Type} (m : SMap α) (d : α) (k : Nat) (v : α) : (m.set k v).get d k = v := by
  simp [SMap.get, SMap.find?_set_same]

theorem SMap.get_set_ne {α : Type} (m : SMap α) (d : α) (k j : Nat) (v : α) (h : j ≠ k) : (m.set k v).get d j = m.get d j := by
  simp [SMap.get, SMap.find?_set_ne m k j v h]

theorem SMap.get_set {α : Type} (m : SMap α) (d : α) (k j : Nat) (v : α) :
    (m.set k v).get d j = if j = k then v else m.get d j := by
  split
  · subst_vars; simp
  · exact SMap.get_set_ne m d k j v ‹_›

end Sys2Proof
end

