-- ==== Sys2Proof/Laws/Bank.lean ====
section
/-! SUPPORT. What each update of a bank leaves: one lemma per field per update. -/

namespace Sys2Proof.Machine

/-! setFlag. -/

@[simp] theorem Bank.setFlag_job (k : Bank) (f v : Nat) : (k.setFlag f v).job = k.job := rfl
@[simp] theorem Bank.setFlag_sregs (k : Bank) (f v : Nat) : (k.setFlag f v).sregs = k.sregs := rfl
@[simp] theorem Bank.setFlag_preds (k : Bank) (f v : Nat) : (k.setFlag f v).preds = k.preds := rfl
@[simp] theorem Bank.setFlag_pend (k : Bank) (f v : Nat) : (k.setFlag f v).pend = k.pend := rfl
@[simp] theorem Bank.setFlag_incs (k : Bank) (f v : Nat) : (k.setFlag f v).incs = k.incs := rfl
@[simp] theorem Bank.setFlag_waiters (k : Bank) (f v : Nat) : (k.setFlag f v).waiters = k.waiters := rfl
@[simp] theorem Bank.setFlag_took (k : Bank) (f v : Nat) : (k.setFlag f v).took = k.took := rfl
@[simp] theorem Bank.setFlag_ctl (k : Bank) (f v : Nat) : (k.setFlag f v).ctl = k.ctl := rfl
@[simp] theorem Bank.setFlag_pc (k : Bank) (f v : Nat) : (k.setFlag f v).pc = k.pc := rfl
@[simp] theorem Bank.setFlag_targets (k : Bank) (f v : Nat) : (k.setFlag f v).targets = k.targets := rfl
@[simp] theorem Bank.setFlag_fetched (k : Bank) (f v : Nat) : (k.setFlag f v).fetched = k.fetched := rfl
@[simp] theorem Bank.setFlag_nullS (k : Bank) (f v : Nat) : (k.setFlag f v).nullS = k.nullS := rfl
@[simp] theorem Bank.setFlag_skipWait (k : Bank) (f v : Nat) : (k.setFlag f v).skipWait = k.skipWait := rfl
@[simp] theorem Bank.setFlag_heldWait (k : Bank) (f v : Nat) : (k.setFlag f v).heldWait = k.heldWait := rfl
@[simp] theorem Bank.setFlag_nextIssue (k : Bank) (f v : Nat) : (k.setFlag f v).nextIssue = k.nextIssue := rfl
@[simp] theorem Bank.setFlag_blocked (k : Bank) (f v : Nat) : (k.setFlag f v).blocked = k.blocked := rfl
@[simp] theorem Bank.setFlag_sloop (k : Bank) (f v : Nat) : (k.setFlag f v).sloop = k.sloop := rfl
@[simp] theorem Bank.setFlag_vaPos (k : Bank) (f v : Nat) : (k.setFlag f v).vaPos = k.vaPos := rfl
@[simp] theorem Bank.setFlag_vaDyn (k : Bank) (f v : Nat) : (k.setFlag f v).vaDyn = k.vaDyn := rfl
@[simp] theorem Bank.setFlag_veDyn (k : Bank) (f v : Nat) : (k.setFlag f v).veDyn = k.veDyn := rfl
@[simp] theorem Bank.setFlag_vaSeen (k : Bank) (f v : Nat) : (k.setFlag f v).vaSeen = k.vaSeen := rfl
@[simp] theorem Bank.setFlag_veSeen (k : Bank) (f v : Nat) : (k.setFlag f v).veSeen = k.veSeen := rfl
@[simp] theorem Bank.setFlag_veDue (k : Bank) (f v : Nat) : (k.setFlag f v).veDue = k.veDue := rfl
@[simp] theorem Bank.setFlag_pushed (k : Bank) (f v : Nat) : (k.setFlag f v).pushed = k.pushed := rfl
@[simp] theorem Bank.setFlag_heldFrom (k : Bank) (f v : Nat) : (k.setFlag f v).heldFrom = k.heldFrom := rfl
@[simp] theorem Bank.setFlag_ringBuf (k : Bank) (f v : Nat) : (k.setFlag f v).ringBuf = k.ringBuf := rfl
@[simp] theorem Bank.setFlag_vloop (k : Bank) (f v : Nat) : (k.setFlag f v).vloop = k.vloop := rfl
@[simp] theorem Bank.setFlag_cloop (k : Bank) (f v : Nat) : (k.setFlag f v).cloop = k.cloop := rfl
@[simp] theorem Bank.setFlag_mloop (k : Bank) (f v : Nat) : (k.setFlag f v).mloop = k.mloop := rfl
@[simp] theorem Bank.setFlag_queues (k : Bank) (f v : Nat) : (k.setFlag f v).queues = k.queues := rfl
@[simp] theorem Bank.setFlag_masks (k : Bank) (f v : Nat) : (k.setFlag f v).masks = k.masks := rfl
@[simp] theorem Bank.setFlag_maps (k : Bank) (f v : Nat) : (k.setFlag f v).maps = k.maps := rfl
@[simp] theorem Bank.setFlag_seqSlots (k : Bank) (f v : Nat) : (k.setFlag f v).seqSlots = k.seqSlots := rfl
@[simp] theorem Bank.setFlag_fmt (k : Bank) (f v : Nat) : (k.setFlag f v).fmt = k.fmt := rfl
@[simp] theorem Bank.setFlag_fmtErr (k : Bank) (f v : Nat) : (k.setFlag f v).fmtErr = k.fmtErr := rfl
@[simp] theorem Bank.setFlag_slotErr (k : Bank) (f v : Nat) : (k.setFlag f v).slotErr = k.slotErr := rfl
@[simp] theorem Bank.setFlag_ascaleFill (k : Bank) (f v : Nat) : (k.setFlag f v).ascaleFill = k.ascaleFill := rfl
@[simp] theorem Bank.setFlag_ascale (k : Bank) (f v : Nat) : (k.setFlag f v).ascale = k.ascale := rfl
@[simp] theorem Bank.setFlag_scaleErr (k : Bank) (f v : Nat) : (k.setFlag f v).scaleErr = k.scaleErr := rfl
@[simp] theorem Bank.setFlag_ops (k : Bank) (f v : Nat) : (k.setFlag f v).ops = k.ops := rfl
@[simp] theorem Bank.setFlag_apertures (k : Bank) (f v : Nat) : (k.setFlag f v).apertures = k.apertures := rfl
@[simp] theorem Bank.setFlag_tlb (k : Bank) (f v : Nat) : (k.setFlag f v).tlb = k.tlb := rfl
@[simp] theorem Bank.setFlag_stamp (k : Bank) (f v : Nat) : (k.setFlag f v).stamp = k.stamp := rfl
@[simp] theorem Bank.setFlag_parked (k : Bank) (f v : Nat) : (k.setFlag f v).parked = k.parked := rfl
@[simp] theorem Bank.setFlag_freeze (k : Bank) (f v : Nat) : (k.setFlag f v).freeze = k.freeze := rfl
@[simp] theorem Bank.setFlag_stopped (k : Bank) (f v : Nat) : (k.setFlag f v).stopped = k.stopped := rfl
@[simp] theorem Bank.setFlag_held (k : Bank) (f v : Nat) : (k.setFlag f v).held = k.held := rfl
@[simp] theorem Bank.setFlag_reshardTrap (k : Bank) (f v : Nat) : (k.setFlag f v).reshardTrap = k.reshardTrap := rfl
@[simp] theorem Bank.setFlag_preempt (k : Bank) (f v : Nat) : (k.setFlag f v).preempt = k.preempt := rfl
@[simp] theorem Bank.setFlag_stopS (k : Bank) (f v : Nat) : (k.setFlag f v).stopS = k.stopS := rfl
@[simp] theorem Bank.setFlag_yielded (k : Bank) (f v : Nat) : (k.setFlag f v).yielded = k.yielded := rfl
@[simp] theorem Bank.setFlag_openPkts (k : Bank) (f v : Nat) : (k.setFlag f v).openPkts = k.openPkts := rfl
@[simp] theorem Bank.setFlag_phases (k : Bank) (f v : Nat) : (k.setFlag f v).phases = k.phases := rfl
@[simp] theorem Bank.setFlag_idleSince (k : Bank) (f v : Nat) : (k.setFlag f v).idleSince = k.idleSince := rfl
@[simp] theorem Bank.setFlag_leaseHeld (k : Bank) (f v : Nat) : (k.setFlag f v).leaseHeld = k.leaseHeld := rfl
@[simp] theorem Bank.setFlag_leaseOwed (k : Bank) (f v : Nat) : (k.setFlag f v).leaseOwed = k.leaseOwed := rfl
@[simp] theorem Bank.setFlag_lastPoint (k : Bank) (f v : Nat) : (k.setFlag f v).lastPoint = k.lastPoint := rfl
@[simp] theorem Bank.setFlag_halo (k : Bank) (f v : Nat) : (k.setFlag f v).halo = k.halo := rfl

/-! setP. -/

@[simp] theorem Bank.setP_job (k : Bank) (n : Nat) (v : Bool) : (k.setP n v).job = k.job := rfl
@[simp] theorem Bank.setP_sregs (k : Bank) (n : Nat) (v : Bool) : (k.setP n v).sregs = k.sregs := rfl
@[simp] theorem Bank.setP_pend (k : Bank) (n : Nat) (v : Bool) : (k.setP n v).pend = k.pend := rfl
@[simp] theorem Bank.setP_flags (k : Bank) (n : Nat) (v : Bool) : (k.setP n v).flags = k.flags := rfl
@[simp] theorem Bank.setP_incs (k : Bank) (n : Nat) (v : Bool) : (k.setP n v).incs = k.incs := rfl
@[simp] theorem Bank.setP_waiters (k : Bank) (n : Nat) (v : Bool) : (k.setP n v).waiters = k.waiters := rfl
@[simp] theorem Bank.setP_took (k : Bank) (n : Nat) (v : Bool) : (k.setP n v).took = k.took := rfl
@[simp] theorem Bank.setP_ctl (k : Bank) (n : Nat) (v : Bool) : (k.setP n v).ctl = k.ctl := rfl
@[simp] theorem Bank.setP_pc (k : Bank) (n : Nat) (v : Bool) : (k.setP n v).pc = k.pc := rfl
@[simp] theorem Bank.setP_targets (k : Bank) (n : Nat) (v : Bool) : (k.setP n v).targets = k.targets := rfl
@[simp] theorem Bank.setP_fetched (k : Bank) (n : Nat) (v : Bool) : (k.setP n v).fetched = k.fetched := rfl
@[simp] theorem Bank.setP_nullS (k : Bank) (n : Nat) (v : Bool) : (k.setP n v).nullS = k.nullS := rfl
@[simp] theorem Bank.setP_skipWait (k : Bank) (n : Nat) (v : Bool) : (k.setP n v).skipWait = k.skipWait := rfl
@[simp] theorem Bank.setP_heldWait (k : Bank) (n : Nat) (v : Bool) : (k.setP n v).heldWait = k.heldWait := rfl
@[simp] theorem Bank.setP_nextIssue (k : Bank) (n : Nat) (v : Bool) : (k.setP n v).nextIssue = k.nextIssue := rfl
@[simp] theorem Bank.setP_blocked (k : Bank) (n : Nat) (v : Bool) : (k.setP n v).blocked = k.blocked := rfl
@[simp] theorem Bank.setP_sloop (k : Bank) (n : Nat) (v : Bool) : (k.setP n v).sloop = k.sloop := rfl
@[simp] theorem Bank.setP_vaPos (k : Bank) (n : Nat) (v : Bool) : (k.setP n v).vaPos = k.vaPos := rfl
@[simp] theorem Bank.setP_vaDyn (k : Bank) (n : Nat) (v : Bool) : (k.setP n v).vaDyn = k.vaDyn := rfl
@[simp] theorem Bank.setP_veDyn (k : Bank) (n : Nat) (v : Bool) : (k.setP n v).veDyn = k.veDyn := rfl
@[simp] theorem Bank.setP_vaSeen (k : Bank) (n : Nat) (v : Bool) : (k.setP n v).vaSeen = k.vaSeen := rfl
@[simp] theorem Bank.setP_veSeen (k : Bank) (n : Nat) (v : Bool) : (k.setP n v).veSeen = k.veSeen := rfl
@[simp] theorem Bank.setP_veDue (k : Bank) (n : Nat) (v : Bool) : (k.setP n v).veDue = k.veDue := rfl
@[simp] theorem Bank.setP_pushed (k : Bank) (n : Nat) (v : Bool) : (k.setP n v).pushed = k.pushed := rfl
@[simp] theorem Bank.setP_heldFrom (k : Bank) (n : Nat) (v : Bool) : (k.setP n v).heldFrom = k.heldFrom := rfl
@[simp] theorem Bank.setP_ringBuf (k : Bank) (n : Nat) (v : Bool) : (k.setP n v).ringBuf = k.ringBuf := rfl
@[simp] theorem Bank.setP_vloop (k : Bank) (n : Nat) (v : Bool) : (k.setP n v).vloop = k.vloop := rfl
@[simp] theorem Bank.setP_cloop (k : Bank) (n : Nat) (v : Bool) : (k.setP n v).cloop = k.cloop := rfl
@[simp] theorem Bank.setP_mloop (k : Bank) (n : Nat) (v : Bool) : (k.setP n v).mloop = k.mloop := rfl
@[simp] theorem Bank.setP_queues (k : Bank) (n : Nat) (v : Bool) : (k.setP n v).queues = k.queues := rfl
@[simp] theorem Bank.setP_masks (k : Bank) (n : Nat) (v : Bool) : (k.setP n v).masks = k.masks := rfl
@[simp] theorem Bank.setP_maps (k : Bank) (n : Nat) (v : Bool) : (k.setP n v).maps = k.maps := rfl
@[simp] theorem Bank.setP_seqSlots (k : Bank) (n : Nat) (v : Bool) : (k.setP n v).seqSlots = k.seqSlots := rfl
@[simp] theorem Bank.setP_fmt (k : Bank) (n : Nat) (v : Bool) : (k.setP n v).fmt = k.fmt := rfl
@[simp] theorem Bank.setP_fmtErr (k : Bank) (n : Nat) (v : Bool) : (k.setP n v).fmtErr = k.fmtErr := rfl
@[simp] theorem Bank.setP_slotErr (k : Bank) (n : Nat) (v : Bool) : (k.setP n v).slotErr = k.slotErr := rfl
@[simp] theorem Bank.setP_ascaleFill (k : Bank) (n : Nat) (v : Bool) : (k.setP n v).ascaleFill = k.ascaleFill := rfl
@[simp] theorem Bank.setP_ascale (k : Bank) (n : Nat) (v : Bool) : (k.setP n v).ascale = k.ascale := rfl
@[simp] theorem Bank.setP_scaleErr (k : Bank) (n : Nat) (v : Bool) : (k.setP n v).scaleErr = k.scaleErr := rfl
@[simp] theorem Bank.setP_ops (k : Bank) (n : Nat) (v : Bool) : (k.setP n v).ops = k.ops := rfl
@[simp] theorem Bank.setP_apertures (k : Bank) (n : Nat) (v : Bool) : (k.setP n v).apertures = k.apertures := rfl
@[simp] theorem Bank.setP_tlb (k : Bank) (n : Nat) (v : Bool) : (k.setP n v).tlb = k.tlb := rfl
@[simp] theorem Bank.setP_stamp (k : Bank) (n : Nat) (v : Bool) : (k.setP n v).stamp = k.stamp := rfl
@[simp] theorem Bank.setP_parked (k : Bank) (n : Nat) (v : Bool) : (k.setP n v).parked = k.parked := rfl
@[simp] theorem Bank.setP_freeze (k : Bank) (n : Nat) (v : Bool) : (k.setP n v).freeze = k.freeze := rfl
@[simp] theorem Bank.setP_stopped (k : Bank) (n : Nat) (v : Bool) : (k.setP n v).stopped = k.stopped := rfl
@[simp] theorem Bank.setP_held (k : Bank) (n : Nat) (v : Bool) : (k.setP n v).held = k.held := rfl
@[simp] theorem Bank.setP_reshardTrap (k : Bank) (n : Nat) (v : Bool) : (k.setP n v).reshardTrap = k.reshardTrap := rfl
@[simp] theorem Bank.setP_preempt (k : Bank) (n : Nat) (v : Bool) : (k.setP n v).preempt = k.preempt := rfl
@[simp] theorem Bank.setP_stopS (k : Bank) (n : Nat) (v : Bool) : (k.setP n v).stopS = k.stopS := rfl
@[simp] theorem Bank.setP_yielded (k : Bank) (n : Nat) (v : Bool) : (k.setP n v).yielded = k.yielded := rfl
@[simp] theorem Bank.setP_openPkts (k : Bank) (n : Nat) (v : Bool) : (k.setP n v).openPkts = k.openPkts := rfl
@[simp] theorem Bank.setP_phases (k : Bank) (n : Nat) (v : Bool) : (k.setP n v).phases = k.phases := rfl
@[simp] theorem Bank.setP_idleSince (k : Bank) (n : Nat) (v : Bool) : (k.setP n v).idleSince = k.idleSince := rfl
@[simp] theorem Bank.setP_leaseHeld (k : Bank) (n : Nat) (v : Bool) : (k.setP n v).leaseHeld = k.leaseHeld := rfl
@[simp] theorem Bank.setP_leaseOwed (k : Bank) (n : Nat) (v : Bool) : (k.setP n v).leaseOwed = k.leaseOwed := rfl
@[simp] theorem Bank.setP_lastPoint (k : Bank) (n : Nat) (v : Bool) : (k.setP n v).lastPoint = k.lastPoint := rfl
@[simp] theorem Bank.setP_halo (k : Bank) (n : Nat) (v : Bool) : (k.setP n v).halo = k.halo := rfl

/-! setCw. -/

@[simp] theorem Bank.setCw_job (k : Bank) (sel : Nat) (v : W64) : (k.setCw sel v).job = k.job := rfl
@[simp] theorem Bank.setCw_sregs (k : Bank) (sel : Nat) (v : W64) : (k.setCw sel v).sregs = k.sregs := rfl
@[simp] theorem Bank.setCw_preds (k : Bank) (sel : Nat) (v : W64) : (k.setCw sel v).preds = k.preds := rfl
@[simp] theorem Bank.setCw_pend (k : Bank) (sel : Nat) (v : W64) : (k.setCw sel v).pend = k.pend := rfl
@[simp] theorem Bank.setCw_flags (k : Bank) (sel : Nat) (v : W64) : (k.setCw sel v).flags = k.flags := rfl
@[simp] theorem Bank.setCw_incs (k : Bank) (sel : Nat) (v : W64) : (k.setCw sel v).incs = k.incs := rfl
@[simp] theorem Bank.setCw_waiters (k : Bank) (sel : Nat) (v : W64) : (k.setCw sel v).waiters = k.waiters := rfl
@[simp] theorem Bank.setCw_took (k : Bank) (sel : Nat) (v : W64) : (k.setCw sel v).took = k.took := rfl
@[simp] theorem Bank.setCw_pc (k : Bank) (sel : Nat) (v : W64) : (k.setCw sel v).pc = k.pc := rfl
@[simp] theorem Bank.setCw_targets (k : Bank) (sel : Nat) (v : W64) : (k.setCw sel v).targets = k.targets := rfl
@[simp] theorem Bank.setCw_fetched (k : Bank) (sel : Nat) (v : W64) : (k.setCw sel v).fetched = k.fetched := rfl
@[simp] theorem Bank.setCw_nullS (k : Bank) (sel : Nat) (v : W64) : (k.setCw sel v).nullS = k.nullS := rfl
@[simp] theorem Bank.setCw_skipWait (k : Bank) (sel : Nat) (v : W64) : (k.setCw sel v).skipWait = k.skipWait := rfl
@[simp] theorem Bank.setCw_heldWait (k : Bank) (sel : Nat) (v : W64) : (k.setCw sel v).heldWait = k.heldWait := rfl
@[simp] theorem Bank.setCw_nextIssue (k : Bank) (sel : Nat) (v : W64) : (k.setCw sel v).nextIssue = k.nextIssue := rfl
@[simp] theorem Bank.setCw_blocked (k : Bank) (sel : Nat) (v : W64) : (k.setCw sel v).blocked = k.blocked := rfl
@[simp] theorem Bank.setCw_sloop (k : Bank) (sel : Nat) (v : W64) : (k.setCw sel v).sloop = k.sloop := rfl
@[simp] theorem Bank.setCw_vaPos (k : Bank) (sel : Nat) (v : W64) : (k.setCw sel v).vaPos = k.vaPos := rfl
@[simp] theorem Bank.setCw_vaDyn (k : Bank) (sel : Nat) (v : W64) : (k.setCw sel v).vaDyn = k.vaDyn := rfl
@[simp] theorem Bank.setCw_veDyn (k : Bank) (sel : Nat) (v : W64) : (k.setCw sel v).veDyn = k.veDyn := rfl
@[simp] theorem Bank.setCw_vaSeen (k : Bank) (sel : Nat) (v : W64) : (k.setCw sel v).vaSeen = k.vaSeen := rfl
@[simp] theorem Bank.setCw_veSeen (k : Bank) (sel : Nat) (v : W64) : (k.setCw sel v).veSeen = k.veSeen := rfl
@[simp] theorem Bank.setCw_veDue (k : Bank) (sel : Nat) (v : W64) : (k.setCw sel v).veDue = k.veDue := rfl
@[simp] theorem Bank.setCw_pushed (k : Bank) (sel : Nat) (v : W64) : (k.setCw sel v).pushed = k.pushed := rfl
@[simp] theorem Bank.setCw_heldFrom (k : Bank) (sel : Nat) (v : W64) : (k.setCw sel v).heldFrom = k.heldFrom := rfl
@[simp] theorem Bank.setCw_ringBuf (k : Bank) (sel : Nat) (v : W64) : (k.setCw sel v).ringBuf = k.ringBuf := rfl
@[simp] theorem Bank.setCw_vloop (k : Bank) (sel : Nat) (v : W64) : (k.setCw sel v).vloop = k.vloop := rfl
@[simp] theorem Bank.setCw_cloop (k : Bank) (sel : Nat) (v : W64) : (k.setCw sel v).cloop = k.cloop := rfl
@[simp] theorem Bank.setCw_mloop (k : Bank) (sel : Nat) (v : W64) : (k.setCw sel v).mloop = k.mloop := rfl
@[simp] theorem Bank.setCw_queues (k : Bank) (sel : Nat) (v : W64) : (k.setCw sel v).queues = k.queues := rfl
@[simp] theorem Bank.setCw_masks (k : Bank) (sel : Nat) (v : W64) : (k.setCw sel v).masks = k.masks := rfl
@[simp] theorem Bank.setCw_maps (k : Bank) (sel : Nat) (v : W64) : (k.setCw sel v).maps = k.maps := rfl
@[simp] theorem Bank.setCw_seqSlots (k : Bank) (sel : Nat) (v : W64) : (k.setCw sel v).seqSlots = k.seqSlots := rfl
@[simp] theorem Bank.setCw_fmt (k : Bank) (sel : Nat) (v : W64) : (k.setCw sel v).fmt = k.fmt := rfl
@[simp] theorem Bank.setCw_fmtErr (k : Bank) (sel : Nat) (v : W64) : (k.setCw sel v).fmtErr = k.fmtErr := rfl
@[simp] theorem Bank.setCw_slotErr (k : Bank) (sel : Nat) (v : W64) : (k.setCw sel v).slotErr = k.slotErr := rfl
@[simp] theorem Bank.setCw_ascaleFill (k : Bank) (sel : Nat) (v : W64) : (k.setCw sel v).ascaleFill = k.ascaleFill := rfl
@[simp] theorem Bank.setCw_ascale (k : Bank) (sel : Nat) (v : W64) : (k.setCw sel v).ascale = k.ascale := rfl
@[simp] theorem Bank.setCw_scaleErr (k : Bank) (sel : Nat) (v : W64) : (k.setCw sel v).scaleErr = k.scaleErr := rfl
@[simp] theorem Bank.setCw_ops (k : Bank) (sel : Nat) (v : W64) : (k.setCw sel v).ops = k.ops := rfl
@[simp] theorem Bank.setCw_apertures (k : Bank) (sel : Nat) (v : W64) : (k.setCw sel v).apertures = k.apertures := rfl
@[simp] theorem Bank.setCw_tlb (k : Bank) (sel : Nat) (v : W64) : (k.setCw sel v).tlb = k.tlb := rfl
@[simp] theorem Bank.setCw_stamp (k : Bank) (sel : Nat) (v : W64) : (k.setCw sel v).stamp = k.stamp := rfl
@[simp] theorem Bank.setCw_parked (k : Bank) (sel : Nat) (v : W64) : (k.setCw sel v).parked = k.parked := rfl
@[simp] theorem Bank.setCw_freeze (k : Bank) (sel : Nat) (v : W64) : (k.setCw sel v).freeze = k.freeze := rfl
@[simp] theorem Bank.setCw_stopped (k : Bank) (sel : Nat) (v : W64) : (k.setCw sel v).stopped = k.stopped := rfl
@[simp] theorem Bank.setCw_held (k : Bank) (sel : Nat) (v : W64) : (k.setCw sel v).held = k.held := rfl
@[simp] theorem Bank.setCw_reshardTrap (k : Bank) (sel : Nat) (v : W64) : (k.setCw sel v).reshardTrap = k.reshardTrap := rfl
@[simp] theorem Bank.setCw_preempt (k : Bank) (sel : Nat) (v : W64) : (k.setCw sel v).preempt = k.preempt := rfl
@[simp] theorem Bank.setCw_stopS (k : Bank) (sel : Nat) (v : W64) : (k.setCw sel v).stopS = k.stopS := rfl
@[simp] theorem Bank.setCw_yielded (k : Bank) (sel : Nat) (v : W64) : (k.setCw sel v).yielded = k.yielded := rfl
@[simp] theorem Bank.setCw_openPkts (k : Bank) (sel : Nat) (v : W64) : (k.setCw sel v).openPkts = k.openPkts := rfl
@[simp] theorem Bank.setCw_phases (k : Bank) (sel : Nat) (v : W64) : (k.setCw sel v).phases = k.phases := rfl
@[simp] theorem Bank.setCw_idleSince (k : Bank) (sel : Nat) (v : W64) : (k.setCw sel v).idleSince = k.idleSince := rfl
@[simp] theorem Bank.setCw_leaseHeld (k : Bank) (sel : Nat) (v : W64) : (k.setCw sel v).leaseHeld = k.leaseHeld := rfl
@[simp] theorem Bank.setCw_leaseOwed (k : Bank) (sel : Nat) (v : W64) : (k.setCw sel v).leaseOwed = k.leaseOwed := rfl
@[simp] theorem Bank.setCw_lastPoint (k : Bank) (sel : Nat) (v : W64) : (k.setCw sel v).lastPoint = k.lastPoint := rfl
@[simp] theorem Bank.setCw_halo (k : Bank) (sel : Nat) (v : W64) : (k.setCw sel v).halo = k.halo := rfl

/-! putCw. -/

@[simp] theorem Bank.putCw_job (k : Bank) (sel lo w v : Nat) : (k.putCw sel lo w v).job = k.job := rfl
@[simp] theorem Bank.putCw_sregs (k : Bank) (sel lo w v : Nat) : (k.putCw sel lo w v).sregs = k.sregs := rfl
@[simp] theorem Bank.putCw_preds (k : Bank) (sel lo w v : Nat) : (k.putCw sel lo w v).preds = k.preds := rfl
@[simp] theorem Bank.putCw_pend (k : Bank) (sel lo w v : Nat) : (k.putCw sel lo w v).pend = k.pend := rfl
@[simp] theorem Bank.putCw_flags (k : Bank) (sel lo w v : Nat) : (k.putCw sel lo w v).flags = k.flags := rfl
@[simp] theorem Bank.putCw_incs (k : Bank) (sel lo w v : Nat) : (k.putCw sel lo w v).incs = k.incs := rfl
@[simp] theorem Bank.putCw_waiters (k : Bank) (sel lo w v : Nat) : (k.putCw sel lo w v).waiters = k.waiters := rfl
@[simp] theorem Bank.putCw_took (k : Bank) (sel lo w v : Nat) : (k.putCw sel lo w v).took = k.took := rfl
@[simp] theorem Bank.putCw_pc (k : Bank) (sel lo w v : Nat) : (k.putCw sel lo w v).pc = k.pc := rfl
@[simp] theorem Bank.putCw_targets (k : Bank) (sel lo w v : Nat) : (k.putCw sel lo w v).targets = k.targets := rfl
@[simp] theorem Bank.putCw_fetched (k : Bank) (sel lo w v : Nat) : (k.putCw sel lo w v).fetched = k.fetched := rfl
@[simp] theorem Bank.putCw_nullS (k : Bank) (sel lo w v : Nat) : (k.putCw sel lo w v).nullS = k.nullS := rfl
@[simp] theorem Bank.putCw_skipWait (k : Bank) (sel lo w v : Nat) : (k.putCw sel lo w v).skipWait = k.skipWait := rfl
@[simp] theorem Bank.putCw_heldWait (k : Bank) (sel lo w v : Nat) : (k.putCw sel lo w v).heldWait = k.heldWait := rfl
@[simp] theorem Bank.putCw_nextIssue (k : Bank) (sel lo w v : Nat) : (k.putCw sel lo w v).nextIssue = k.nextIssue := rfl
@[simp] theorem Bank.putCw_blocked (k : Bank) (sel lo w v : Nat) : (k.putCw sel lo w v).blocked = k.blocked := rfl
@[simp] theorem Bank.putCw_sloop (k : Bank) (sel lo w v : Nat) : (k.putCw sel lo w v).sloop = k.sloop := rfl
@[simp] theorem Bank.putCw_vaPos (k : Bank) (sel lo w v : Nat) : (k.putCw sel lo w v).vaPos = k.vaPos := rfl
@[simp] theorem Bank.putCw_vaDyn (k : Bank) (sel lo w v : Nat) : (k.putCw sel lo w v).vaDyn = k.vaDyn := rfl
@[simp] theorem Bank.putCw_veDyn (k : Bank) (sel lo w v : Nat) : (k.putCw sel lo w v).veDyn = k.veDyn := rfl
@[simp] theorem Bank.putCw_vaSeen (k : Bank) (sel lo w v : Nat) : (k.putCw sel lo w v).vaSeen = k.vaSeen := rfl
@[simp] theorem Bank.putCw_veSeen (k : Bank) (sel lo w v : Nat) : (k.putCw sel lo w v).veSeen = k.veSeen := rfl
@[simp] theorem Bank.putCw_veDue (k : Bank) (sel lo w v : Nat) : (k.putCw sel lo w v).veDue = k.veDue := rfl
@[simp] theorem Bank.putCw_pushed (k : Bank) (sel lo w v : Nat) : (k.putCw sel lo w v).pushed = k.pushed := rfl
@[simp] theorem Bank.putCw_heldFrom (k : Bank) (sel lo w v : Nat) : (k.putCw sel lo w v).heldFrom = k.heldFrom := rfl
@[simp] theorem Bank.putCw_ringBuf (k : Bank) (sel lo w v : Nat) : (k.putCw sel lo w v).ringBuf = k.ringBuf := rfl
@[simp] theorem Bank.putCw_vloop (k : Bank) (sel lo w v : Nat) : (k.putCw sel lo w v).vloop = k.vloop := rfl
@[simp] theorem Bank.putCw_cloop (k : Bank) (sel lo w v : Nat) : (k.putCw sel lo w v).cloop = k.cloop := rfl
@[simp] theorem Bank.putCw_mloop (k : Bank) (sel lo w v : Nat) : (k.putCw sel lo w v).mloop = k.mloop := rfl
@[simp] theorem Bank.putCw_queues (k : Bank) (sel lo w v : Nat) : (k.putCw sel lo w v).queues = k.queues := rfl
@[simp] theorem Bank.putCw_masks (k : Bank) (sel lo w v : Nat) : (k.putCw sel lo w v).masks = k.masks := rfl
@[simp] theorem Bank.putCw_maps (k : Bank) (sel lo w v : Nat) : (k.putCw sel lo w v).maps = k.maps := rfl
@[simp] theorem Bank.putCw_seqSlots (k : Bank) (sel lo w v : Nat) : (k.putCw sel lo w v).seqSlots = k.seqSlots := rfl
@[simp] theorem Bank.putCw_fmt (k : Bank) (sel lo w v : Nat) : (k.putCw sel lo w v).fmt = k.fmt := rfl
@[simp] theorem Bank.putCw_fmtErr (k : Bank) (sel lo w v : Nat) : (k.putCw sel lo w v).fmtErr = k.fmtErr := rfl
@[simp] theorem Bank.putCw_slotErr (k : Bank) (sel lo w v : Nat) : (k.putCw sel lo w v).slotErr = k.slotErr := rfl
@[simp] theorem Bank.putCw_ascaleFill (k : Bank) (sel lo w v : Nat) : (k.putCw sel lo w v).ascaleFill = k.ascaleFill := rfl
@[simp] theorem Bank.putCw_ascale (k : Bank) (sel lo w v : Nat) : (k.putCw sel lo w v).ascale = k.ascale := rfl
@[simp] theorem Bank.putCw_scaleErr (k : Bank) (sel lo w v : Nat) : (k.putCw sel lo w v).scaleErr = k.scaleErr := rfl
@[simp] theorem Bank.putCw_ops (k : Bank) (sel lo w v : Nat) : (k.putCw sel lo w v).ops = k.ops := rfl
@[simp] theorem Bank.putCw_apertures (k : Bank) (sel lo w v : Nat) : (k.putCw sel lo w v).apertures = k.apertures := rfl
@[simp] theorem Bank.putCw_tlb (k : Bank) (sel lo w v : Nat) : (k.putCw sel lo w v).tlb = k.tlb := rfl
@[simp] theorem Bank.putCw_stamp (k : Bank) (sel lo w v : Nat) : (k.putCw sel lo w v).stamp = k.stamp := rfl
@[simp] theorem Bank.putCw_parked (k : Bank) (sel lo w v : Nat) : (k.putCw sel lo w v).parked = k.parked := rfl
@[simp] theorem Bank.putCw_freeze (k : Bank) (sel lo w v : Nat) : (k.putCw sel lo w v).freeze = k.freeze := rfl
@[simp] theorem Bank.putCw_stopped (k : Bank) (sel lo w v : Nat) : (k.putCw sel lo w v).stopped = k.stopped := rfl
@[simp] theorem Bank.putCw_held (k : Bank) (sel lo w v : Nat) : (k.putCw sel lo w v).held = k.held := rfl
@[simp] theorem Bank.putCw_reshardTrap (k : Bank) (sel lo w v : Nat) : (k.putCw sel lo w v).reshardTrap = k.reshardTrap := rfl
@[simp] theorem Bank.putCw_preempt (k : Bank) (sel lo w v : Nat) : (k.putCw sel lo w v).preempt = k.preempt := rfl
@[simp] theorem Bank.putCw_stopS (k : Bank) (sel lo w v : Nat) : (k.putCw sel lo w v).stopS = k.stopS := rfl
@[simp] theorem Bank.putCw_yielded (k : Bank) (sel lo w v : Nat) : (k.putCw sel lo w v).yielded = k.yielded := rfl
@[simp] theorem Bank.putCw_openPkts (k : Bank) (sel lo w v : Nat) : (k.putCw sel lo w v).openPkts = k.openPkts := rfl
@[simp] theorem Bank.putCw_phases (k : Bank) (sel lo w v : Nat) : (k.putCw sel lo w v).phases = k.phases := rfl
@[simp] theorem Bank.putCw_idleSince (k : Bank) (sel lo w v : Nat) : (k.putCw sel lo w v).idleSince = k.idleSince := rfl
@[simp] theorem Bank.putCw_leaseHeld (k : Bank) (sel lo w v : Nat) : (k.putCw sel lo w v).leaseHeld = k.leaseHeld := rfl
@[simp] theorem Bank.putCw_leaseOwed (k : Bank) (sel lo w v : Nat) : (k.putCw sel lo w v).leaseOwed = k.leaseOwed := rfl
@[simp] theorem Bank.putCw_lastPoint (k : Bank) (sel lo w v : Nat) : (k.putCw sel lo w v).lastPoint = k.lastPoint := rfl
@[simp] theorem Bank.putCw_halo (k : Bank) (sel lo w v : Nat) : (k.putCw sel lo w v).halo = k.halo := rfl

/-! agentInc. -/

@[simp] theorem Bank.agentInc_job (k : Bank) (c f : Nat) : (k.agentInc c f).job = k.job := rfl
@[simp] theorem Bank.agentInc_sregs (k : Bank) (c f : Nat) : (k.agentInc c f).sregs = k.sregs := rfl
@[simp] theorem Bank.agentInc_preds (k : Bank) (c f : Nat) : (k.agentInc c f).preds = k.preds := rfl
@[simp] theorem Bank.agentInc_pend (k : Bank) (c f : Nat) : (k.agentInc c f).pend = k.pend := rfl
@[simp] theorem Bank.agentInc_flags (k : Bank) (c f : Nat) : (k.agentInc c f).flags = k.flags := rfl
@[simp] theorem Bank.agentInc_waiters (k : Bank) (c f : Nat) : (k.agentInc c f).waiters = k.waiters := rfl
@[simp] theorem Bank.agentInc_took (k : Bank) (c f : Nat) : (k.agentInc c f).took = k.took := rfl
@[simp] theorem Bank.agentInc_ctl (k : Bank) (c f : Nat) : (k.agentInc c f).ctl = k.ctl := rfl
@[simp] theorem Bank.agentInc_pc (k : Bank) (c f : Nat) : (k.agentInc c f).pc = k.pc := rfl
@[simp] theorem Bank.agentInc_targets (k : Bank) (c f : Nat) : (k.agentInc c f).targets = k.targets := rfl
@[simp] theorem Bank.agentInc_fetched (k : Bank) (c f : Nat) : (k.agentInc c f).fetched = k.fetched := rfl
@[simp] theorem Bank.agentInc_nullS (k : Bank) (c f : Nat) : (k.agentInc c f).nullS = k.nullS := rfl
@[simp] theorem Bank.agentInc_skipWait (k : Bank) (c f : Nat) : (k.agentInc c f).skipWait = k.skipWait := rfl
@[simp] theorem Bank.agentInc_heldWait (k : Bank) (c f : Nat) : (k.agentInc c f).heldWait = k.heldWait := rfl
@[simp] theorem Bank.agentInc_nextIssue (k : Bank) (c f : Nat) : (k.agentInc c f).nextIssue = k.nextIssue := rfl
@[simp] theorem Bank.agentInc_blocked (k : Bank) (c f : Nat) : (k.agentInc c f).blocked = k.blocked := rfl
@[simp] theorem Bank.agentInc_sloop (k : Bank) (c f : Nat) : (k.agentInc c f).sloop = k.sloop := rfl
@[simp] theorem Bank.agentInc_vaPos (k : Bank) (c f : Nat) : (k.agentInc c f).vaPos = k.vaPos := rfl
@[simp] theorem Bank.agentInc_vaDyn (k : Bank) (c f : Nat) : (k.agentInc c f).vaDyn = k.vaDyn := rfl
@[simp] theorem Bank.agentInc_veDyn (k : Bank) (c f : Nat) : (k.agentInc c f).veDyn = k.veDyn := rfl
@[simp] theorem Bank.agentInc_vaSeen (k : Bank) (c f : Nat) : (k.agentInc c f).vaSeen = k.vaSeen := rfl
@[simp] theorem Bank.agentInc_veSeen (k : Bank) (c f : Nat) : (k.agentInc c f).veSeen = k.veSeen := rfl
@[simp] theorem Bank.agentInc_veDue (k : Bank) (c f : Nat) : (k.agentInc c f).veDue = k.veDue := rfl
@[simp] theorem Bank.agentInc_pushed (k : Bank) (c f : Nat) : (k.agentInc c f).pushed = k.pushed := rfl
@[simp] theorem Bank.agentInc_heldFrom (k : Bank) (c f : Nat) : (k.agentInc c f).heldFrom = k.heldFrom := rfl
@[simp] theorem Bank.agentInc_ringBuf (k : Bank) (c f : Nat) : (k.agentInc c f).ringBuf = k.ringBuf := rfl
@[simp] theorem Bank.agentInc_vloop (k : Bank) (c f : Nat) : (k.agentInc c f).vloop = k.vloop := rfl
@[simp] theorem Bank.agentInc_cloop (k : Bank) (c f : Nat) : (k.agentInc c f).cloop = k.cloop := rfl
@[simp] theorem Bank.agentInc_mloop (k : Bank) (c f : Nat) : (k.agentInc c f).mloop = k.mloop := rfl
@[simp] theorem Bank.agentInc_queues (k : Bank) (c f : Nat) : (k.agentInc c f).queues = k.queues := rfl
@[simp] theorem Bank.agentInc_masks (k : Bank) (c f : Nat) : (k.agentInc c f).masks = k.masks := rfl
@[simp] theorem Bank.agentInc_maps (k : Bank) (c f : Nat) : (k.agentInc c f).maps = k.maps := rfl
@[simp] theorem Bank.agentInc_seqSlots (k : Bank) (c f : Nat) : (k.agentInc c f).seqSlots = k.seqSlots := rfl
@[simp] theorem Bank.agentInc_fmt (k : Bank) (c f : Nat) : (k.agentInc c f).fmt = k.fmt := rfl
@[simp] theorem Bank.agentInc_fmtErr (k : Bank) (c f : Nat) : (k.agentInc c f).fmtErr = k.fmtErr := rfl
@[simp] theorem Bank.agentInc_slotErr (k : Bank) (c f : Nat) : (k.agentInc c f).slotErr = k.slotErr := rfl
@[simp] theorem Bank.agentInc_ascaleFill (k : Bank) (c f : Nat) : (k.agentInc c f).ascaleFill = k.ascaleFill := rfl
@[simp] theorem Bank.agentInc_ascale (k : Bank) (c f : Nat) : (k.agentInc c f).ascale = k.ascale := rfl
@[simp] theorem Bank.agentInc_scaleErr (k : Bank) (c f : Nat) : (k.agentInc c f).scaleErr = k.scaleErr := rfl
@[simp] theorem Bank.agentInc_ops (k : Bank) (c f : Nat) : (k.agentInc c f).ops = k.ops := rfl
@[simp] theorem Bank.agentInc_apertures (k : Bank) (c f : Nat) : (k.agentInc c f).apertures = k.apertures := rfl
@[simp] theorem Bank.agentInc_tlb (k : Bank) (c f : Nat) : (k.agentInc c f).tlb = k.tlb := rfl
@[simp] theorem Bank.agentInc_stamp (k : Bank) (c f : Nat) : (k.agentInc c f).stamp = k.stamp := rfl
@[simp] theorem Bank.agentInc_parked (k : Bank) (c f : Nat) : (k.agentInc c f).parked = k.parked := rfl
@[simp] theorem Bank.agentInc_freeze (k : Bank) (c f : Nat) : (k.agentInc c f).freeze = k.freeze := rfl
@[simp] theorem Bank.agentInc_stopped (k : Bank) (c f : Nat) : (k.agentInc c f).stopped = k.stopped := rfl
@[simp] theorem Bank.agentInc_held (k : Bank) (c f : Nat) : (k.agentInc c f).held = k.held := rfl
@[simp] theorem Bank.agentInc_reshardTrap (k : Bank) (c f : Nat) : (k.agentInc c f).reshardTrap = k.reshardTrap := rfl
@[simp] theorem Bank.agentInc_preempt (k : Bank) (c f : Nat) : (k.agentInc c f).preempt = k.preempt := rfl
@[simp] theorem Bank.agentInc_stopS (k : Bank) (c f : Nat) : (k.agentInc c f).stopS = k.stopS := rfl
@[simp] theorem Bank.agentInc_yielded (k : Bank) (c f : Nat) : (k.agentInc c f).yielded = k.yielded := rfl
@[simp] theorem Bank.agentInc_openPkts (k : Bank) (c f : Nat) : (k.agentInc c f).openPkts = k.openPkts := rfl
@[simp] theorem Bank.agentInc_phases (k : Bank) (c f : Nat) : (k.agentInc c f).phases = k.phases := rfl
@[simp] theorem Bank.agentInc_idleSince (k : Bank) (c f : Nat) : (k.agentInc c f).idleSince = k.idleSince := rfl
@[simp] theorem Bank.agentInc_leaseHeld (k : Bank) (c f : Nat) : (k.agentInc c f).leaseHeld = k.leaseHeld := rfl
@[simp] theorem Bank.agentInc_leaseOwed (k : Bank) (c f : Nat) : (k.agentInc c f).leaseOwed = k.leaseOwed := rfl
@[simp] theorem Bank.agentInc_lastPoint (k : Bank) (c f : Nat) : (k.agentInc c f).lastPoint = k.lastPoint := rfl
@[simp] theorem Bank.agentInc_halo (k : Bank) (c f : Nat) : (k.agentInc c f).halo = k.halo := rfl

/-! dropWaiter. -/

@[simp] theorem Bank.dropWaiter_job (k : Bank) (p : Point) : (k.dropWaiter p).job = k.job := rfl
@[simp] theorem Bank.dropWaiter_sregs (k : Bank) (p : Point) : (k.dropWaiter p).sregs = k.sregs := rfl
@[simp] theorem Bank.dropWaiter_preds (k : Bank) (p : Point) : (k.dropWaiter p).preds = k.preds := rfl
@[simp] theorem Bank.dropWaiter_pend (k : Bank) (p : Point) : (k.dropWaiter p).pend = k.pend := rfl
@[simp] theorem Bank.dropWaiter_flags (k : Bank) (p : Point) : (k.dropWaiter p).flags = k.flags := rfl
@[simp] theorem Bank.dropWaiter_incs (k : Bank) (p : Point) : (k.dropWaiter p).incs = k.incs := rfl
@[simp] theorem Bank.dropWaiter_took (k : Bank) (p : Point) : (k.dropWaiter p).took = k.took := rfl
@[simp] theorem Bank.dropWaiter_ctl (k : Bank) (p : Point) : (k.dropWaiter p).ctl = k.ctl := rfl
@[simp] theorem Bank.dropWaiter_pc (k : Bank) (p : Point) : (k.dropWaiter p).pc = k.pc := rfl
@[simp] theorem Bank.dropWaiter_targets (k : Bank) (p : Point) : (k.dropWaiter p).targets = k.targets := rfl
@[simp] theorem Bank.dropWaiter_fetched (k : Bank) (p : Point) : (k.dropWaiter p).fetched = k.fetched := rfl
@[simp] theorem Bank.dropWaiter_nullS (k : Bank) (p : Point) : (k.dropWaiter p).nullS = k.nullS := rfl
@[simp] theorem Bank.dropWaiter_skipWait (k : Bank) (p : Point) : (k.dropWaiter p).skipWait = k.skipWait := rfl
@[simp] theorem Bank.dropWaiter_heldWait (k : Bank) (p : Point) : (k.dropWaiter p).heldWait = k.heldWait := rfl
@[simp] theorem Bank.dropWaiter_nextIssue (k : Bank) (p : Point) : (k.dropWaiter p).nextIssue = k.nextIssue := rfl
@[simp] theorem Bank.dropWaiter_blocked (k : Bank) (p : Point) : (k.dropWaiter p).blocked = k.blocked := rfl
@[simp] theorem Bank.dropWaiter_sloop (k : Bank) (p : Point) : (k.dropWaiter p).sloop = k.sloop := rfl
@[simp] theorem Bank.dropWaiter_vaPos (k : Bank) (p : Point) : (k.dropWaiter p).vaPos = k.vaPos := rfl
@[simp] theorem Bank.dropWaiter_vaDyn (k : Bank) (p : Point) : (k.dropWaiter p).vaDyn = k.vaDyn := rfl
@[simp] theorem Bank.dropWaiter_veDyn (k : Bank) (p : Point) : (k.dropWaiter p).veDyn = k.veDyn := rfl
@[simp] theorem Bank.dropWaiter_vaSeen (k : Bank) (p : Point) : (k.dropWaiter p).vaSeen = k.vaSeen := rfl
@[simp] theorem Bank.dropWaiter_veSeen (k : Bank) (p : Point) : (k.dropWaiter p).veSeen = k.veSeen := rfl
@[simp] theorem Bank.dropWaiter_veDue (k : Bank) (p : Point) : (k.dropWaiter p).veDue = k.veDue := rfl
@[simp] theorem Bank.dropWaiter_pushed (k : Bank) (p : Point) : (k.dropWaiter p).pushed = k.pushed := rfl
@[simp] theorem Bank.dropWaiter_heldFrom (k : Bank) (p : Point) : (k.dropWaiter p).heldFrom = k.heldFrom := rfl
@[simp] theorem Bank.dropWaiter_ringBuf (k : Bank) (p : Point) : (k.dropWaiter p).ringBuf = k.ringBuf := rfl
@[simp] theorem Bank.dropWaiter_vloop (k : Bank) (p : Point) : (k.dropWaiter p).vloop = k.vloop := rfl
@[simp] theorem Bank.dropWaiter_cloop (k : Bank) (p : Point) : (k.dropWaiter p).cloop = k.cloop := rfl
@[simp] theorem Bank.dropWaiter_mloop (k : Bank) (p : Point) : (k.dropWaiter p).mloop = k.mloop := rfl
@[simp] theorem Bank.dropWaiter_queues (k : Bank) (p : Point) : (k.dropWaiter p).queues = k.queues := rfl
@[simp] theorem Bank.dropWaiter_masks (k : Bank) (p : Point) : (k.dropWaiter p).masks = k.masks := rfl
@[simp] theorem Bank.dropWaiter_maps (k : Bank) (p : Point) : (k.dropWaiter p).maps = k.maps := rfl
@[simp] theorem Bank.dropWaiter_seqSlots (k : Bank) (p : Point) : (k.dropWaiter p).seqSlots = k.seqSlots := rfl
@[simp] theorem Bank.dropWaiter_fmt (k : Bank) (p : Point) : (k.dropWaiter p).fmt = k.fmt := rfl
@[simp] theorem Bank.dropWaiter_fmtErr (k : Bank) (p : Point) : (k.dropWaiter p).fmtErr = k.fmtErr := rfl
@[simp] theorem Bank.dropWaiter_slotErr (k : Bank) (p : Point) : (k.dropWaiter p).slotErr = k.slotErr := rfl
@[simp] theorem Bank.dropWaiter_ascaleFill (k : Bank) (p : Point) : (k.dropWaiter p).ascaleFill = k.ascaleFill := rfl
@[simp] theorem Bank.dropWaiter_ascale (k : Bank) (p : Point) : (k.dropWaiter p).ascale = k.ascale := rfl
@[simp] theorem Bank.dropWaiter_scaleErr (k : Bank) (p : Point) : (k.dropWaiter p).scaleErr = k.scaleErr := rfl
@[simp] theorem Bank.dropWaiter_ops (k : Bank) (p : Point) : (k.dropWaiter p).ops = k.ops := rfl
@[simp] theorem Bank.dropWaiter_apertures (k : Bank) (p : Point) : (k.dropWaiter p).apertures = k.apertures := rfl
@[simp] theorem Bank.dropWaiter_tlb (k : Bank) (p : Point) : (k.dropWaiter p).tlb = k.tlb := rfl
@[simp] theorem Bank.dropWaiter_stamp (k : Bank) (p : Point) : (k.dropWaiter p).stamp = k.stamp := rfl
@[simp] theorem Bank.dropWaiter_parked (k : Bank) (p : Point) : (k.dropWaiter p).parked = k.parked := rfl
@[simp] theorem Bank.dropWaiter_freeze (k : Bank) (p : Point) : (k.dropWaiter p).freeze = k.freeze := rfl
@[simp] theorem Bank.dropWaiter_stopped (k : Bank) (p : Point) : (k.dropWaiter p).stopped = k.stopped := rfl
@[simp] theorem Bank.dropWaiter_held (k : Bank) (p : Point) : (k.dropWaiter p).held = k.held := rfl
@[simp] theorem Bank.dropWaiter_reshardTrap (k : Bank) (p : Point) : (k.dropWaiter p).reshardTrap = k.reshardTrap := rfl
@[simp] theorem Bank.dropWaiter_preempt (k : Bank) (p : Point) : (k.dropWaiter p).preempt = k.preempt := rfl
@[simp] theorem Bank.dropWaiter_stopS (k : Bank) (p : Point) : (k.dropWaiter p).stopS = k.stopS := rfl
@[simp] theorem Bank.dropWaiter_yielded (k : Bank) (p : Point) : (k.dropWaiter p).yielded = k.yielded := rfl
@[simp] theorem Bank.dropWaiter_openPkts (k : Bank) (p : Point) : (k.dropWaiter p).openPkts = k.openPkts := rfl
@[simp] theorem Bank.dropWaiter_phases (k : Bank) (p : Point) : (k.dropWaiter p).phases = k.phases := rfl
@[simp] theorem Bank.dropWaiter_idleSince (k : Bank) (p : Point) : (k.dropWaiter p).idleSince = k.idleSince := rfl
@[simp] theorem Bank.dropWaiter_leaseHeld (k : Bank) (p : Point) : (k.dropWaiter p).leaseHeld = k.leaseHeld := rfl
@[simp] theorem Bank.dropWaiter_leaseOwed (k : Bank) (p : Point) : (k.dropWaiter p).leaseOwed = k.leaseOwed := rfl
@[simp] theorem Bank.dropWaiter_lastPoint (k : Bank) (p : Point) : (k.dropWaiter p).lastPoint = k.lastPoint := rfl
@[simp] theorem Bank.dropWaiter_halo (k : Bank) (p : Point) : (k.dropWaiter p).halo = k.halo := rfl

/-! putWaiter. -/

@[simp] theorem Bank.putWaiter_job (k : Bank) (w : Waiter) : (k.putWaiter w).job = k.job := rfl
@[simp] theorem Bank.putWaiter_sregs (k : Bank) (w : Waiter) : (k.putWaiter w).sregs = k.sregs := rfl
@[simp] theorem Bank.putWaiter_preds (k : Bank) (w : Waiter) : (k.putWaiter w).preds = k.preds := rfl
@[simp] theorem Bank.putWaiter_pend (k : Bank) (w : Waiter) : (k.putWaiter w).pend = k.pend := rfl
@[simp] theorem Bank.putWaiter_flags (k : Bank) (w : Waiter) : (k.putWaiter w).flags = k.flags := rfl
@[simp] theorem Bank.putWaiter_incs (k : Bank) (w : Waiter) : (k.putWaiter w).incs = k.incs := rfl
@[simp] theorem Bank.putWaiter_took (k : Bank) (w : Waiter) : (k.putWaiter w).took = k.took := rfl
@[simp] theorem Bank.putWaiter_ctl (k : Bank) (w : Waiter) : (k.putWaiter w).ctl = k.ctl := rfl
@[simp] theorem Bank.putWaiter_pc (k : Bank) (w : Waiter) : (k.putWaiter w).pc = k.pc := rfl
@[simp] theorem Bank.putWaiter_targets (k : Bank) (w : Waiter) : (k.putWaiter w).targets = k.targets := rfl
@[simp] theorem Bank.putWaiter_fetched (k : Bank) (w : Waiter) : (k.putWaiter w).fetched = k.fetched := rfl
@[simp] theorem Bank.putWaiter_nullS (k : Bank) (w : Waiter) : (k.putWaiter w).nullS = k.nullS := rfl
@[simp] theorem Bank.putWaiter_skipWait (k : Bank) (w : Waiter) : (k.putWaiter w).skipWait = k.skipWait := rfl
@[simp] theorem Bank.putWaiter_heldWait (k : Bank) (w : Waiter) : (k.putWaiter w).heldWait = k.heldWait := rfl
@[simp] theorem Bank.putWaiter_nextIssue (k : Bank) (w : Waiter) : (k.putWaiter w).nextIssue = k.nextIssue := rfl
@[simp] theorem Bank.putWaiter_blocked (k : Bank) (w : Waiter) : (k.putWaiter w).blocked = k.blocked := rfl
@[simp] theorem Bank.putWaiter_sloop (k : Bank) (w : Waiter) : (k.putWaiter w).sloop = k.sloop := rfl
@[simp] theorem Bank.putWaiter_vaPos (k : Bank) (w : Waiter) : (k.putWaiter w).vaPos = k.vaPos := rfl
@[simp] theorem Bank.putWaiter_vaDyn (k : Bank) (w : Waiter) : (k.putWaiter w).vaDyn = k.vaDyn := rfl
@[simp] theorem Bank.putWaiter_veDyn (k : Bank) (w : Waiter) : (k.putWaiter w).veDyn = k.veDyn := rfl
@[simp] theorem Bank.putWaiter_vaSeen (k : Bank) (w : Waiter) : (k.putWaiter w).vaSeen = k.vaSeen := rfl
@[simp] theorem Bank.putWaiter_veSeen (k : Bank) (w : Waiter) : (k.putWaiter w).veSeen = k.veSeen := rfl
@[simp] theorem Bank.putWaiter_veDue (k : Bank) (w : Waiter) : (k.putWaiter w).veDue = k.veDue := rfl
@[simp] theorem Bank.putWaiter_pushed (k : Bank) (w : Waiter) : (k.putWaiter w).pushed = k.pushed := rfl
@[simp] theorem Bank.putWaiter_heldFrom (k : Bank) (w : Waiter) : (k.putWaiter w).heldFrom = k.heldFrom := rfl
@[simp] theorem Bank.putWaiter_ringBuf (k : Bank) (w : Waiter) : (k.putWaiter w).ringBuf = k.ringBuf := rfl
@[simp] theorem Bank.putWaiter_vloop (k : Bank) (w : Waiter) : (k.putWaiter w).vloop = k.vloop := rfl
@[simp] theorem Bank.putWaiter_cloop (k : Bank) (w : Waiter) : (k.putWaiter w).cloop = k.cloop := rfl
@[simp] theorem Bank.putWaiter_mloop (k : Bank) (w : Waiter) : (k.putWaiter w).mloop = k.mloop := rfl
@[simp] theorem Bank.putWaiter_queues (k : Bank) (w : Waiter) : (k.putWaiter w).queues = k.queues := rfl
@[simp] theorem Bank.putWaiter_masks (k : Bank) (w : Waiter) : (k.putWaiter w).masks = k.masks := rfl
@[simp] theorem Bank.putWaiter_maps (k : Bank) (w : Waiter) : (k.putWaiter w).maps = k.maps := rfl
@[simp] theorem Bank.putWaiter_seqSlots (k : Bank) (w : Waiter) : (k.putWaiter w).seqSlots = k.seqSlots := rfl
@[simp] theorem Bank.putWaiter_fmt (k : Bank) (w : Waiter) : (k.putWaiter w).fmt = k.fmt := rfl
@[simp] theorem Bank.putWaiter_fmtErr (k : Bank) (w : Waiter) : (k.putWaiter w).fmtErr = k.fmtErr := rfl
@[simp] theorem Bank.putWaiter_slotErr (k : Bank) (w : Waiter) : (k.putWaiter w).slotErr = k.slotErr := rfl
@[simp] theorem Bank.putWaiter_ascaleFill (k : Bank) (w : Waiter) : (k.putWaiter w).ascaleFill = k.ascaleFill := rfl
@[simp] theorem Bank.putWaiter_ascale (k : Bank) (w : Waiter) : (k.putWaiter w).ascale = k.ascale := rfl
@[simp] theorem Bank.putWaiter_scaleErr (k : Bank) (w : Waiter) : (k.putWaiter w).scaleErr = k.scaleErr := rfl
@[simp] theorem Bank.putWaiter_ops (k : Bank) (w : Waiter) : (k.putWaiter w).ops = k.ops := rfl
@[simp] theorem Bank.putWaiter_apertures (k : Bank) (w : Waiter) : (k.putWaiter w).apertures = k.apertures := rfl
@[simp] theorem Bank.putWaiter_tlb (k : Bank) (w : Waiter) : (k.putWaiter w).tlb = k.tlb := rfl
@[simp] theorem Bank.putWaiter_stamp (k : Bank) (w : Waiter) : (k.putWaiter w).stamp = k.stamp := rfl
@[simp] theorem Bank.putWaiter_parked (k : Bank) (w : Waiter) : (k.putWaiter w).parked = k.parked := rfl
@[simp] theorem Bank.putWaiter_freeze (k : Bank) (w : Waiter) : (k.putWaiter w).freeze = k.freeze := rfl
@[simp] theorem Bank.putWaiter_stopped (k : Bank) (w : Waiter) : (k.putWaiter w).stopped = k.stopped := rfl
@[simp] theorem Bank.putWaiter_held (k : Bank) (w : Waiter) : (k.putWaiter w).held = k.held := rfl
@[simp] theorem Bank.putWaiter_reshardTrap (k : Bank) (w : Waiter) : (k.putWaiter w).reshardTrap = k.reshardTrap := rfl
@[simp] theorem Bank.putWaiter_preempt (k : Bank) (w : Waiter) : (k.putWaiter w).preempt = k.preempt := rfl
@[simp] theorem Bank.putWaiter_stopS (k : Bank) (w : Waiter) : (k.putWaiter w).stopS = k.stopS := rfl
@[simp] theorem Bank.putWaiter_yielded (k : Bank) (w : Waiter) : (k.putWaiter w).yielded = k.yielded := rfl
@[simp] theorem Bank.putWaiter_openPkts (k : Bank) (w : Waiter) : (k.putWaiter w).openPkts = k.openPkts := rfl
@[simp] theorem Bank.putWaiter_phases (k : Bank) (w : Waiter) : (k.putWaiter w).phases = k.phases := rfl
@[simp] theorem Bank.putWaiter_idleSince (k : Bank) (w : Waiter) : (k.putWaiter w).idleSince = k.idleSince := rfl
@[simp] theorem Bank.putWaiter_leaseHeld (k : Bank) (w : Waiter) : (k.putWaiter w).leaseHeld = k.leaseHeld := rfl
@[simp] theorem Bank.putWaiter_leaseOwed (k : Bank) (w : Waiter) : (k.putWaiter w).leaseOwed = k.leaseOwed := rfl
@[simp] theorem Bank.putWaiter_lastPoint (k : Bank) (w : Waiter) : (k.putWaiter w).lastPoint = k.lastPoint := rfl
@[simp] theorem Bank.putWaiter_halo (k : Bank) (w : Waiter) : (k.putWaiter w).halo = k.halo := rfl

/-! judgeBefore. -/

@[simp] theorem Bank.judgeBefore_job (k : Bank) (c : Nat) (p : Point) (f r : Nat) : (k.judgeBefore c p f r).job = k.job := rfl
@[simp] theorem Bank.judgeBefore_sregs (k : Bank) (c : Nat) (p : Point) (f r : Nat) : (k.judgeBefore c p f r).sregs = k.sregs := rfl
@[simp] theorem Bank.judgeBefore_preds (k : Bank) (c : Nat) (p : Point) (f r : Nat) : (k.judgeBefore c p f r).preds = k.preds := rfl
@[simp] theorem Bank.judgeBefore_pend (k : Bank) (c : Nat) (p : Point) (f r : Nat) : (k.judgeBefore c p f r).pend = k.pend := rfl
@[simp] theorem Bank.judgeBefore_flags (k : Bank) (c : Nat) (p : Point) (f r : Nat) : (k.judgeBefore c p f r).flags = k.flags := rfl
@[simp] theorem Bank.judgeBefore_incs (k : Bank) (c : Nat) (p : Point) (f r : Nat) : (k.judgeBefore c p f r).incs = k.incs := rfl
@[simp] theorem Bank.judgeBefore_took (k : Bank) (c : Nat) (p : Point) (f r : Nat) : (k.judgeBefore c p f r).took = k.took := rfl
@[simp] theorem Bank.judgeBefore_ctl (k : Bank) (c : Nat) (p : Point) (f r : Nat) : (k.judgeBefore c p f r).ctl = k.ctl := rfl
@[simp] theorem Bank.judgeBefore_pc (k : Bank) (c : Nat) (p : Point) (f r : Nat) : (k.judgeBefore c p f r).pc = k.pc := rfl
@[simp] theorem Bank.judgeBefore_targets (k : Bank) (c : Nat) (p : Point) (f r : Nat) : (k.judgeBefore c p f r).targets = k.targets := rfl
@[simp] theorem Bank.judgeBefore_fetched (k : Bank) (c : Nat) (p : Point) (f r : Nat) : (k.judgeBefore c p f r).fetched = k.fetched := rfl
@[simp] theorem Bank.judgeBefore_nullS (k : Bank) (c : Nat) (p : Point) (f r : Nat) : (k.judgeBefore c p f r).nullS = k.nullS := rfl
@[simp] theorem Bank.judgeBefore_skipWait (k : Bank) (c : Nat) (p : Point) (f r : Nat) : (k.judgeBefore c p f r).skipWait = k.skipWait := rfl
@[simp] theorem Bank.judgeBefore_heldWait (k : Bank) (c : Nat) (p : Point) (f r : Nat) : (k.judgeBefore c p f r).heldWait = k.heldWait := rfl
@[simp] theorem Bank.judgeBefore_nextIssue (k : Bank) (c : Nat) (p : Point) (f r : Nat) : (k.judgeBefore c p f r).nextIssue = k.nextIssue := rfl
@[simp] theorem Bank.judgeBefore_blocked (k : Bank) (c : Nat) (p : Point) (f r : Nat) : (k.judgeBefore c p f r).blocked = k.blocked := rfl
@[simp] theorem Bank.judgeBefore_sloop (k : Bank) (c : Nat) (p : Point) (f r : Nat) : (k.judgeBefore c p f r).sloop = k.sloop := rfl
@[simp] theorem Bank.judgeBefore_vaPos (k : Bank) (c : Nat) (p : Point) (f r : Nat) : (k.judgeBefore c p f r).vaPos = k.vaPos := rfl
@[simp] theorem Bank.judgeBefore_vaDyn (k : Bank) (c : Nat) (p : Point) (f r : Nat) : (k.judgeBefore c p f r).vaDyn = k.vaDyn := rfl
@[simp] theorem Bank.judgeBefore_veDyn (k : Bank) (c : Nat) (p : Point) (f r : Nat) : (k.judgeBefore c p f r).veDyn = k.veDyn := rfl
@[simp] theorem Bank.judgeBefore_vaSeen (k : Bank) (c : Nat) (p : Point) (f r : Nat) : (k.judgeBefore c p f r).vaSeen = k.vaSeen := rfl
@[simp] theorem Bank.judgeBefore_veSeen (k : Bank) (c : Nat) (p : Point) (f r : Nat) : (k.judgeBefore c p f r).veSeen = k.veSeen := rfl
@[simp] theorem Bank.judgeBefore_veDue (k : Bank) (c : Nat) (p : Point) (f r : Nat) : (k.judgeBefore c p f r).veDue = k.veDue := rfl
@[simp] theorem Bank.judgeBefore_pushed (k : Bank) (c : Nat) (p : Point) (f r : Nat) : (k.judgeBefore c p f r).pushed = k.pushed := rfl
@[simp] theorem Bank.judgeBefore_heldFrom (k : Bank) (c : Nat) (p : Point) (f r : Nat) : (k.judgeBefore c p f r).heldFrom = k.heldFrom := rfl
@[simp] theorem Bank.judgeBefore_ringBuf (k : Bank) (c : Nat) (p : Point) (f r : Nat) : (k.judgeBefore c p f r).ringBuf = k.ringBuf := rfl
@[simp] theorem Bank.judgeBefore_vloop (k : Bank) (c : Nat) (p : Point) (f r : Nat) : (k.judgeBefore c p f r).vloop = k.vloop := rfl
@[simp] theorem Bank.judgeBefore_cloop (k : Bank) (c : Nat) (p : Point) (f r : Nat) : (k.judgeBefore c p f r).cloop = k.cloop := rfl
@[simp] theorem Bank.judgeBefore_mloop (k : Bank) (c : Nat) (p : Point) (f r : Nat) : (k.judgeBefore c p f r).mloop = k.mloop := rfl
@[simp] theorem Bank.judgeBefore_queues (k : Bank) (c : Nat) (p : Point) (f r : Nat) : (k.judgeBefore c p f r).queues = k.queues := rfl
@[simp] theorem Bank.judgeBefore_masks (k : Bank) (c : Nat) (p : Point) (f r : Nat) : (k.judgeBefore c p f r).masks = k.masks := rfl
@[simp] theorem Bank.judgeBefore_maps (k : Bank) (c : Nat) (p : Point) (f r : Nat) : (k.judgeBefore c p f r).maps = k.maps := rfl
@[simp] theorem Bank.judgeBefore_seqSlots (k : Bank) (c : Nat) (p : Point) (f r : Nat) : (k.judgeBefore c p f r).seqSlots = k.seqSlots := rfl
@[simp] theorem Bank.judgeBefore_fmt (k : Bank) (c : Nat) (p : Point) (f r : Nat) : (k.judgeBefore c p f r).fmt = k.fmt := rfl
@[simp] theorem Bank.judgeBefore_fmtErr (k : Bank) (c : Nat) (p : Point) (f r : Nat) : (k.judgeBefore c p f r).fmtErr = k.fmtErr := rfl
@[simp] theorem Bank.judgeBefore_slotErr (k : Bank) (c : Nat) (p : Point) (f r : Nat) : (k.judgeBefore c p f r).slotErr = k.slotErr := rfl
@[simp] theorem Bank.judgeBefore_ascaleFill (k : Bank) (c : Nat) (p : Point) (f r : Nat) : (k.judgeBefore c p f r).ascaleFill = k.ascaleFill := rfl
@[simp] theorem Bank.judgeBefore_ascale (k : Bank) (c : Nat) (p : Point) (f r : Nat) : (k.judgeBefore c p f r).ascale = k.ascale := rfl
@[simp] theorem Bank.judgeBefore_scaleErr (k : Bank) (c : Nat) (p : Point) (f r : Nat) : (k.judgeBefore c p f r).scaleErr = k.scaleErr := rfl
@[simp] theorem Bank.judgeBefore_ops (k : Bank) (c : Nat) (p : Point) (f r : Nat) : (k.judgeBefore c p f r).ops = k.ops := rfl
@[simp] theorem Bank.judgeBefore_apertures (k : Bank) (c : Nat) (p : Point) (f r : Nat) : (k.judgeBefore c p f r).apertures = k.apertures := rfl
@[simp] theorem Bank.judgeBefore_tlb (k : Bank) (c : Nat) (p : Point) (f r : Nat) : (k.judgeBefore c p f r).tlb = k.tlb := rfl
@[simp] theorem Bank.judgeBefore_stamp (k : Bank) (c : Nat) (p : Point) (f r : Nat) : (k.judgeBefore c p f r).stamp = k.stamp := rfl
@[simp] theorem Bank.judgeBefore_parked (k : Bank) (c : Nat) (p : Point) (f r : Nat) : (k.judgeBefore c p f r).parked = k.parked := rfl
@[simp] theorem Bank.judgeBefore_freeze (k : Bank) (c : Nat) (p : Point) (f r : Nat) : (k.judgeBefore c p f r).freeze = k.freeze := rfl
@[simp] theorem Bank.judgeBefore_stopped (k : Bank) (c : Nat) (p : Point) (f r : Nat) : (k.judgeBefore c p f r).stopped = k.stopped := rfl
@[simp] theorem Bank.judgeBefore_held (k : Bank) (c : Nat) (p : Point) (f r : Nat) : (k.judgeBefore c p f r).held = k.held := rfl
@[simp] theorem Bank.judgeBefore_reshardTrap (k : Bank) (c : Nat) (p : Point) (f r : Nat) : (k.judgeBefore c p f r).reshardTrap = k.reshardTrap := rfl
@[simp] theorem Bank.judgeBefore_preempt (k : Bank) (c : Nat) (p : Point) (f r : Nat) : (k.judgeBefore c p f r).preempt = k.preempt := rfl
@[simp] theorem Bank.judgeBefore_stopS (k : Bank) (c : Nat) (p : Point) (f r : Nat) : (k.judgeBefore c p f r).stopS = k.stopS := rfl
@[simp] theorem Bank.judgeBefore_yielded (k : Bank) (c : Nat) (p : Point) (f r : Nat) : (k.judgeBefore c p f r).yielded = k.yielded := rfl
@[simp] theorem Bank.judgeBefore_openPkts (k : Bank) (c : Nat) (p : Point) (f r : Nat) : (k.judgeBefore c p f r).openPkts = k.openPkts := rfl
@[simp] theorem Bank.judgeBefore_phases (k : Bank) (c : Nat) (p : Point) (f r : Nat) : (k.judgeBefore c p f r).phases = k.phases := rfl
@[simp] theorem Bank.judgeBefore_idleSince (k : Bank) (c : Nat) (p : Point) (f r : Nat) : (k.judgeBefore c p f r).idleSince = k.idleSince := rfl
@[simp] theorem Bank.judgeBefore_leaseHeld (k : Bank) (c : Nat) (p : Point) (f r : Nat) : (k.judgeBefore c p f r).leaseHeld = k.leaseHeld := rfl
@[simp] theorem Bank.judgeBefore_leaseOwed (k : Bank) (c : Nat) (p : Point) (f r : Nat) : (k.judgeBefore c p f r).leaseOwed = k.leaseOwed := rfl
@[simp] theorem Bank.judgeBefore_lastPoint (k : Bank) (c : Nat) (p : Point) (f r : Nat) : (k.judgeBefore c p f r).lastPoint = k.lastPoint := rfl
@[simp] theorem Bank.judgeBefore_halo (k : Bank) (c : Nat) (p : Point) (f r : Nat) : (k.judgeBefore c p f r).halo = k.halo := rfl

/-! consume. -/

@[simp] theorem Bank.consume_job (k : Bank) (c f n : Nat) : (k.consume c f n).job = k.job := rfl
@[simp] theorem Bank.consume_sregs (k : Bank) (c f n : Nat) : (k.consume c f n).sregs = k.sregs := rfl
@[simp] theorem Bank.consume_preds (k : Bank) (c f n : Nat) : (k.consume c f n).preds = k.preds := rfl
@[simp] theorem Bank.consume_pend (k : Bank) (c f n : Nat) : (k.consume c f n).pend = k.pend := rfl
@[simp] theorem Bank.consume_incs (k : Bank) (c f n : Nat) : (k.consume c f n).incs = k.incs := rfl
@[simp] theorem Bank.consume_waiters (k : Bank) (c f n : Nat) : (k.consume c f n).waiters = k.waiters := rfl
@[simp] theorem Bank.consume_ctl (k : Bank) (c f n : Nat) : (k.consume c f n).ctl = k.ctl := rfl
@[simp] theorem Bank.consume_pc (k : Bank) (c f n : Nat) : (k.consume c f n).pc = k.pc := rfl
@[simp] theorem Bank.consume_targets (k : Bank) (c f n : Nat) : (k.consume c f n).targets = k.targets := rfl
@[simp] theorem Bank.consume_fetched (k : Bank) (c f n : Nat) : (k.consume c f n).fetched = k.fetched := rfl
@[simp] theorem Bank.consume_nullS (k : Bank) (c f n : Nat) : (k.consume c f n).nullS = k.nullS := rfl
@[simp] theorem Bank.consume_skipWait (k : Bank) (c f n : Nat) : (k.consume c f n).skipWait = k.skipWait := rfl
@[simp] theorem Bank.consume_heldWait (k : Bank) (c f n : Nat) : (k.consume c f n).heldWait = k.heldWait := rfl
@[simp] theorem Bank.consume_nextIssue (k : Bank) (c f n : Nat) : (k.consume c f n).nextIssue = k.nextIssue := rfl
@[simp] theorem Bank.consume_blocked (k : Bank) (c f n : Nat) : (k.consume c f n).blocked = k.blocked := rfl
@[simp] theorem Bank.consume_sloop (k : Bank) (c f n : Nat) : (k.consume c f n).sloop = k.sloop := rfl
@[simp] theorem Bank.consume_vaPos (k : Bank) (c f n : Nat) : (k.consume c f n).vaPos = k.vaPos := rfl
@[simp] theorem Bank.consume_vaDyn (k : Bank) (c f n : Nat) : (k.consume c f n).vaDyn = k.vaDyn := rfl
@[simp] theorem Bank.consume_veDyn (k : Bank) (c f n : Nat) : (k.consume c f n).veDyn = k.veDyn := rfl
@[simp] theorem Bank.consume_vaSeen (k : Bank) (c f n : Nat) : (k.consume c f n).vaSeen = k.vaSeen := rfl
@[simp] theorem Bank.consume_veSeen (k : Bank) (c f n : Nat) : (k.consume c f n).veSeen = k.veSeen := rfl
@[simp] theorem Bank.consume_veDue (k : Bank) (c f n : Nat) : (k.consume c f n).veDue = k.veDue := rfl
@[simp] theorem Bank.consume_pushed (k : Bank) (c f n : Nat) : (k.consume c f n).pushed = k.pushed := rfl
@[simp] theorem Bank.consume_heldFrom (k : Bank) (c f n : Nat) : (k.consume c f n).heldFrom = k.heldFrom := rfl
@[simp] theorem Bank.consume_ringBuf (k : Bank) (c f n : Nat) : (k.consume c f n).ringBuf = k.ringBuf := rfl
@[simp] theorem Bank.consume_vloop (k : Bank) (c f n : Nat) : (k.consume c f n).vloop = k.vloop := rfl
@[simp] theorem Bank.consume_cloop (k : Bank) (c f n : Nat) : (k.consume c f n).cloop = k.cloop := rfl
@[simp] theorem Bank.consume_mloop (k : Bank) (c f n : Nat) : (k.consume c f n).mloop = k.mloop := rfl
@[simp] theorem Bank.consume_queues (k : Bank) (c f n : Nat) : (k.consume c f n).queues = k.queues := rfl
@[simp] theorem Bank.consume_masks (k : Bank) (c f n : Nat) : (k.consume c f n).masks = k.masks := rfl
@[simp] theorem Bank.consume_maps (k : Bank) (c f n : Nat) : (k.consume c f n).maps = k.maps := rfl
@[simp] theorem Bank.consume_seqSlots (k : Bank) (c f n : Nat) : (k.consume c f n).seqSlots = k.seqSlots := rfl
@[simp] theorem Bank.consume_fmt (k : Bank) (c f n : Nat) : (k.consume c f n).fmt = k.fmt := rfl
@[simp] theorem Bank.consume_fmtErr (k : Bank) (c f n : Nat) : (k.consume c f n).fmtErr = k.fmtErr := rfl
@[simp] theorem Bank.consume_slotErr (k : Bank) (c f n : Nat) : (k.consume c f n).slotErr = k.slotErr := rfl
@[simp] theorem Bank.consume_ascaleFill (k : Bank) (c f n : Nat) : (k.consume c f n).ascaleFill = k.ascaleFill := rfl
@[simp] theorem Bank.consume_ascale (k : Bank) (c f n : Nat) : (k.consume c f n).ascale = k.ascale := rfl
@[simp] theorem Bank.consume_scaleErr (k : Bank) (c f n : Nat) : (k.consume c f n).scaleErr = k.scaleErr := rfl
@[simp] theorem Bank.consume_ops (k : Bank) (c f n : Nat) : (k.consume c f n).ops = k.ops := rfl
@[simp] theorem Bank.consume_apertures (k : Bank) (c f n : Nat) : (k.consume c f n).apertures = k.apertures := rfl
@[simp] theorem Bank.consume_tlb (k : Bank) (c f n : Nat) : (k.consume c f n).tlb = k.tlb := rfl
@[simp] theorem Bank.consume_stamp (k : Bank) (c f n : Nat) : (k.consume c f n).stamp = k.stamp := rfl
@[simp] theorem Bank.consume_parked (k : Bank) (c f n : Nat) : (k.consume c f n).parked = k.parked := rfl
@[simp] theorem Bank.consume_freeze (k : Bank) (c f n : Nat) : (k.consume c f n).freeze = k.freeze := rfl
@[simp] theorem Bank.consume_stopped (k : Bank) (c f n : Nat) : (k.consume c f n).stopped = k.stopped := rfl
@[simp] theorem Bank.consume_held (k : Bank) (c f n : Nat) : (k.consume c f n).held = k.held := rfl
@[simp] theorem Bank.consume_reshardTrap (k : Bank) (c f n : Nat) : (k.consume c f n).reshardTrap = k.reshardTrap := rfl
@[simp] theorem Bank.consume_preempt (k : Bank) (c f n : Nat) : (k.consume c f n).preempt = k.preempt := rfl
@[simp] theorem Bank.consume_stopS (k : Bank) (c f n : Nat) : (k.consume c f n).stopS = k.stopS := rfl
@[simp] theorem Bank.consume_yielded (k : Bank) (c f n : Nat) : (k.consume c f n).yielded = k.yielded := rfl
@[simp] theorem Bank.consume_openPkts (k : Bank) (c f n : Nat) : (k.consume c f n).openPkts = k.openPkts := rfl
@[simp] theorem Bank.consume_phases (k : Bank) (c f n : Nat) : (k.consume c f n).phases = k.phases := rfl
@[simp] theorem Bank.consume_idleSince (k : Bank) (c f n : Nat) : (k.consume c f n).idleSince = k.idleSince := rfl
@[simp] theorem Bank.consume_leaseHeld (k : Bank) (c f n : Nat) : (k.consume c f n).leaseHeld = k.leaseHeld := rfl
@[simp] theorem Bank.consume_leaseOwed (k : Bank) (c f n : Nat) : (k.consume c f n).leaseOwed = k.leaseOwed := rfl
@[simp] theorem Bank.consume_lastPoint (k : Bank) (c f n : Nat) : (k.consume c f n).lastPoint = k.lastPoint := rfl
@[simp] theorem Bank.consume_halo (k : Bank) (c f n : Nat) : (k.consume c f n).halo = k.halo := rfl

/-! setQueue. -/

@[simp] theorem Bank.setQueue_job (k : Bank) (q : Nat) (v : Queue) : (k.setQueue q v).job = k.job := rfl
@[simp] theorem Bank.setQueue_sregs (k : Bank) (q : Nat) (v : Queue) : (k.setQueue q v).sregs = k.sregs := rfl
@[simp] theorem Bank.setQueue_preds (k : Bank) (q : Nat) (v : Queue) : (k.setQueue q v).preds = k.preds := rfl
@[simp] theorem Bank.setQueue_pend (k : Bank) (q : Nat) (v : Queue) : (k.setQueue q v).pend = k.pend := rfl
@[simp] theorem Bank.setQueue_flags (k : Bank) (q : Nat) (v : Queue) : (k.setQueue q v).flags = k.flags := rfl
@[simp] theorem Bank.setQueue_incs (k : Bank) (q : Nat) (v : Queue) : (k.setQueue q v).incs = k.incs := rfl
@[simp] theorem Bank.setQueue_waiters (k : Bank) (q : Nat) (v : Queue) : (k.setQueue q v).waiters = k.waiters := rfl
@[simp] theorem Bank.setQueue_took (k : Bank) (q : Nat) (v : Queue) : (k.setQueue q v).took = k.took := rfl
@[simp] theorem Bank.setQueue_ctl (k : Bank) (q : Nat) (v : Queue) : (k.setQueue q v).ctl = k.ctl := rfl
@[simp] theorem Bank.setQueue_pc (k : Bank) (q : Nat) (v : Queue) : (k.setQueue q v).pc = k.pc := rfl
@[simp] theorem Bank.setQueue_targets (k : Bank) (q : Nat) (v : Queue) : (k.setQueue q v).targets = k.targets := rfl
@[simp] theorem Bank.setQueue_fetched (k : Bank) (q : Nat) (v : Queue) : (k.setQueue q v).fetched = k.fetched := rfl
@[simp] theorem Bank.setQueue_nullS (k : Bank) (q : Nat) (v : Queue) : (k.setQueue q v).nullS = k.nullS := rfl
@[simp] theorem Bank.setQueue_skipWait (k : Bank) (q : Nat) (v : Queue) : (k.setQueue q v).skipWait = k.skipWait := rfl
@[simp] theorem Bank.setQueue_heldWait (k : Bank) (q : Nat) (v : Queue) : (k.setQueue q v).heldWait = k.heldWait := rfl
@[simp] theorem Bank.setQueue_nextIssue (k : Bank) (q : Nat) (v : Queue) : (k.setQueue q v).nextIssue = k.nextIssue := rfl
@[simp] theorem Bank.setQueue_blocked (k : Bank) (q : Nat) (v : Queue) : (k.setQueue q v).blocked = k.blocked := rfl
@[simp] theorem Bank.setQueue_sloop (k : Bank) (q : Nat) (v : Queue) : (k.setQueue q v).sloop = k.sloop := rfl
@[simp] theorem Bank.setQueue_vaPos (k : Bank) (q : Nat) (v : Queue) : (k.setQueue q v).vaPos = k.vaPos := rfl
@[simp] theorem Bank.setQueue_vaDyn (k : Bank) (q : Nat) (v : Queue) : (k.setQueue q v).vaDyn = k.vaDyn := rfl
@[simp] theorem Bank.setQueue_veDyn (k : Bank) (q : Nat) (v : Queue) : (k.setQueue q v).veDyn = k.veDyn := rfl
@[simp] theorem Bank.setQueue_vaSeen (k : Bank) (q : Nat) (v : Queue) : (k.setQueue q v).vaSeen = k.vaSeen := rfl
@[simp] theorem Bank.setQueue_veSeen (k : Bank) (q : Nat) (v : Queue) : (k.setQueue q v).veSeen = k.veSeen := rfl
@[simp] theorem Bank.setQueue_veDue (k : Bank) (q : Nat) (v : Queue) : (k.setQueue q v).veDue = k.veDue := rfl
@[simp] theorem Bank.setQueue_pushed (k : Bank) (q : Nat) (v : Queue) : (k.setQueue q v).pushed = k.pushed := rfl
@[simp] theorem Bank.setQueue_heldFrom (k : Bank) (q : Nat) (v : Queue) : (k.setQueue q v).heldFrom = k.heldFrom := rfl
@[simp] theorem Bank.setQueue_ringBuf (k : Bank) (q : Nat) (v : Queue) : (k.setQueue q v).ringBuf = k.ringBuf := rfl
@[simp] theorem Bank.setQueue_vloop (k : Bank) (q : Nat) (v : Queue) : (k.setQueue q v).vloop = k.vloop := rfl
@[simp] theorem Bank.setQueue_cloop (k : Bank) (q : Nat) (v : Queue) : (k.setQueue q v).cloop = k.cloop := rfl
@[simp] theorem Bank.setQueue_mloop (k : Bank) (q : Nat) (v : Queue) : (k.setQueue q v).mloop = k.mloop := rfl
@[simp] theorem Bank.setQueue_masks (k : Bank) (q : Nat) (v : Queue) : (k.setQueue q v).masks = k.masks := rfl
@[simp] theorem Bank.setQueue_maps (k : Bank) (q : Nat) (v : Queue) : (k.setQueue q v).maps = k.maps := rfl
@[simp] theorem Bank.setQueue_seqSlots (k : Bank) (q : Nat) (v : Queue) : (k.setQueue q v).seqSlots = k.seqSlots := rfl
@[simp] theorem Bank.setQueue_fmt (k : Bank) (q : Nat) (v : Queue) : (k.setQueue q v).fmt = k.fmt := rfl
@[simp] theorem Bank.setQueue_fmtErr (k : Bank) (q : Nat) (v : Queue) : (k.setQueue q v).fmtErr = k.fmtErr := rfl
@[simp] theorem Bank.setQueue_slotErr (k : Bank) (q : Nat) (v : Queue) : (k.setQueue q v).slotErr = k.slotErr := rfl
@[simp] theorem Bank.setQueue_ascaleFill (k : Bank) (q : Nat) (v : Queue) : (k.setQueue q v).ascaleFill = k.ascaleFill := rfl
@[simp] theorem Bank.setQueue_ascale (k : Bank) (q : Nat) (v : Queue) : (k.setQueue q v).ascale = k.ascale := rfl
@[simp] theorem Bank.setQueue_scaleErr (k : Bank) (q : Nat) (v : Queue) : (k.setQueue q v).scaleErr = k.scaleErr := rfl
@[simp] theorem Bank.setQueue_ops (k : Bank) (q : Nat) (v : Queue) : (k.setQueue q v).ops = k.ops := rfl
@[simp] theorem Bank.setQueue_apertures (k : Bank) (q : Nat) (v : Queue) : (k.setQueue q v).apertures = k.apertures := rfl
@[simp] theorem Bank.setQueue_tlb (k : Bank) (q : Nat) (v : Queue) : (k.setQueue q v).tlb = k.tlb := rfl
@[simp] theorem Bank.setQueue_stamp (k : Bank) (q : Nat) (v : Queue) : (k.setQueue q v).stamp = k.stamp := rfl
@[simp] theorem Bank.setQueue_parked (k : Bank) (q : Nat) (v : Queue) : (k.setQueue q v).parked = k.parked := rfl
@[simp] theorem Bank.setQueue_freeze (k : Bank) (q : Nat) (v : Queue) : (k.setQueue q v).freeze = k.freeze := rfl
@[simp] theorem Bank.setQueue_stopped (k : Bank) (q : Nat) (v : Queue) : (k.setQueue q v).stopped = k.stopped := rfl
@[simp] theorem Bank.setQueue_held (k : Bank) (q : Nat) (v : Queue) : (k.setQueue q v).held = k.held := rfl
@[simp] theorem Bank.setQueue_reshardTrap (k : Bank) (q : Nat) (v : Queue) : (k.setQueue q v).reshardTrap = k.reshardTrap := rfl
@[simp] theorem Bank.setQueue_preempt (k : Bank) (q : Nat) (v : Queue) : (k.setQueue q v).preempt = k.preempt := rfl
@[simp] theorem Bank.setQueue_stopS (k : Bank) (q : Nat) (v : Queue) : (k.setQueue q v).stopS = k.stopS := rfl
@[simp] theorem Bank.setQueue_yielded (k : Bank) (q : Nat) (v : Queue) : (k.setQueue q v).yielded = k.yielded := rfl
@[simp] theorem Bank.setQueue_openPkts (k : Bank) (q : Nat) (v : Queue) : (k.setQueue q v).openPkts = k.openPkts := rfl
@[simp] theorem Bank.setQueue_phases (k : Bank) (q : Nat) (v : Queue) : (k.setQueue q v).phases = k.phases := rfl
@[simp] theorem Bank.setQueue_idleSince (k : Bank) (q : Nat) (v : Queue) : (k.setQueue q v).idleSince = k.idleSince := rfl
@[simp] theorem Bank.setQueue_leaseHeld (k : Bank) (q : Nat) (v : Queue) : (k.setQueue q v).leaseHeld = k.leaseHeld := rfl
@[simp] theorem Bank.setQueue_leaseOwed (k : Bank) (q : Nat) (v : Queue) : (k.setQueue q v).leaseOwed = k.leaseOwed := rfl
@[simp] theorem Bank.setQueue_lastPoint (k : Bank) (q : Nat) (v : Queue) : (k.setQueue q v).lastPoint = k.lastPoint := rfl
@[simp] theorem Bank.setQueue_halo (k : Bank) (q : Nat) (v : Queue) : (k.setQueue q v).halo = k.halo := rfl

/-! modQueue. -/

@[simp] theorem Bank.modQueue_job (k : Bank) (q : Nat) (f : Queue → Queue) : (k.modQueue q f).job = k.job := rfl
@[simp] theorem Bank.modQueue_sregs (k : Bank) (q : Nat) (f : Queue → Queue) : (k.modQueue q f).sregs = k.sregs := rfl
@[simp] theorem Bank.modQueue_preds (k : Bank) (q : Nat) (f : Queue → Queue) : (k.modQueue q f).preds = k.preds := rfl
@[simp] theorem Bank.modQueue_pend (k : Bank) (q : Nat) (f : Queue → Queue) : (k.modQueue q f).pend = k.pend := rfl
@[simp] theorem Bank.modQueue_flags (k : Bank) (q : Nat) (f : Queue → Queue) : (k.modQueue q f).flags = k.flags := rfl
@[simp] theorem Bank.modQueue_incs (k : Bank) (q : Nat) (f : Queue → Queue) : (k.modQueue q f).incs = k.incs := rfl
@[simp] theorem Bank.modQueue_waiters (k : Bank) (q : Nat) (f : Queue → Queue) : (k.modQueue q f).waiters = k.waiters := rfl
@[simp] theorem Bank.modQueue_took (k : Bank) (q : Nat) (f : Queue → Queue) : (k.modQueue q f).took = k.took := rfl
@[simp] theorem Bank.modQueue_ctl (k : Bank) (q : Nat) (f : Queue → Queue) : (k.modQueue q f).ctl = k.ctl := rfl
@[simp] theorem Bank.modQueue_pc (k : Bank) (q : Nat) (f : Queue → Queue) : (k.modQueue q f).pc = k.pc := rfl
@[simp] theorem Bank.modQueue_targets (k : Bank) (q : Nat) (f : Queue → Queue) : (k.modQueue q f).targets = k.targets := rfl
@[simp] theorem Bank.modQueue_fetched (k : Bank) (q : Nat) (f : Queue → Queue) : (k.modQueue q f).fetched = k.fetched := rfl
@[simp] theorem Bank.modQueue_nullS (k : Bank) (q : Nat) (f : Queue → Queue) : (k.modQueue q f).nullS = k.nullS := rfl
@[simp] theorem Bank.modQueue_skipWait (k : Bank) (q : Nat) (f : Queue → Queue) : (k.modQueue q f).skipWait = k.skipWait := rfl
@[simp] theorem Bank.modQueue_heldWait (k : Bank) (q : Nat) (f : Queue → Queue) : (k.modQueue q f).heldWait = k.heldWait := rfl
@[simp] theorem Bank.modQueue_nextIssue (k : Bank) (q : Nat) (f : Queue → Queue) : (k.modQueue q f).nextIssue = k.nextIssue := rfl
@[simp] theorem Bank.modQueue_blocked (k : Bank) (q : Nat) (f : Queue → Queue) : (k.modQueue q f).blocked = k.blocked := rfl
@[simp] theorem Bank.modQueue_sloop (k : Bank) (q : Nat) (f : Queue → Queue) : (k.modQueue q f).sloop = k.sloop := rfl
@[simp] theorem Bank.modQueue_vaPos (k : Bank) (q : Nat) (f : Queue → Queue) : (k.modQueue q f).vaPos = k.vaPos := rfl
@[simp] theorem Bank.modQueue_vaDyn (k : Bank) (q : Nat) (f : Queue → Queue) : (k.modQueue q f).vaDyn = k.vaDyn := rfl
@[simp] theorem Bank.modQueue_veDyn (k : Bank) (q : Nat) (f : Queue → Queue) : (k.modQueue q f).veDyn = k.veDyn := rfl
@[simp] theorem Bank.modQueue_vaSeen (k : Bank) (q : Nat) (f : Queue → Queue) : (k.modQueue q f).vaSeen = k.vaSeen := rfl
@[simp] theorem Bank.modQueue_veSeen (k : Bank) (q : Nat) (f : Queue → Queue) : (k.modQueue q f).veSeen = k.veSeen := rfl
@[simp] theorem Bank.modQueue_veDue (k : Bank) (q : Nat) (f : Queue → Queue) : (k.modQueue q f).veDue = k.veDue := rfl
@[simp] theorem Bank.modQueue_pushed (k : Bank) (q : Nat) (f : Queue → Queue) : (k.modQueue q f).pushed = k.pushed := rfl
@[simp] theorem Bank.modQueue_heldFrom (k : Bank) (q : Nat) (f : Queue → Queue) : (k.modQueue q f).heldFrom = k.heldFrom := rfl
@[simp] theorem Bank.modQueue_ringBuf (k : Bank) (q : Nat) (f : Queue → Queue) : (k.modQueue q f).ringBuf = k.ringBuf := rfl
@[simp] theorem Bank.modQueue_vloop (k : Bank) (q : Nat) (f : Queue → Queue) : (k.modQueue q f).vloop = k.vloop := rfl
@[simp] theorem Bank.modQueue_cloop (k : Bank) (q : Nat) (f : Queue → Queue) : (k.modQueue q f).cloop = k.cloop := rfl
@[simp] theorem Bank.modQueue_mloop (k : Bank) (q : Nat) (f : Queue → Queue) : (k.modQueue q f).mloop = k.mloop := rfl
@[simp] theorem Bank.modQueue_masks (k : Bank) (q : Nat) (f : Queue → Queue) : (k.modQueue q f).masks = k.masks := rfl
@[simp] theorem Bank.modQueue_maps (k : Bank) (q : Nat) (f : Queue → Queue) : (k.modQueue q f).maps = k.maps := rfl
@[simp] theorem Bank.modQueue_seqSlots (k : Bank) (q : Nat) (f : Queue → Queue) : (k.modQueue q f).seqSlots = k.seqSlots := rfl
@[simp] theorem Bank.modQueue_fmt (k : Bank) (q : Nat) (f : Queue → Queue) : (k.modQueue q f).fmt = k.fmt := rfl
@[simp] theorem Bank.modQueue_fmtErr (k : Bank) (q : Nat) (f : Queue → Queue) : (k.modQueue q f).fmtErr = k.fmtErr := rfl
@[simp] theorem Bank.modQueue_slotErr (k : Bank) (q : Nat) (f : Queue → Queue) : (k.modQueue q f).slotErr = k.slotErr := rfl
@[simp] theorem Bank.modQueue_ascaleFill (k : Bank) (q : Nat) (f : Queue → Queue) : (k.modQueue q f).ascaleFill = k.ascaleFill := rfl
@[simp] theorem Bank.modQueue_ascale (k : Bank) (q : Nat) (f : Queue → Queue) : (k.modQueue q f).ascale = k.ascale := rfl
@[simp] theorem Bank.modQueue_scaleErr (k : Bank) (q : Nat) (f : Queue → Queue) : (k.modQueue q f).scaleErr = k.scaleErr := rfl
@[simp] theorem Bank.modQueue_ops (k : Bank) (q : Nat) (f : Queue → Queue) : (k.modQueue q f).ops = k.ops := rfl
@[simp] theorem Bank.modQueue_apertures (k : Bank) (q : Nat) (f : Queue → Queue) : (k.modQueue q f).apertures = k.apertures := rfl
@[simp] theorem Bank.modQueue_tlb (k : Bank) (q : Nat) (f : Queue → Queue) : (k.modQueue q f).tlb = k.tlb := rfl
@[simp] theorem Bank.modQueue_stamp (k : Bank) (q : Nat) (f : Queue → Queue) : (k.modQueue q f).stamp = k.stamp := rfl
@[simp] theorem Bank.modQueue_parked (k : Bank) (q : Nat) (f : Queue → Queue) : (k.modQueue q f).parked = k.parked := rfl
@[simp] theorem Bank.modQueue_freeze (k : Bank) (q : Nat) (f : Queue → Queue) : (k.modQueue q f).freeze = k.freeze := rfl
@[simp] theorem Bank.modQueue_stopped (k : Bank) (q : Nat) (f : Queue → Queue) : (k.modQueue q f).stopped = k.stopped := rfl
@[simp] theorem Bank.modQueue_held (k : Bank) (q : Nat) (f : Queue → Queue) : (k.modQueue q f).held = k.held := rfl
@[simp] theorem Bank.modQueue_reshardTrap (k : Bank) (q : Nat) (f : Queue → Queue) : (k.modQueue q f).reshardTrap = k.reshardTrap := rfl
@[simp] theorem Bank.modQueue_preempt (k : Bank) (q : Nat) (f : Queue → Queue) : (k.modQueue q f).preempt = k.preempt := rfl
@[simp] theorem Bank.modQueue_stopS (k : Bank) (q : Nat) (f : Queue → Queue) : (k.modQueue q f).stopS = k.stopS := rfl
@[simp] theorem Bank.modQueue_yielded (k : Bank) (q : Nat) (f : Queue → Queue) : (k.modQueue q f).yielded = k.yielded := rfl
@[simp] theorem Bank.modQueue_openPkts (k : Bank) (q : Nat) (f : Queue → Queue) : (k.modQueue q f).openPkts = k.openPkts := rfl
@[simp] theorem Bank.modQueue_phases (k : Bank) (q : Nat) (f : Queue → Queue) : (k.modQueue q f).phases = k.phases := rfl
@[simp] theorem Bank.modQueue_idleSince (k : Bank) (q : Nat) (f : Queue → Queue) : (k.modQueue q f).idleSince = k.idleSince := rfl
@[simp] theorem Bank.modQueue_leaseHeld (k : Bank) (q : Nat) (f : Queue → Queue) : (k.modQueue q f).leaseHeld = k.leaseHeld := rfl
@[simp] theorem Bank.modQueue_leaseOwed (k : Bank) (q : Nat) (f : Queue → Queue) : (k.modQueue q f).leaseOwed = k.leaseOwed := rfl
@[simp] theorem Bank.modQueue_lastPoint (k : Bank) (q : Nat) (f : Queue → Queue) : (k.modQueue q f).lastPoint = k.lastPoint := rfl
@[simp] theorem Bank.modQueue_halo (k : Bank) (q : Nat) (f : Queue → Queue) : (k.modQueue q f).halo = k.halo := rfl

/-! setS. -/

@[simp] theorem Bank.setS_job (k : Bank) (n : Nat) (v : W64) (bad : Bool) : (k.setS n v bad).job = k.job := by unfold Bank.setS; split <;> rfl
@[simp] theorem Bank.setS_preds (k : Bank) (n : Nat) (v : W64) (bad : Bool) : (k.setS n v bad).preds = k.preds := by unfold Bank.setS; split <;> rfl
@[simp] theorem Bank.setS_pend (k : Bank) (n : Nat) (v : W64) (bad : Bool) : (k.setS n v bad).pend = k.pend := by unfold Bank.setS; split <;> rfl
@[simp] theorem Bank.setS_flags (k : Bank) (n : Nat) (v : W64) (bad : Bool) : (k.setS n v bad).flags = k.flags := by unfold Bank.setS; split <;> rfl
@[simp] theorem Bank.setS_incs (k : Bank) (n : Nat) (v : W64) (bad : Bool) : (k.setS n v bad).incs = k.incs := by unfold Bank.setS; split <;> rfl
@[simp] theorem Bank.setS_waiters (k : Bank) (n : Nat) (v : W64) (bad : Bool) : (k.setS n v bad).waiters = k.waiters := by unfold Bank.setS; split <;> rfl
@[simp] theorem Bank.setS_took (k : Bank) (n : Nat) (v : W64) (bad : Bool) : (k.setS n v bad).took = k.took := by unfold Bank.setS; split <;> rfl
@[simp] theorem Bank.setS_ctl (k : Bank) (n : Nat) (v : W64) (bad : Bool) : (k.setS n v bad).ctl = k.ctl := by unfold Bank.setS; split <;> rfl
@[simp] theorem Bank.setS_pc (k : Bank) (n : Nat) (v : W64) (bad : Bool) : (k.setS n v bad).pc = k.pc := by unfold Bank.setS; split <;> rfl
@[simp] theorem Bank.setS_targets (k : Bank) (n : Nat) (v : W64) (bad : Bool) : (k.setS n v bad).targets = k.targets := by unfold Bank.setS; split <;> rfl
@[simp] theorem Bank.setS_fetched (k : Bank) (n : Nat) (v : W64) (bad : Bool) : (k.setS n v bad).fetched = k.fetched := by unfold Bank.setS; split <;> rfl
@[simp] theorem Bank.setS_nullS (k : Bank) (n : Nat) (v : W64) (bad : Bool) : (k.setS n v bad).nullS = k.nullS := by unfold Bank.setS; split <;> rfl
@[simp] theorem Bank.setS_skipWait (k : Bank) (n : Nat) (v : W64) (bad : Bool) : (k.setS n v bad).skipWait = k.skipWait := by unfold Bank.setS; split <;> rfl
@[simp] theorem Bank.setS_heldWait (k : Bank) (n : Nat) (v : W64) (bad : Bool) : (k.setS n v bad).heldWait = k.heldWait := by unfold Bank.setS; split <;> rfl
@[simp] theorem Bank.setS_nextIssue (k : Bank) (n : Nat) (v : W64) (bad : Bool) : (k.setS n v bad).nextIssue = k.nextIssue := by unfold Bank.setS; split <;> rfl
@[simp] theorem Bank.setS_blocked (k : Bank) (n : Nat) (v : W64) (bad : Bool) : (k.setS n v bad).blocked = k.blocked := by unfold Bank.setS; split <;> rfl
@[simp] theorem Bank.setS_sloop (k : Bank) (n : Nat) (v : W64) (bad : Bool) : (k.setS n v bad).sloop = k.sloop := by unfold Bank.setS; split <;> rfl
@[simp] theorem Bank.setS_vaPos (k : Bank) (n : Nat) (v : W64) (bad : Bool) : (k.setS n v bad).vaPos = k.vaPos := by unfold Bank.setS; split <;> rfl
@[simp] theorem Bank.setS_vaDyn (k : Bank) (n : Nat) (v : W64) (bad : Bool) : (k.setS n v bad).vaDyn = k.vaDyn := by unfold Bank.setS; split <;> rfl
@[simp] theorem Bank.setS_veDyn (k : Bank) (n : Nat) (v : W64) (bad : Bool) : (k.setS n v bad).veDyn = k.veDyn := by unfold Bank.setS; split <;> rfl
@[simp] theorem Bank.setS_vaSeen (k : Bank) (n : Nat) (v : W64) (bad : Bool) : (k.setS n v bad).vaSeen = k.vaSeen := by unfold Bank.setS; split <;> rfl
@[simp] theorem Bank.setS_veSeen (k : Bank) (n : Nat) (v : W64) (bad : Bool) : (k.setS n v bad).veSeen = k.veSeen := by unfold Bank.setS; split <;> rfl
@[simp] theorem Bank.setS_veDue (k : Bank) (n : Nat) (v : W64) (bad : Bool) : (k.setS n v bad).veDue = k.veDue := by unfold Bank.setS; split <;> rfl
@[simp] theorem Bank.setS_pushed (k : Bank) (n : Nat) (v : W64) (bad : Bool) : (k.setS n v bad).pushed = k.pushed := by unfold Bank.setS; split <;> rfl
@[simp] theorem Bank.setS_heldFrom (k : Bank) (n : Nat) (v : W64) (bad : Bool) : (k.setS n v bad).heldFrom = k.heldFrom := by unfold Bank.setS; split <;> rfl
@[simp] theorem Bank.setS_ringBuf (k : Bank) (n : Nat) (v : W64) (bad : Bool) : (k.setS n v bad).ringBuf = k.ringBuf := by unfold Bank.setS; split <;> rfl
@[simp] theorem Bank.setS_vloop (k : Bank) (n : Nat) (v : W64) (bad : Bool) : (k.setS n v bad).vloop = k.vloop := by unfold Bank.setS; split <;> rfl
@[simp] theorem Bank.setS_cloop (k : Bank) (n : Nat) (v : W64) (bad : Bool) : (k.setS n v bad).cloop = k.cloop := by unfold Bank.setS; split <;> rfl
@[simp] theorem Bank.setS_mloop (k : Bank) (n : Nat) (v : W64) (bad : Bool) : (k.setS n v bad).mloop = k.mloop := by unfold Bank.setS; split <;> rfl
@[simp] theorem Bank.setS_queues (k : Bank) (n : Nat) (v : W64) (bad : Bool) : (k.setS n v bad).queues = k.queues := by unfold Bank.setS; split <;> rfl
@[simp] theorem Bank.setS_masks (k : Bank) (n : Nat) (v : W64) (bad : Bool) : (k.setS n v bad).masks = k.masks := by unfold Bank.setS; split <;> rfl
@[simp] theorem Bank.setS_maps (k : Bank) (n : Nat) (v : W64) (bad : Bool) : (k.setS n v bad).maps = k.maps := by unfold Bank.setS; split <;> rfl
@[simp] theorem Bank.setS_seqSlots (k : Bank) (n : Nat) (v : W64) (bad : Bool) : (k.setS n v bad).seqSlots = k.seqSlots := by unfold Bank.setS; split <;> rfl
@[simp] theorem Bank.setS_fmt (k : Bank) (n : Nat) (v : W64) (bad : Bool) : (k.setS n v bad).fmt = k.fmt := by unfold Bank.setS; split <;> rfl
@[simp] theorem Bank.setS_fmtErr (k : Bank) (n : Nat) (v : W64) (bad : Bool) : (k.setS n v bad).fmtErr = k.fmtErr := by unfold Bank.setS; split <;> rfl
@[simp] theorem Bank.setS_slotErr (k : Bank) (n : Nat) (v : W64) (bad : Bool) : (k.setS n v bad).slotErr = k.slotErr := by unfold Bank.setS; split <;> rfl
@[simp] theorem Bank.setS_ascaleFill (k : Bank) (n : Nat) (v : W64) (bad : Bool) : (k.setS n v bad).ascaleFill = k.ascaleFill := by unfold Bank.setS; split <;> rfl
@[simp] theorem Bank.setS_ascale (k : Bank) (n : Nat) (v : W64) (bad : Bool) : (k.setS n v bad).ascale = k.ascale := by unfold Bank.setS; split <;> rfl
@[simp] theorem Bank.setS_scaleErr (k : Bank) (n : Nat) (v : W64) (bad : Bool) : (k.setS n v bad).scaleErr = k.scaleErr := by unfold Bank.setS; split <;> rfl
@[simp] theorem Bank.setS_ops (k : Bank) (n : Nat) (v : W64) (bad : Bool) : (k.setS n v bad).ops = k.ops := by unfold Bank.setS; split <;> rfl
@[simp] theorem Bank.setS_apertures (k : Bank) (n : Nat) (v : W64) (bad : Bool) : (k.setS n v bad).apertures = k.apertures := by unfold Bank.setS; split <;> rfl
@[simp] theorem Bank.setS_tlb (k : Bank) (n : Nat) (v : W64) (bad : Bool) : (k.setS n v bad).tlb = k.tlb := by unfold Bank.setS; split <;> rfl
@[simp] theorem Bank.setS_stamp (k : Bank) (n : Nat) (v : W64) (bad : Bool) : (k.setS n v bad).stamp = k.stamp := by unfold Bank.setS; split <;> rfl
@[simp] theorem Bank.setS_parked (k : Bank) (n : Nat) (v : W64) (bad : Bool) : (k.setS n v bad).parked = k.parked := by unfold Bank.setS; split <;> rfl
@[simp] theorem Bank.setS_freeze (k : Bank) (n : Nat) (v : W64) (bad : Bool) : (k.setS n v bad).freeze = k.freeze := by unfold Bank.setS; split <;> rfl
@[simp] theorem Bank.setS_stopped (k : Bank) (n : Nat) (v : W64) (bad : Bool) : (k.setS n v bad).stopped = k.stopped := by unfold Bank.setS; split <;> rfl
@[simp] theorem Bank.setS_held (k : Bank) (n : Nat) (v : W64) (bad : Bool) : (k.setS n v bad).held = k.held := by unfold Bank.setS; split <;> rfl
@[simp] theorem Bank.setS_reshardTrap (k : Bank) (n : Nat) (v : W64) (bad : Bool) : (k.setS n v bad).reshardTrap = k.reshardTrap := by unfold Bank.setS; split <;> rfl
@[simp] theorem Bank.setS_preempt (k : Bank) (n : Nat) (v : W64) (bad : Bool) : (k.setS n v bad).preempt = k.preempt := by unfold Bank.setS; split <;> rfl
@[simp] theorem Bank.setS_stopS (k : Bank) (n : Nat) (v : W64) (bad : Bool) : (k.setS n v bad).stopS = k.stopS := by unfold Bank.setS; split <;> rfl
@[simp] theorem Bank.setS_yielded (k : Bank) (n : Nat) (v : W64) (bad : Bool) : (k.setS n v bad).yielded = k.yielded := by unfold Bank.setS; split <;> rfl
@[simp] theorem Bank.setS_openPkts (k : Bank) (n : Nat) (v : W64) (bad : Bool) : (k.setS n v bad).openPkts = k.openPkts := by unfold Bank.setS; split <;> rfl
@[simp] theorem Bank.setS_phases (k : Bank) (n : Nat) (v : W64) (bad : Bool) : (k.setS n v bad).phases = k.phases := by unfold Bank.setS; split <;> rfl
@[simp] theorem Bank.setS_idleSince (k : Bank) (n : Nat) (v : W64) (bad : Bool) : (k.setS n v bad).idleSince = k.idleSince := by unfold Bank.setS; split <;> rfl
@[simp] theorem Bank.setS_leaseHeld (k : Bank) (n : Nat) (v : W64) (bad : Bool) : (k.setS n v bad).leaseHeld = k.leaseHeld := by unfold Bank.setS; split <;> rfl
@[simp] theorem Bank.setS_leaseOwed (k : Bank) (n : Nat) (v : W64) (bad : Bool) : (k.setS n v bad).leaseOwed = k.leaseOwed := by unfold Bank.setS; split <;> rfl
@[simp] theorem Bank.setS_lastPoint (k : Bank) (n : Nat) (v : W64) (bad : Bool) : (k.setS n v bad).lastPoint = k.lastPoint := by unfold Bank.setS; split <;> rfl
@[simp] theorem Bank.setS_halo (k : Bank) (n : Nat) (v : W64) (bad : Bool) : (k.setS n v bad).halo = k.halo := by unfold Bank.setS; split <;> rfl

/-! signalIssue. -/

@[simp] theorem Bank.signalIssue_job (k : Bank) (c : Nat) (p : Point) (x : BitVec 8) : (k.signalIssue c p x).job = k.job := by unfold Bank.signalIssue; split <;> rfl
@[simp] theorem Bank.signalIssue_sregs (k : Bank) (c : Nat) (p : Point) (x : BitVec 8) : (k.signalIssue c p x).sregs = k.sregs := by unfold Bank.signalIssue; split <;> rfl
@[simp] theorem Bank.signalIssue_preds (k : Bank) (c : Nat) (p : Point) (x : BitVec 8) : (k.signalIssue c p x).preds = k.preds := by unfold Bank.signalIssue; split <;> rfl
@[simp] theorem Bank.signalIssue_pend (k : Bank) (c : Nat) (p : Point) (x : BitVec 8) : (k.signalIssue c p x).pend = k.pend := by unfold Bank.signalIssue; split <;> rfl
@[simp] theorem Bank.signalIssue_flags (k : Bank) (c : Nat) (p : Point) (x : BitVec 8) : (k.signalIssue c p x).flags = k.flags := by unfold Bank.signalIssue; split <;> rfl
@[simp] theorem Bank.signalIssue_waiters (k : Bank) (c : Nat) (p : Point) (x : BitVec 8) : (k.signalIssue c p x).waiters = k.waiters := by unfold Bank.signalIssue; split <;> rfl
@[simp] theorem Bank.signalIssue_took (k : Bank) (c : Nat) (p : Point) (x : BitVec 8) : (k.signalIssue c p x).took = k.took := by unfold Bank.signalIssue; split <;> rfl
@[simp] theorem Bank.signalIssue_ctl (k : Bank) (c : Nat) (p : Point) (x : BitVec 8) : (k.signalIssue c p x).ctl = k.ctl := by unfold Bank.signalIssue; split <;> rfl
@[simp] theorem Bank.signalIssue_pc (k : Bank) (c : Nat) (p : Point) (x : BitVec 8) : (k.signalIssue c p x).pc = k.pc := by unfold Bank.signalIssue; split <;> rfl
@[simp] theorem Bank.signalIssue_targets (k : Bank) (c : Nat) (p : Point) (x : BitVec 8) : (k.signalIssue c p x).targets = k.targets := by unfold Bank.signalIssue; split <;> rfl
@[simp] theorem Bank.signalIssue_fetched (k : Bank) (c : Nat) (p : Point) (x : BitVec 8) : (k.signalIssue c p x).fetched = k.fetched := by unfold Bank.signalIssue; split <;> rfl
@[simp] theorem Bank.signalIssue_nullS (k : Bank) (c : Nat) (p : Point) (x : BitVec 8) : (k.signalIssue c p x).nullS = k.nullS := by unfold Bank.signalIssue; split <;> rfl
@[simp] theorem Bank.signalIssue_skipWait (k : Bank) (c : Nat) (p : Point) (x : BitVec 8) : (k.signalIssue c p x).skipWait = k.skipWait := by unfold Bank.signalIssue; split <;> rfl
@[simp] theorem Bank.signalIssue_heldWait (k : Bank) (c : Nat) (p : Point) (x : BitVec 8) : (k.signalIssue c p x).heldWait = k.heldWait := by unfold Bank.signalIssue; split <;> rfl
@[simp] theorem Bank.signalIssue_nextIssue (k : Bank) (c : Nat) (p : Point) (x : BitVec 8) : (k.signalIssue c p x).nextIssue = k.nextIssue := by unfold Bank.signalIssue; split <;> rfl
@[simp] theorem Bank.signalIssue_blocked (k : Bank) (c : Nat) (p : Point) (x : BitVec 8) : (k.signalIssue c p x).blocked = k.blocked := by unfold Bank.signalIssue; split <;> rfl
@[simp] theorem Bank.signalIssue_sloop (k : Bank) (c : Nat) (p : Point) (x : BitVec 8) : (k.signalIssue c p x).sloop = k.sloop := by unfold Bank.signalIssue; split <;> rfl
@[simp] theorem Bank.signalIssue_vaPos (k : Bank) (c : Nat) (p : Point) (x : BitVec 8) : (k.signalIssue c p x).vaPos = k.vaPos := by unfold Bank.signalIssue; split <;> rfl
@[simp] theorem Bank.signalIssue_vaDyn (k : Bank) (c : Nat) (p : Point) (x : BitVec 8) : (k.signalIssue c p x).vaDyn = k.vaDyn := by unfold Bank.signalIssue; split <;> rfl
@[simp] theorem Bank.signalIssue_veDyn (k : Bank) (c : Nat) (p : Point) (x : BitVec 8) : (k.signalIssue c p x).veDyn = k.veDyn := by unfold Bank.signalIssue; split <;> rfl
@[simp] theorem Bank.signalIssue_vaSeen (k : Bank) (c : Nat) (p : Point) (x : BitVec 8) : (k.signalIssue c p x).vaSeen = k.vaSeen := by unfold Bank.signalIssue; split <;> rfl
@[simp] theorem Bank.signalIssue_veSeen (k : Bank) (c : Nat) (p : Point) (x : BitVec 8) : (k.signalIssue c p x).veSeen = k.veSeen := by unfold Bank.signalIssue; split <;> rfl
@[simp] theorem Bank.signalIssue_veDue (k : Bank) (c : Nat) (p : Point) (x : BitVec 8) : (k.signalIssue c p x).veDue = k.veDue := by unfold Bank.signalIssue; split <;> rfl
@[simp] theorem Bank.signalIssue_pushed (k : Bank) (c : Nat) (p : Point) (x : BitVec 8) : (k.signalIssue c p x).pushed = k.pushed := by unfold Bank.signalIssue; split <;> rfl
@[simp] theorem Bank.signalIssue_heldFrom (k : Bank) (c : Nat) (p : Point) (x : BitVec 8) : (k.signalIssue c p x).heldFrom = k.heldFrom := by unfold Bank.signalIssue; split <;> rfl
@[simp] theorem Bank.signalIssue_ringBuf (k : Bank) (c : Nat) (p : Point) (x : BitVec 8) : (k.signalIssue c p x).ringBuf = k.ringBuf := by unfold Bank.signalIssue; split <;> rfl
@[simp] theorem Bank.signalIssue_vloop (k : Bank) (c : Nat) (p : Point) (x : BitVec 8) : (k.signalIssue c p x).vloop = k.vloop := by unfold Bank.signalIssue; split <;> rfl
@[simp] theorem Bank.signalIssue_cloop (k : Bank) (c : Nat) (p : Point) (x : BitVec 8) : (k.signalIssue c p x).cloop = k.cloop := by unfold Bank.signalIssue; split <;> rfl
@[simp] theorem Bank.signalIssue_mloop (k : Bank) (c : Nat) (p : Point) (x : BitVec 8) : (k.signalIssue c p x).mloop = k.mloop := by unfold Bank.signalIssue; split <;> rfl
@[simp] theorem Bank.signalIssue_queues (k : Bank) (c : Nat) (p : Point) (x : BitVec 8) : (k.signalIssue c p x).queues = k.queues := by unfold Bank.signalIssue; split <;> rfl
@[simp] theorem Bank.signalIssue_masks (k : Bank) (c : Nat) (p : Point) (x : BitVec 8) : (k.signalIssue c p x).masks = k.masks := by unfold Bank.signalIssue; split <;> rfl
@[simp] theorem Bank.signalIssue_maps (k : Bank) (c : Nat) (p : Point) (x : BitVec 8) : (k.signalIssue c p x).maps = k.maps := by unfold Bank.signalIssue; split <;> rfl
@[simp] theorem Bank.signalIssue_seqSlots (k : Bank) (c : Nat) (p : Point) (x : BitVec 8) : (k.signalIssue c p x).seqSlots = k.seqSlots := by unfold Bank.signalIssue; split <;> rfl
@[simp] theorem Bank.signalIssue_fmt (k : Bank) (c : Nat) (p : Point) (x : BitVec 8) : (k.signalIssue c p x).fmt = k.fmt := by unfold Bank.signalIssue; split <;> rfl
@[simp] theorem Bank.signalIssue_fmtErr (k : Bank) (c : Nat) (p : Point) (x : BitVec 8) : (k.signalIssue c p x).fmtErr = k.fmtErr := by unfold Bank.signalIssue; split <;> rfl
@[simp] theorem Bank.signalIssue_slotErr (k : Bank) (c : Nat) (p : Point) (x : BitVec 8) : (k.signalIssue c p x).slotErr = k.slotErr := by unfold Bank.signalIssue; split <;> rfl
@[simp] theorem Bank.signalIssue_ascaleFill (k : Bank) (c : Nat) (p : Point) (x : BitVec 8) : (k.signalIssue c p x).ascaleFill = k.ascaleFill := by unfold Bank.signalIssue; split <;> rfl
@[simp] theorem Bank.signalIssue_ascale (k : Bank) (c : Nat) (p : Point) (x : BitVec 8) : (k.signalIssue c p x).ascale = k.ascale := by unfold Bank.signalIssue; split <;> rfl
@[simp] theorem Bank.signalIssue_scaleErr (k : Bank) (c : Nat) (p : Point) (x : BitVec 8) : (k.signalIssue c p x).scaleErr = k.scaleErr := by unfold Bank.signalIssue; split <;> rfl
@[simp] theorem Bank.signalIssue_ops (k : Bank) (c : Nat) (p : Point) (x : BitVec 8) : (k.signalIssue c p x).ops = k.ops := by unfold Bank.signalIssue; split <;> rfl
@[simp] theorem Bank.signalIssue_apertures (k : Bank) (c : Nat) (p : Point) (x : BitVec 8) : (k.signalIssue c p x).apertures = k.apertures := by unfold Bank.signalIssue; split <;> rfl
@[simp] theorem Bank.signalIssue_tlb (k : Bank) (c : Nat) (p : Point) (x : BitVec 8) : (k.signalIssue c p x).tlb = k.tlb := by unfold Bank.signalIssue; split <;> rfl
@[simp] theorem Bank.signalIssue_stamp (k : Bank) (c : Nat) (p : Point) (x : BitVec 8) : (k.signalIssue c p x).stamp = k.stamp := by unfold Bank.signalIssue; split <;> rfl
@[simp] theorem Bank.signalIssue_parked (k : Bank) (c : Nat) (p : Point) (x : BitVec 8) : (k.signalIssue c p x).parked = k.parked := by unfold Bank.signalIssue; split <;> rfl
@[simp] theorem Bank.signalIssue_freeze (k : Bank) (c : Nat) (p : Point) (x : BitVec 8) : (k.signalIssue c p x).freeze = k.freeze := by unfold Bank.signalIssue; split <;> rfl
@[simp] theorem Bank.signalIssue_stopped (k : Bank) (c : Nat) (p : Point) (x : BitVec 8) : (k.signalIssue c p x).stopped = k.stopped := by unfold Bank.signalIssue; split <;> rfl
@[simp] theorem Bank.signalIssue_held (k : Bank) (c : Nat) (p : Point) (x : BitVec 8) : (k.signalIssue c p x).held = k.held := by unfold Bank.signalIssue; split <;> rfl
@[simp] theorem Bank.signalIssue_reshardTrap (k : Bank) (c : Nat) (p : Point) (x : BitVec 8) : (k.signalIssue c p x).reshardTrap = k.reshardTrap := by unfold Bank.signalIssue; split <;> rfl
@[simp] theorem Bank.signalIssue_preempt (k : Bank) (c : Nat) (p : Point) (x : BitVec 8) : (k.signalIssue c p x).preempt = k.preempt := by unfold Bank.signalIssue; split <;> rfl
@[simp] theorem Bank.signalIssue_stopS (k : Bank) (c : Nat) (p : Point) (x : BitVec 8) : (k.signalIssue c p x).stopS = k.stopS := by unfold Bank.signalIssue; split <;> rfl
@[simp] theorem Bank.signalIssue_yielded (k : Bank) (c : Nat) (p : Point) (x : BitVec 8) : (k.signalIssue c p x).yielded = k.yielded := by unfold Bank.signalIssue; split <;> rfl
@[simp] theorem Bank.signalIssue_openPkts (k : Bank) (c : Nat) (p : Point) (x : BitVec 8) : (k.signalIssue c p x).openPkts = k.openPkts := by unfold Bank.signalIssue; split <;> rfl
@[simp] theorem Bank.signalIssue_phases (k : Bank) (c : Nat) (p : Point) (x : BitVec 8) : (k.signalIssue c p x).phases = k.phases := by unfold Bank.signalIssue; split <;> rfl
@[simp] theorem Bank.signalIssue_idleSince (k : Bank) (c : Nat) (p : Point) (x : BitVec 8) : (k.signalIssue c p x).idleSince = k.idleSince := by unfold Bank.signalIssue; split <;> rfl
@[simp] theorem Bank.signalIssue_leaseHeld (k : Bank) (c : Nat) (p : Point) (x : BitVec 8) : (k.signalIssue c p x).leaseHeld = k.leaseHeld := by unfold Bank.signalIssue; split <;> rfl
@[simp] theorem Bank.signalIssue_leaseOwed (k : Bank) (c : Nat) (p : Point) (x : BitVec 8) : (k.signalIssue c p x).leaseOwed = k.leaseOwed := by unfold Bank.signalIssue; split <;> rfl
@[simp] theorem Bank.signalIssue_lastPoint (k : Bank) (c : Nat) (p : Point) (x : BitVec 8) : (k.signalIssue c p x).lastPoint = k.lastPoint := by unfold Bank.signalIssue; split <;> rfl
@[simp] theorem Bank.signalIssue_halo (k : Bank) (c : Nat) (p : Point) (x : BitVec 8) : (k.signalIssue c p x).halo = k.halo := by unfold Bank.signalIssue; split <;> rfl

/-! signalDone. -/

@[simp] theorem Bank.signalDone_job (k : Bank) (c : Nat) (p : Point) (x : BitVec 8) : (k.signalDone c p x).job = k.job := by unfold Bank.signalDone; split <;> rfl
@[simp] theorem Bank.signalDone_sregs (k : Bank) (c : Nat) (p : Point) (x : BitVec 8) : (k.signalDone c p x).sregs = k.sregs := by unfold Bank.signalDone; split <;> rfl
@[simp] theorem Bank.signalDone_preds (k : Bank) (c : Nat) (p : Point) (x : BitVec 8) : (k.signalDone c p x).preds = k.preds := by unfold Bank.signalDone; split <;> rfl
@[simp] theorem Bank.signalDone_pend (k : Bank) (c : Nat) (p : Point) (x : BitVec 8) : (k.signalDone c p x).pend = k.pend := by unfold Bank.signalDone; split <;> rfl
@[simp] theorem Bank.signalDone_flags (k : Bank) (c : Nat) (p : Point) (x : BitVec 8) : (k.signalDone c p x).flags = k.flags := by unfold Bank.signalDone; split <;> rfl
@[simp] theorem Bank.signalDone_waiters (k : Bank) (c : Nat) (p : Point) (x : BitVec 8) : (k.signalDone c p x).waiters = k.waiters := by unfold Bank.signalDone; split <;> rfl
@[simp] theorem Bank.signalDone_took (k : Bank) (c : Nat) (p : Point) (x : BitVec 8) : (k.signalDone c p x).took = k.took := by unfold Bank.signalDone; split <;> rfl
@[simp] theorem Bank.signalDone_ctl (k : Bank) (c : Nat) (p : Point) (x : BitVec 8) : (k.signalDone c p x).ctl = k.ctl := by unfold Bank.signalDone; split <;> rfl
@[simp] theorem Bank.signalDone_pc (k : Bank) (c : Nat) (p : Point) (x : BitVec 8) : (k.signalDone c p x).pc = k.pc := by unfold Bank.signalDone; split <;> rfl
@[simp] theorem Bank.signalDone_targets (k : Bank) (c : Nat) (p : Point) (x : BitVec 8) : (k.signalDone c p x).targets = k.targets := by unfold Bank.signalDone; split <;> rfl
@[simp] theorem Bank.signalDone_fetched (k : Bank) (c : Nat) (p : Point) (x : BitVec 8) : (k.signalDone c p x).fetched = k.fetched := by unfold Bank.signalDone; split <;> rfl
@[simp] theorem Bank.signalDone_nullS (k : Bank) (c : Nat) (p : Point) (x : BitVec 8) : (k.signalDone c p x).nullS = k.nullS := by unfold Bank.signalDone; split <;> rfl
@[simp] theorem Bank.signalDone_skipWait (k : Bank) (c : Nat) (p : Point) (x : BitVec 8) : (k.signalDone c p x).skipWait = k.skipWait := by unfold Bank.signalDone; split <;> rfl
@[simp] theorem Bank.signalDone_heldWait (k : Bank) (c : Nat) (p : Point) (x : BitVec 8) : (k.signalDone c p x).heldWait = k.heldWait := by unfold Bank.signalDone; split <;> rfl
@[simp] theorem Bank.signalDone_nextIssue (k : Bank) (c : Nat) (p : Point) (x : BitVec 8) : (k.signalDone c p x).nextIssue = k.nextIssue := by unfold Bank.signalDone; split <;> rfl
@[simp] theorem Bank.signalDone_blocked (k : Bank) (c : Nat) (p : Point) (x : BitVec 8) : (k.signalDone c p x).blocked = k.blocked := by unfold Bank.signalDone; split <;> rfl
@[simp] theorem Bank.signalDone_sloop (k : Bank) (c : Nat) (p : Point) (x : BitVec 8) : (k.signalDone c p x).sloop = k.sloop := by unfold Bank.signalDone; split <;> rfl
@[simp] theorem Bank.signalDone_vaPos (k : Bank) (c : Nat) (p : Point) (x : BitVec 8) : (k.signalDone c p x).vaPos = k.vaPos := by unfold Bank.signalDone; split <;> rfl
@[simp] theorem Bank.signalDone_vaDyn (k : Bank) (c : Nat) (p : Point) (x : BitVec 8) : (k.signalDone c p x).vaDyn = k.vaDyn := by unfold Bank.signalDone; split <;> rfl
@[simp] theorem Bank.signalDone_veDyn (k : Bank) (c : Nat) (p : Point) (x : BitVec 8) : (k.signalDone c p x).veDyn = k.veDyn := by unfold Bank.signalDone; split <;> rfl
@[simp] theorem Bank.signalDone_vaSeen (k : Bank) (c : Nat) (p : Point) (x : BitVec 8) : (k.signalDone c p x).vaSeen = k.vaSeen := by unfold Bank.signalDone; split <;> rfl
@[simp] theorem Bank.signalDone_veSeen (k : Bank) (c : Nat) (p : Point) (x : BitVec 8) : (k.signalDone c p x).veSeen = k.veSeen := by unfold Bank.signalDone; split <;> rfl
@[simp] theorem Bank.signalDone_veDue (k : Bank) (c : Nat) (p : Point) (x : BitVec 8) : (k.signalDone c p x).veDue = k.veDue := by unfold Bank.signalDone; split <;> rfl
@[simp] theorem Bank.signalDone_pushed (k : Bank) (c : Nat) (p : Point) (x : BitVec 8) : (k.signalDone c p x).pushed = k.pushed := by unfold Bank.signalDone; split <;> rfl
@[simp] theorem Bank.signalDone_heldFrom (k : Bank) (c : Nat) (p : Point) (x : BitVec 8) : (k.signalDone c p x).heldFrom = k.heldFrom := by unfold Bank.signalDone; split <;> rfl
@[simp] theorem Bank.signalDone_ringBuf (k : Bank) (c : Nat) (p : Point) (x : BitVec 8) : (k.signalDone c p x).ringBuf = k.ringBuf := by unfold Bank.signalDone; split <;> rfl
@[simp] theorem Bank.signalDone_vloop (k : Bank) (c : Nat) (p : Point) (x : BitVec 8) : (k.signalDone c p x).vloop = k.vloop := by unfold Bank.signalDone; split <;> rfl
@[simp] theorem Bank.signalDone_cloop (k : Bank) (c : Nat) (p : Point) (x : BitVec 8) : (k.signalDone c p x).cloop = k.cloop := by unfold Bank.signalDone; split <;> rfl
@[simp] theorem Bank.signalDone_mloop (k : Bank) (c : Nat) (p : Point) (x : BitVec 8) : (k.signalDone c p x).mloop = k.mloop := by unfold Bank.signalDone; split <;> rfl
@[simp] theorem Bank.signalDone_queues (k : Bank) (c : Nat) (p : Point) (x : BitVec 8) : (k.signalDone c p x).queues = k.queues := by unfold Bank.signalDone; split <;> rfl
@[simp] theorem Bank.signalDone_masks (k : Bank) (c : Nat) (p : Point) (x : BitVec 8) : (k.signalDone c p x).masks = k.masks := by unfold Bank.signalDone; split <;> rfl
@[simp] theorem Bank.signalDone_maps (k : Bank) (c : Nat) (p : Point) (x : BitVec 8) : (k.signalDone c p x).maps = k.maps := by unfold Bank.signalDone; split <;> rfl
@[simp] theorem Bank.signalDone_seqSlots (k : Bank) (c : Nat) (p : Point) (x : BitVec 8) : (k.signalDone c p x).seqSlots = k.seqSlots := by unfold Bank.signalDone; split <;> rfl
@[simp] theorem Bank.signalDone_fmt (k : Bank) (c : Nat) (p : Point) (x : BitVec 8) : (k.signalDone c p x).fmt = k.fmt := by unfold Bank.signalDone; split <;> rfl
@[simp] theorem Bank.signalDone_fmtErr (k : Bank) (c : Nat) (p : Point) (x : BitVec 8) : (k.signalDone c p x).fmtErr = k.fmtErr := by unfold Bank.signalDone; split <;> rfl
@[simp] theorem Bank.signalDone_slotErr (k : Bank) (c : Nat) (p : Point) (x : BitVec 8) : (k.signalDone c p x).slotErr = k.slotErr := by unfold Bank.signalDone; split <;> rfl
@[simp] theorem Bank.signalDone_ascaleFill (k : Bank) (c : Nat) (p : Point) (x : BitVec 8) : (k.signalDone c p x).ascaleFill = k.ascaleFill := by unfold Bank.signalDone; split <;> rfl
@[simp] theorem Bank.signalDone_ascale (k : Bank) (c : Nat) (p : Point) (x : BitVec 8) : (k.signalDone c p x).ascale = k.ascale := by unfold Bank.signalDone; split <;> rfl
@[simp] theorem Bank.signalDone_scaleErr (k : Bank) (c : Nat) (p : Point) (x : BitVec 8) : (k.signalDone c p x).scaleErr = k.scaleErr := by unfold Bank.signalDone; split <;> rfl
@[simp] theorem Bank.signalDone_ops (k : Bank) (c : Nat) (p : Point) (x : BitVec 8) : (k.signalDone c p x).ops = k.ops := by unfold Bank.signalDone; split <;> rfl
@[simp] theorem Bank.signalDone_apertures (k : Bank) (c : Nat) (p : Point) (x : BitVec 8) : (k.signalDone c p x).apertures = k.apertures := by unfold Bank.signalDone; split <;> rfl
@[simp] theorem Bank.signalDone_tlb (k : Bank) (c : Nat) (p : Point) (x : BitVec 8) : (k.signalDone c p x).tlb = k.tlb := by unfold Bank.signalDone; split <;> rfl
@[simp] theorem Bank.signalDone_stamp (k : Bank) (c : Nat) (p : Point) (x : BitVec 8) : (k.signalDone c p x).stamp = k.stamp := by unfold Bank.signalDone; split <;> rfl
@[simp] theorem Bank.signalDone_parked (k : Bank) (c : Nat) (p : Point) (x : BitVec 8) : (k.signalDone c p x).parked = k.parked := by unfold Bank.signalDone; split <;> rfl
@[simp] theorem Bank.signalDone_freeze (k : Bank) (c : Nat) (p : Point) (x : BitVec 8) : (k.signalDone c p x).freeze = k.freeze := by unfold Bank.signalDone; split <;> rfl
@[simp] theorem Bank.signalDone_stopped (k : Bank) (c : Nat) (p : Point) (x : BitVec 8) : (k.signalDone c p x).stopped = k.stopped := by unfold Bank.signalDone; split <;> rfl
@[simp] theorem Bank.signalDone_held (k : Bank) (c : Nat) (p : Point) (x : BitVec 8) : (k.signalDone c p x).held = k.held := by unfold Bank.signalDone; split <;> rfl
@[simp] theorem Bank.signalDone_reshardTrap (k : Bank) (c : Nat) (p : Point) (x : BitVec 8) : (k.signalDone c p x).reshardTrap = k.reshardTrap := by unfold Bank.signalDone; split <;> rfl
@[simp] theorem Bank.signalDone_preempt (k : Bank) (c : Nat) (p : Point) (x : BitVec 8) : (k.signalDone c p x).preempt = k.preempt := by unfold Bank.signalDone; split <;> rfl
@[simp] theorem Bank.signalDone_stopS (k : Bank) (c : Nat) (p : Point) (x : BitVec 8) : (k.signalDone c p x).stopS = k.stopS := by unfold Bank.signalDone; split <;> rfl
@[simp] theorem Bank.signalDone_yielded (k : Bank) (c : Nat) (p : Point) (x : BitVec 8) : (k.signalDone c p x).yielded = k.yielded := by unfold Bank.signalDone; split <;> rfl
@[simp] theorem Bank.signalDone_openPkts (k : Bank) (c : Nat) (p : Point) (x : BitVec 8) : (k.signalDone c p x).openPkts = k.openPkts := by unfold Bank.signalDone; split <;> rfl
@[simp] theorem Bank.signalDone_phases (k : Bank) (c : Nat) (p : Point) (x : BitVec 8) : (k.signalDone c p x).phases = k.phases := by unfold Bank.signalDone; split <;> rfl
@[simp] theorem Bank.signalDone_idleSince (k : Bank) (c : Nat) (p : Point) (x : BitVec 8) : (k.signalDone c p x).idleSince = k.idleSince := by unfold Bank.signalDone; split <;> rfl
@[simp] theorem Bank.signalDone_leaseHeld (k : Bank) (c : Nat) (p : Point) (x : BitVec 8) : (k.signalDone c p x).leaseHeld = k.leaseHeld := by unfold Bank.signalDone; split <;> rfl
@[simp] theorem Bank.signalDone_leaseOwed (k : Bank) (c : Nat) (p : Point) (x : BitVec 8) : (k.signalDone c p x).leaseOwed = k.leaseOwed := by unfold Bank.signalDone; split <;> rfl
@[simp] theorem Bank.signalDone_lastPoint (k : Bank) (c : Nat) (p : Point) (x : BitVec 8) : (k.signalDone c p x).lastPoint = k.lastPoint := by unfold Bank.signalDone; split <;> rfl
@[simp] theorem Bank.signalDone_halo (k : Bank) (c : Nat) (p : Point) (x : BitVec 8) : (k.signalDone c p x).halo = k.halo := by unfold Bank.signalDone; split <;> rfl

end Sys2Proof.Machine
end

