-- ==== Sys2Proof/Laws/State.lean ====
section
/-! SUPPORT. What each update of the state leaves: one lemma per field per update, and what a unit reads as after a unit was
written. -/

namespace Sys2Proof.Machine

/-! setBank and modBank. -/

@[simp] theorem State.setBank_cycle (s : State) (k : Nat) (v : Bank) : (s.setBank k v).cycle = s.cycle := rfl
@[simp] theorem State.modBank_cycle (s : State) (k : Nat) (f : Bank → Bank) : (s.modBank k f).cycle = s.cycle := rfl
@[simp] theorem State.setBank_ft (s : State) (k : Nat) (v : Bank) : (s.setBank k v).ft = s.ft := rfl
@[simp] theorem State.modBank_ft (s : State) (k : Nat) (f : Bank → Bank) : (s.modBank k f).ft = s.ft := rfl
@[simp] theorem State.setBank_cores (s : State) (k : Nat) (v : Bank) : (s.setBank k v).cores = s.cores := rfl
@[simp] theorem State.modBank_cores (s : State) (k : Nat) (f : Bank → Bank) : (s.modBank k f).cores = s.cores := rfl
@[simp] theorem State.setBank_clusters (s : State) (k : Nat) (v : Bank) : (s.setBank k v).clusters = s.clusters := rfl
@[simp] theorem State.modBank_clusters (s : State) (k : Nat) (f : Bank → Bank) : (s.modBank k f).clusters = s.clusters := rfl
@[simp] theorem State.setBank_dies (s : State) (k : Nat) (v : Bank) : (s.setBank k v).dies = s.dies := rfl
@[simp] theorem State.modBank_dies (s : State) (k : Nat) (f : Bank → Bank) : (s.modBank k f).dies = s.dies := rfl
@[simp] theorem State.setBank_hubs (s : State) (k : Nat) (v : Bank) : (s.setBank k v).hubs = s.hubs := rfl
@[simp] theorem State.modBank_hubs (s : State) (k : Nat) (f : Bank → Bank) : (s.modBank k f).hubs = s.hubs := rfl
@[simp] theorem State.setBank_hostMem (s : State) (k : Nat) (v : Bank) : (s.setBank k v).hostMem = s.hostMem := rfl
@[simp] theorem State.modBank_hostMem (s : State) (k : Nat) (f : Bank → Bank) : (s.modBank k f).hostMem = s.hostMem := rfl
@[simp] theorem State.setBank_hdm (s : State) (k : Nat) (v : Bank) : (s.setBank k v).hdm = s.hdm := rfl
@[simp] theorem State.modBank_hdm (s : State) (k : Nat) (f : Bank → Bank) : (s.modBank k f).hdm = s.hdm := rfl
@[simp] theorem State.setBank_incs (s : State) (k : Nat) (v : Bank) : (s.setBank k v).incs = s.incs := rfl
@[simp] theorem State.modBank_incs (s : State) (k : Nat) (f : Bank → Bank) : (s.modBank k f).incs = s.incs := rfl
@[simp] theorem State.setBank_pkts (s : State) (k : Nat) (v : Bank) : (s.setBank k v).pkts = s.pkts := rfl
@[simp] theorem State.modBank_pkts (s : State) (k : Nat) (f : Bank → Bank) : (s.modBank k f).pkts = s.pkts := rfl
@[simp] theorem State.setBank_faces (s : State) (k : Nat) (v : Bank) : (s.setBank k v).faces = s.faces := rfl
@[simp] theorem State.modBank_faces (s : State) (k : Nat) (f : Bank → Bank) : (s.modBank k f).faces = s.faces := rfl
@[simp] theorem State.setBank_focus (s : State) (k : Nat) (v : Bank) : (s.setBank k v).focus = s.focus := rfl
@[simp] theorem State.modBank_focus (s : State) (k : Nat) (f : Bank → Bank) : (s.modBank k f).focus = s.focus := rfl
@[simp] theorem State.setBank_agenda (s : State) (k : Nat) (v : Bank) : (s.setBank k v).agenda = s.agenda := rfl
@[simp] theorem State.modBank_agenda (s : State) (k : Nat) (f : Bank → Bank) : (s.modBank k f).agenda = s.agenda := rfl
@[simp] theorem State.setBank_inputs (s : State) (k : Nat) (v : Bank) : (s.setBank k v).inputs = s.inputs := rfl
@[simp] theorem State.modBank_inputs (s : State) (k : Nat) (f : Bank → Bank) : (s.modBank k f).inputs = s.inputs := rfl
@[simp] theorem State.setBank_freeCtr (s : State) (k : Nat) (v : Bank) : (s.setBank k v).freeCtr = s.freeCtr := rfl
@[simp] theorem State.modBank_freeCtr (s : State) (k : Nat) (f : Bank → Bank) : (s.modBank k f).freeCtr = s.freeCtr := rfl
@[simp] theorem State.setBank_nextId (s : State) (k : Nat) (v : Bank) : (s.setBank k v).nextId = s.nextId := rfl
@[simp] theorem State.modBank_nextId (s : State) (k : Nat) (f : Bank → Bank) : (s.modBank k f).nextId = s.nextId := rfl
@[simp] theorem State.setBank_atomics (s : State) (k : Nat) (v : Bank) : (s.setBank k v).atomics = s.atomics := rfl
@[simp] theorem State.modBank_atomics (s : State) (k : Nat) (f : Bank → Bank) : (s.modBank k f).atomics = s.atomics := rfl
@[simp] theorem State.setBank_lastRead (s : State) (k : Nat) (v : Bank) : (s.setBank k v).lastRead = s.lastRead := rfl
@[simp] theorem State.modBank_lastRead (s : State) (k : Nat) (f : Bank → Bank) : (s.modBank k f).lastRead = s.lastRead := rfl
@[simp] theorem State.setBank_lastMarks (s : State) (k : Nat) (v : Bank) : (s.setBank k v).lastMarks = s.lastMarks := rfl
@[simp] theorem State.modBank_lastMarks (s : State) (k : Nat) (f : Bank → Bank) : (s.modBank k f).lastMarks = s.lastMarks := rfl
@[simp] theorem State.setBank_pageMsgs (s : State) (k : Nat) (v : Bank) : (s.setBank k v).pageMsgs = s.pageMsgs := rfl
@[simp] theorem State.modBank_pageMsgs (s : State) (k : Nat) (f : Bank → Bank) : (s.modBank k f).pageMsgs = s.pageMsgs := rfl
@[simp] theorem State.setBank_core (s : State) (k : Nat) (v : Bank) (j : Nat) : (s.setBank k v).core j = s.core j := rfl
@[simp] theorem State.modBank_core (s : State) (k : Nat) (f : Bank → Bank) (j : Nat) : (s.modBank k f).core j = s.core j := rfl
@[simp] theorem State.setBank_cluster (s : State) (k : Nat) (v : Bank) (j : Nat) : (s.setBank k v).cluster j = s.cluster j := rfl
@[simp] theorem State.modBank_cluster (s : State) (k : Nat) (f : Bank → Bank) (j : Nat) : (s.modBank k f).cluster j = s.cluster j := rfl
@[simp] theorem State.setBank_die (s : State) (k : Nat) (v : Bank) (j : Nat) : (s.setBank k v).die j = s.die j := rfl
@[simp] theorem State.modBank_die (s : State) (k : Nat) (f : Bank → Bank) (j : Nat) : (s.modBank k f).die j = s.die j := rfl
@[simp] theorem State.setBank_hub (s : State) (k : Nat) (v : Bank) (j : Nat) : (s.setBank k v).hub j = s.hub j := rfl
@[simp] theorem State.modBank_hub (s : State) (k : Nat) (f : Bank → Bank) (j : Nat) : (s.modBank k f).hub j = s.hub j := rfl
@[simp] theorem State.setBank_bank_same (s : State) (k : Nat) (v : Bank) : (s.setBank k v).bank k = v :=
  SMap.get_set_same ..
theorem State.setBank_bank_ne (s : State) (k j : Nat) (v : Bank) (h : j ≠ k) : (s.setBank k v).bank j = s.bank j :=
  SMap.get_set_ne _ _ _ _ _ h
@[simp] theorem State.modBank_bank_same (s : State) (k : Nat) (f : Bank → Bank) : (s.modBank k f).bank k = f (s.bank k) :=
  SMap.get_set_same ..
theorem State.modBank_bank_ne (s : State) (k j : Nat) (f : Bank → Bank) (h : j ≠ k) : (s.modBank k f).bank j = s.bank j :=
  SMap.get_set_ne _ _ _ _ _ h

/-! setCore and modCore. -/

@[simp] theorem State.setCore_cycle (s : State) (k : Nat) (v : Core) : (s.setCore k v).cycle = s.cycle := rfl
@[simp] theorem State.modCore_cycle (s : State) (k : Nat) (f : Core → Core) : (s.modCore k f).cycle = s.cycle := rfl
@[simp] theorem State.setCore_ft (s : State) (k : Nat) (v : Core) : (s.setCore k v).ft = s.ft := rfl
@[simp] theorem State.modCore_ft (s : State) (k : Nat) (f : Core → Core) : (s.modCore k f).ft = s.ft := rfl
@[simp] theorem State.setCore_banks (s : State) (k : Nat) (v : Core) : (s.setCore k v).banks = s.banks := rfl
@[simp] theorem State.modCore_banks (s : State) (k : Nat) (f : Core → Core) : (s.modCore k f).banks = s.banks := rfl
@[simp] theorem State.setCore_clusters (s : State) (k : Nat) (v : Core) : (s.setCore k v).clusters = s.clusters := rfl
@[simp] theorem State.modCore_clusters (s : State) (k : Nat) (f : Core → Core) : (s.modCore k f).clusters = s.clusters := rfl
@[simp] theorem State.setCore_dies (s : State) (k : Nat) (v : Core) : (s.setCore k v).dies = s.dies := rfl
@[simp] theorem State.modCore_dies (s : State) (k : Nat) (f : Core → Core) : (s.modCore k f).dies = s.dies := rfl
@[simp] theorem State.setCore_hubs (s : State) (k : Nat) (v : Core) : (s.setCore k v).hubs = s.hubs := rfl
@[simp] theorem State.modCore_hubs (s : State) (k : Nat) (f : Core → Core) : (s.modCore k f).hubs = s.hubs := rfl
@[simp] theorem State.setCore_hostMem (s : State) (k : Nat) (v : Core) : (s.setCore k v).hostMem = s.hostMem := rfl
@[simp] theorem State.modCore_hostMem (s : State) (k : Nat) (f : Core → Core) : (s.modCore k f).hostMem = s.hostMem := rfl
@[simp] theorem State.setCore_hdm (s : State) (k : Nat) (v : Core) : (s.setCore k v).hdm = s.hdm := rfl
@[simp] theorem State.modCore_hdm (s : State) (k : Nat) (f : Core → Core) : (s.modCore k f).hdm = s.hdm := rfl
@[simp] theorem State.setCore_incs (s : State) (k : Nat) (v : Core) : (s.setCore k v).incs = s.incs := rfl
@[simp] theorem State.modCore_incs (s : State) (k : Nat) (f : Core → Core) : (s.modCore k f).incs = s.incs := rfl
@[simp] theorem State.setCore_pkts (s : State) (k : Nat) (v : Core) : (s.setCore k v).pkts = s.pkts := rfl
@[simp] theorem State.modCore_pkts (s : State) (k : Nat) (f : Core → Core) : (s.modCore k f).pkts = s.pkts := rfl
@[simp] theorem State.setCore_faces (s : State) (k : Nat) (v : Core) : (s.setCore k v).faces = s.faces := rfl
@[simp] theorem State.modCore_faces (s : State) (k : Nat) (f : Core → Core) : (s.modCore k f).faces = s.faces := rfl
@[simp] theorem State.setCore_focus (s : State) (k : Nat) (v : Core) : (s.setCore k v).focus = s.focus := rfl
@[simp] theorem State.modCore_focus (s : State) (k : Nat) (f : Core → Core) : (s.modCore k f).focus = s.focus := rfl
@[simp] theorem State.setCore_agenda (s : State) (k : Nat) (v : Core) : (s.setCore k v).agenda = s.agenda := rfl
@[simp] theorem State.modCore_agenda (s : State) (k : Nat) (f : Core → Core) : (s.modCore k f).agenda = s.agenda := rfl
@[simp] theorem State.setCore_inputs (s : State) (k : Nat) (v : Core) : (s.setCore k v).inputs = s.inputs := rfl
@[simp] theorem State.modCore_inputs (s : State) (k : Nat) (f : Core → Core) : (s.modCore k f).inputs = s.inputs := rfl
@[simp] theorem State.setCore_freeCtr (s : State) (k : Nat) (v : Core) : (s.setCore k v).freeCtr = s.freeCtr := rfl
@[simp] theorem State.modCore_freeCtr (s : State) (k : Nat) (f : Core → Core) : (s.modCore k f).freeCtr = s.freeCtr := rfl
@[simp] theorem State.setCore_nextId (s : State) (k : Nat) (v : Core) : (s.setCore k v).nextId = s.nextId := rfl
@[simp] theorem State.modCore_nextId (s : State) (k : Nat) (f : Core → Core) : (s.modCore k f).nextId = s.nextId := rfl
@[simp] theorem State.setCore_atomics (s : State) (k : Nat) (v : Core) : (s.setCore k v).atomics = s.atomics := rfl
@[simp] theorem State.modCore_atomics (s : State) (k : Nat) (f : Core → Core) : (s.modCore k f).atomics = s.atomics := rfl
@[simp] theorem State.setCore_lastRead (s : State) (k : Nat) (v : Core) : (s.setCore k v).lastRead = s.lastRead := rfl
@[simp] theorem State.modCore_lastRead (s : State) (k : Nat) (f : Core → Core) : (s.modCore k f).lastRead = s.lastRead := rfl
@[simp] theorem State.setCore_lastMarks (s : State) (k : Nat) (v : Core) : (s.setCore k v).lastMarks = s.lastMarks := rfl
@[simp] theorem State.modCore_lastMarks (s : State) (k : Nat) (f : Core → Core) : (s.modCore k f).lastMarks = s.lastMarks := rfl
@[simp] theorem State.setCore_pageMsgs (s : State) (k : Nat) (v : Core) : (s.setCore k v).pageMsgs = s.pageMsgs := rfl
@[simp] theorem State.modCore_pageMsgs (s : State) (k : Nat) (f : Core → Core) : (s.modCore k f).pageMsgs = s.pageMsgs := rfl
@[simp] theorem State.setCore_bank (s : State) (k : Nat) (v : Core) (j : Nat) : (s.setCore k v).bank j = s.bank j := rfl
@[simp] theorem State.modCore_bank (s : State) (k : Nat) (f : Core → Core) (j : Nat) : (s.modCore k f).bank j = s.bank j := rfl
@[simp] theorem State.setCore_cluster (s : State) (k : Nat) (v : Core) (j : Nat) : (s.setCore k v).cluster j = s.cluster j := rfl
@[simp] theorem State.modCore_cluster (s : State) (k : Nat) (f : Core → Core) (j : Nat) : (s.modCore k f).cluster j = s.cluster j := rfl
@[simp] theorem State.setCore_die (s : State) (k : Nat) (v : Core) (j : Nat) : (s.setCore k v).die j = s.die j := rfl
@[simp] theorem State.modCore_die (s : State) (k : Nat) (f : Core → Core) (j : Nat) : (s.modCore k f).die j = s.die j := rfl
@[simp] theorem State.setCore_hub (s : State) (k : Nat) (v : Core) (j : Nat) : (s.setCore k v).hub j = s.hub j := rfl
@[simp] theorem State.modCore_hub (s : State) (k : Nat) (f : Core → Core) (j : Nat) : (s.modCore k f).hub j = s.hub j := rfl
@[simp] theorem State.setCore_core_same (s : State) (k : Nat) (v : Core) : (s.setCore k v).core k = v :=
  SMap.get_set_same ..
theorem State.setCore_core_ne (s : State) (k j : Nat) (v : Core) (h : j ≠ k) : (s.setCore k v).core j = s.core j :=
  SMap.get_set_ne _ _ _ _ _ h
@[simp] theorem State.modCore_core_same (s : State) (k : Nat) (f : Core → Core) : (s.modCore k f).core k = f (s.core k) :=
  SMap.get_set_same ..
theorem State.modCore_core_ne (s : State) (k j : Nat) (f : Core → Core) (h : j ≠ k) : (s.modCore k f).core j = s.core j :=
  SMap.get_set_ne _ _ _ _ _ h

/-! setCluster and modCluster. -/

@[simp] theorem State.setCluster_cycle (s : State) (k : Nat) (v : Cluster) : (s.setCluster k v).cycle = s.cycle := rfl
@[simp] theorem State.modCluster_cycle (s : State) (k : Nat) (f : Cluster → Cluster) : (s.modCluster k f).cycle = s.cycle := rfl
@[simp] theorem State.setCluster_ft (s : State) (k : Nat) (v : Cluster) : (s.setCluster k v).ft = s.ft := rfl
@[simp] theorem State.modCluster_ft (s : State) (k : Nat) (f : Cluster → Cluster) : (s.modCluster k f).ft = s.ft := rfl
@[simp] theorem State.setCluster_banks (s : State) (k : Nat) (v : Cluster) : (s.setCluster k v).banks = s.banks := rfl
@[simp] theorem State.modCluster_banks (s : State) (k : Nat) (f : Cluster → Cluster) : (s.modCluster k f).banks = s.banks := rfl
@[simp] theorem State.setCluster_cores (s : State) (k : Nat) (v : Cluster) : (s.setCluster k v).cores = s.cores := rfl
@[simp] theorem State.modCluster_cores (s : State) (k : Nat) (f : Cluster → Cluster) : (s.modCluster k f).cores = s.cores := rfl
@[simp] theorem State.setCluster_dies (s : State) (k : Nat) (v : Cluster) : (s.setCluster k v).dies = s.dies := rfl
@[simp] theorem State.modCluster_dies (s : State) (k : Nat) (f : Cluster → Cluster) : (s.modCluster k f).dies = s.dies := rfl
@[simp] theorem State.setCluster_hubs (s : State) (k : Nat) (v : Cluster) : (s.setCluster k v).hubs = s.hubs := rfl
@[simp] theorem State.modCluster_hubs (s : State) (k : Nat) (f : Cluster → Cluster) : (s.modCluster k f).hubs = s.hubs := rfl
@[simp] theorem State.setCluster_hostMem (s : State) (k : Nat) (v : Cluster) : (s.setCluster k v).hostMem = s.hostMem := rfl
@[simp] theorem State.modCluster_hostMem (s : State) (k : Nat) (f : Cluster → Cluster) : (s.modCluster k f).hostMem = s.hostMem := rfl
@[simp] theorem State.setCluster_hdm (s : State) (k : Nat) (v : Cluster) : (s.setCluster k v).hdm = s.hdm := rfl
@[simp] theorem State.modCluster_hdm (s : State) (k : Nat) (f : Cluster → Cluster) : (s.modCluster k f).hdm = s.hdm := rfl
@[simp] theorem State.setCluster_incs (s : State) (k : Nat) (v : Cluster) : (s.setCluster k v).incs = s.incs := rfl
@[simp] theorem State.modCluster_incs (s : State) (k : Nat) (f : Cluster → Cluster) : (s.modCluster k f).incs = s.incs := rfl
@[simp] theorem State.setCluster_pkts (s : State) (k : Nat) (v : Cluster) : (s.setCluster k v).pkts = s.pkts := rfl
@[simp] theorem State.modCluster_pkts (s : State) (k : Nat) (f : Cluster → Cluster) : (s.modCluster k f).pkts = s.pkts := rfl
@[simp] theorem State.setCluster_faces (s : State) (k : Nat) (v : Cluster) : (s.setCluster k v).faces = s.faces := rfl
@[simp] theorem State.modCluster_faces (s : State) (k : Nat) (f : Cluster → Cluster) : (s.modCluster k f).faces = s.faces := rfl
@[simp] theorem State.setCluster_focus (s : State) (k : Nat) (v : Cluster) : (s.setCluster k v).focus = s.focus := rfl
@[simp] theorem State.modCluster_focus (s : State) (k : Nat) (f : Cluster → Cluster) : (s.modCluster k f).focus = s.focus := rfl
@[simp] theorem State.setCluster_agenda (s : State) (k : Nat) (v : Cluster) : (s.setCluster k v).agenda = s.agenda := rfl
@[simp] theorem State.modCluster_agenda (s : State) (k : Nat) (f : Cluster → Cluster) : (s.modCluster k f).agenda = s.agenda := rfl
@[simp] theorem State.setCluster_inputs (s : State) (k : Nat) (v : Cluster) : (s.setCluster k v).inputs = s.inputs := rfl
@[simp] theorem State.modCluster_inputs (s : State) (k : Nat) (f : Cluster → Cluster) : (s.modCluster k f).inputs = s.inputs := rfl
@[simp] theorem State.setCluster_freeCtr (s : State) (k : Nat) (v : Cluster) : (s.setCluster k v).freeCtr = s.freeCtr := rfl
@[simp] theorem State.modCluster_freeCtr (s : State) (k : Nat) (f : Cluster → Cluster) : (s.modCluster k f).freeCtr = s.freeCtr := rfl
@[simp] theorem State.setCluster_nextId (s : State) (k : Nat) (v : Cluster) : (s.setCluster k v).nextId = s.nextId := rfl
@[simp] theorem State.modCluster_nextId (s : State) (k : Nat) (f : Cluster → Cluster) : (s.modCluster k f).nextId = s.nextId := rfl
@[simp] theorem State.setCluster_atomics (s : State) (k : Nat) (v : Cluster) : (s.setCluster k v).atomics = s.atomics := rfl
@[simp] theorem State.modCluster_atomics (s : State) (k : Nat) (f : Cluster → Cluster) : (s.modCluster k f).atomics = s.atomics := rfl
@[simp] theorem State.setCluster_lastRead (s : State) (k : Nat) (v : Cluster) : (s.setCluster k v).lastRead = s.lastRead := rfl
@[simp] theorem State.modCluster_lastRead (s : State) (k : Nat) (f : Cluster → Cluster) : (s.modCluster k f).lastRead = s.lastRead := rfl
@[simp] theorem State.setCluster_lastMarks (s : State) (k : Nat) (v : Cluster) : (s.setCluster k v).lastMarks = s.lastMarks := rfl
@[simp] theorem State.modCluster_lastMarks (s : State) (k : Nat) (f : Cluster → Cluster) : (s.modCluster k f).lastMarks = s.lastMarks := rfl
@[simp] theorem State.setCluster_pageMsgs (s : State) (k : Nat) (v : Cluster) : (s.setCluster k v).pageMsgs = s.pageMsgs := rfl
@[simp] theorem State.modCluster_pageMsgs (s : State) (k : Nat) (f : Cluster → Cluster) : (s.modCluster k f).pageMsgs = s.pageMsgs := rfl
@[simp] theorem State.setCluster_bank (s : State) (k : Nat) (v : Cluster) (j : Nat) : (s.setCluster k v).bank j = s.bank j := rfl
@[simp] theorem State.modCluster_bank (s : State) (k : Nat) (f : Cluster → Cluster) (j : Nat) : (s.modCluster k f).bank j = s.bank j := rfl
@[simp] theorem State.setCluster_core (s : State) (k : Nat) (v : Cluster) (j : Nat) : (s.setCluster k v).core j = s.core j := rfl
@[simp] theorem State.modCluster_core (s : State) (k : Nat) (f : Cluster → Cluster) (j : Nat) : (s.modCluster k f).core j = s.core j := rfl
@[simp] theorem State.setCluster_die (s : State) (k : Nat) (v : Cluster) (j : Nat) : (s.setCluster k v).die j = s.die j := rfl
@[simp] theorem State.modCluster_die (s : State) (k : Nat) (f : Cluster → Cluster) (j : Nat) : (s.modCluster k f).die j = s.die j := rfl
@[simp] theorem State.setCluster_hub (s : State) (k : Nat) (v : Cluster) (j : Nat) : (s.setCluster k v).hub j = s.hub j := rfl
@[simp] theorem State.modCluster_hub (s : State) (k : Nat) (f : Cluster → Cluster) (j : Nat) : (s.modCluster k f).hub j = s.hub j := rfl
@[simp] theorem State.setCluster_cluster_same (s : State) (k : Nat) (v : Cluster) : (s.setCluster k v).cluster k = v :=
  SMap.get_set_same ..
theorem State.setCluster_cluster_ne (s : State) (k j : Nat) (v : Cluster) (h : j ≠ k) : (s.setCluster k v).cluster j = s.cluster j :=
  SMap.get_set_ne _ _ _ _ _ h
@[simp] theorem State.modCluster_cluster_same (s : State) (k : Nat) (f : Cluster → Cluster) : (s.modCluster k f).cluster k = f (s.cluster k) :=
  SMap.get_set_same ..
theorem State.modCluster_cluster_ne (s : State) (k j : Nat) (f : Cluster → Cluster) (h : j ≠ k) : (s.modCluster k f).cluster j = s.cluster j :=
  SMap.get_set_ne _ _ _ _ _ h

/-! setDie and modDie. -/

@[simp] theorem State.setDie_cycle (s : State) (k : Nat) (v : Die) : (s.setDie k v).cycle = s.cycle := rfl
@[simp] theorem State.modDie_cycle (s : State) (k : Nat) (f : Die → Die) : (s.modDie k f).cycle = s.cycle := rfl
@[simp] theorem State.setDie_ft (s : State) (k : Nat) (v : Die) : (s.setDie k v).ft = s.ft := rfl
@[simp] theorem State.modDie_ft (s : State) (k : Nat) (f : Die → Die) : (s.modDie k f).ft = s.ft := rfl
@[simp] theorem State.setDie_banks (s : State) (k : Nat) (v : Die) : (s.setDie k v).banks = s.banks := rfl
@[simp] theorem State.modDie_banks (s : State) (k : Nat) (f : Die → Die) : (s.modDie k f).banks = s.banks := rfl
@[simp] theorem State.setDie_cores (s : State) (k : Nat) (v : Die) : (s.setDie k v).cores = s.cores := rfl
@[simp] theorem State.modDie_cores (s : State) (k : Nat) (f : Die → Die) : (s.modDie k f).cores = s.cores := rfl
@[simp] theorem State.setDie_clusters (s : State) (k : Nat) (v : Die) : (s.setDie k v).clusters = s.clusters := rfl
@[simp] theorem State.modDie_clusters (s : State) (k : Nat) (f : Die → Die) : (s.modDie k f).clusters = s.clusters := rfl
@[simp] theorem State.setDie_hubs (s : State) (k : Nat) (v : Die) : (s.setDie k v).hubs = s.hubs := rfl
@[simp] theorem State.modDie_hubs (s : State) (k : Nat) (f : Die → Die) : (s.modDie k f).hubs = s.hubs := rfl
@[simp] theorem State.setDie_hostMem (s : State) (k : Nat) (v : Die) : (s.setDie k v).hostMem = s.hostMem := rfl
@[simp] theorem State.modDie_hostMem (s : State) (k : Nat) (f : Die → Die) : (s.modDie k f).hostMem = s.hostMem := rfl
@[simp] theorem State.setDie_hdm (s : State) (k : Nat) (v : Die) : (s.setDie k v).hdm = s.hdm := rfl
@[simp] theorem State.modDie_hdm (s : State) (k : Nat) (f : Die → Die) : (s.modDie k f).hdm = s.hdm := rfl
@[simp] theorem State.setDie_incs (s : State) (k : Nat) (v : Die) : (s.setDie k v).incs = s.incs := rfl
@[simp] theorem State.modDie_incs (s : State) (k : Nat) (f : Die → Die) : (s.modDie k f).incs = s.incs := rfl
@[simp] theorem State.setDie_pkts (s : State) (k : Nat) (v : Die) : (s.setDie k v).pkts = s.pkts := rfl
@[simp] theorem State.modDie_pkts (s : State) (k : Nat) (f : Die → Die) : (s.modDie k f).pkts = s.pkts := rfl
@[simp] theorem State.setDie_faces (s : State) (k : Nat) (v : Die) : (s.setDie k v).faces = s.faces := rfl
@[simp] theorem State.modDie_faces (s : State) (k : Nat) (f : Die → Die) : (s.modDie k f).faces = s.faces := rfl
@[simp] theorem State.setDie_focus (s : State) (k : Nat) (v : Die) : (s.setDie k v).focus = s.focus := rfl
@[simp] theorem State.modDie_focus (s : State) (k : Nat) (f : Die → Die) : (s.modDie k f).focus = s.focus := rfl
@[simp] theorem State.setDie_agenda (s : State) (k : Nat) (v : Die) : (s.setDie k v).agenda = s.agenda := rfl
@[simp] theorem State.modDie_agenda (s : State) (k : Nat) (f : Die → Die) : (s.modDie k f).agenda = s.agenda := rfl
@[simp] theorem State.setDie_inputs (s : State) (k : Nat) (v : Die) : (s.setDie k v).inputs = s.inputs := rfl
@[simp] theorem State.modDie_inputs (s : State) (k : Nat) (f : Die → Die) : (s.modDie k f).inputs = s.inputs := rfl
@[simp] theorem State.setDie_freeCtr (s : State) (k : Nat) (v : Die) : (s.setDie k v).freeCtr = s.freeCtr := rfl
@[simp] theorem State.modDie_freeCtr (s : State) (k : Nat) (f : Die → Die) : (s.modDie k f).freeCtr = s.freeCtr := rfl
@[simp] theorem State.setDie_nextId (s : State) (k : Nat) (v : Die) : (s.setDie k v).nextId = s.nextId := rfl
@[simp] theorem State.modDie_nextId (s : State) (k : Nat) (f : Die → Die) : (s.modDie k f).nextId = s.nextId := rfl
@[simp] theorem State.setDie_atomics (s : State) (k : Nat) (v : Die) : (s.setDie k v).atomics = s.atomics := rfl
@[simp] theorem State.modDie_atomics (s : State) (k : Nat) (f : Die → Die) : (s.modDie k f).atomics = s.atomics := rfl
@[simp] theorem State.setDie_lastRead (s : State) (k : Nat) (v : Die) : (s.setDie k v).lastRead = s.lastRead := rfl
@[simp] theorem State.modDie_lastRead (s : State) (k : Nat) (f : Die → Die) : (s.modDie k f).lastRead = s.lastRead := rfl
@[simp] theorem State.setDie_lastMarks (s : State) (k : Nat) (v : Die) : (s.setDie k v).lastMarks = s.lastMarks := rfl
@[simp] theorem State.modDie_lastMarks (s : State) (k : Nat) (f : Die → Die) : (s.modDie k f).lastMarks = s.lastMarks := rfl
@[simp] theorem State.setDie_pageMsgs (s : State) (k : Nat) (v : Die) : (s.setDie k v).pageMsgs = s.pageMsgs := rfl
@[simp] theorem State.modDie_pageMsgs (s : State) (k : Nat) (f : Die → Die) : (s.modDie k f).pageMsgs = s.pageMsgs := rfl
@[simp] theorem State.setDie_bank (s : State) (k : Nat) (v : Die) (j : Nat) : (s.setDie k v).bank j = s.bank j := rfl
@[simp] theorem State.modDie_bank (s : State) (k : Nat) (f : Die → Die) (j : Nat) : (s.modDie k f).bank j = s.bank j := rfl
@[simp] theorem State.setDie_core (s : State) (k : Nat) (v : Die) (j : Nat) : (s.setDie k v).core j = s.core j := rfl
@[simp] theorem State.modDie_core (s : State) (k : Nat) (f : Die → Die) (j : Nat) : (s.modDie k f).core j = s.core j := rfl
@[simp] theorem State.setDie_cluster (s : State) (k : Nat) (v : Die) (j : Nat) : (s.setDie k v).cluster j = s.cluster j := rfl
@[simp] theorem State.modDie_cluster (s : State) (k : Nat) (f : Die → Die) (j : Nat) : (s.modDie k f).cluster j = s.cluster j := rfl
@[simp] theorem State.setDie_hub (s : State) (k : Nat) (v : Die) (j : Nat) : (s.setDie k v).hub j = s.hub j := rfl
@[simp] theorem State.modDie_hub (s : State) (k : Nat) (f : Die → Die) (j : Nat) : (s.modDie k f).hub j = s.hub j := rfl
@[simp] theorem State.setDie_die_same (s : State) (k : Nat) (v : Die) : (s.setDie k v).die k = v :=
  SMap.get_set_same ..
theorem State.setDie_die_ne (s : State) (k j : Nat) (v : Die) (h : j ≠ k) : (s.setDie k v).die j = s.die j :=
  SMap.get_set_ne _ _ _ _ _ h
@[simp] theorem State.modDie_die_same (s : State) (k : Nat) (f : Die → Die) : (s.modDie k f).die k = f (s.die k) :=
  SMap.get_set_same ..
theorem State.modDie_die_ne (s : State) (k j : Nat) (f : Die → Die) (h : j ≠ k) : (s.modDie k f).die j = s.die j :=
  SMap.get_set_ne _ _ _ _ _ h

/-! setHub and modHub. -/

@[simp] theorem State.setHub_cycle (s : State) (k : Nat) (v : Hub) : (s.setHub k v).cycle = s.cycle := rfl
@[simp] theorem State.modHub_cycle (s : State) (k : Nat) (f : Hub → Hub) : (s.modHub k f).cycle = s.cycle := rfl
@[simp] theorem State.setHub_ft (s : State) (k : Nat) (v : Hub) : (s.setHub k v).ft = s.ft := rfl
@[simp] theorem State.modHub_ft (s : State) (k : Nat) (f : Hub → Hub) : (s.modHub k f).ft = s.ft := rfl
@[simp] theorem State.setHub_banks (s : State) (k : Nat) (v : Hub) : (s.setHub k v).banks = s.banks := rfl
@[simp] theorem State.modHub_banks (s : State) (k : Nat) (f : Hub → Hub) : (s.modHub k f).banks = s.banks := rfl
@[simp] theorem State.setHub_cores (s : State) (k : Nat) (v : Hub) : (s.setHub k v).cores = s.cores := rfl
@[simp] theorem State.modHub_cores (s : State) (k : Nat) (f : Hub → Hub) : (s.modHub k f).cores = s.cores := rfl
@[simp] theorem State.setHub_clusters (s : State) (k : Nat) (v : Hub) : (s.setHub k v).clusters = s.clusters := rfl
@[simp] theorem State.modHub_clusters (s : State) (k : Nat) (f : Hub → Hub) : (s.modHub k f).clusters = s.clusters := rfl
@[simp] theorem State.setHub_dies (s : State) (k : Nat) (v : Hub) : (s.setHub k v).dies = s.dies := rfl
@[simp] theorem State.modHub_dies (s : State) (k : Nat) (f : Hub → Hub) : (s.modHub k f).dies = s.dies := rfl
@[simp] theorem State.setHub_hostMem (s : State) (k : Nat) (v : Hub) : (s.setHub k v).hostMem = s.hostMem := rfl
@[simp] theorem State.modHub_hostMem (s : State) (k : Nat) (f : Hub → Hub) : (s.modHub k f).hostMem = s.hostMem := rfl
@[simp] theorem State.setHub_hdm (s : State) (k : Nat) (v : Hub) : (s.setHub k v).hdm = s.hdm := rfl
@[simp] theorem State.modHub_hdm (s : State) (k : Nat) (f : Hub → Hub) : (s.modHub k f).hdm = s.hdm := rfl
@[simp] theorem State.setHub_incs (s : State) (k : Nat) (v : Hub) : (s.setHub k v).incs = s.incs := rfl
@[simp] theorem State.modHub_incs (s : State) (k : Nat) (f : Hub → Hub) : (s.modHub k f).incs = s.incs := rfl
@[simp] theorem State.setHub_pkts (s : State) (k : Nat) (v : Hub) : (s.setHub k v).pkts = s.pkts := rfl
@[simp] theorem State.modHub_pkts (s : State) (k : Nat) (f : Hub → Hub) : (s.modHub k f).pkts = s.pkts := rfl
@[simp] theorem State.setHub_faces (s : State) (k : Nat) (v : Hub) : (s.setHub k v).faces = s.faces := rfl
@[simp] theorem State.modHub_faces (s : State) (k : Nat) (f : Hub → Hub) : (s.modHub k f).faces = s.faces := rfl
@[simp] theorem State.setHub_focus (s : State) (k : Nat) (v : Hub) : (s.setHub k v).focus = s.focus := rfl
@[simp] theorem State.modHub_focus (s : State) (k : Nat) (f : Hub → Hub) : (s.modHub k f).focus = s.focus := rfl
@[simp] theorem State.setHub_agenda (s : State) (k : Nat) (v : Hub) : (s.setHub k v).agenda = s.agenda := rfl
@[simp] theorem State.modHub_agenda (s : State) (k : Nat) (f : Hub → Hub) : (s.modHub k f).agenda = s.agenda := rfl
@[simp] theorem State.setHub_inputs (s : State) (k : Nat) (v : Hub) : (s.setHub k v).inputs = s.inputs := rfl
@[simp] theorem State.modHub_inputs (s : State) (k : Nat) (f : Hub → Hub) : (s.modHub k f).inputs = s.inputs := rfl
@[simp] theorem State.setHub_freeCtr (s : State) (k : Nat) (v : Hub) : (s.setHub k v).freeCtr = s.freeCtr := rfl
@[simp] theorem State.modHub_freeCtr (s : State) (k : Nat) (f : Hub → Hub) : (s.modHub k f).freeCtr = s.freeCtr := rfl
@[simp] theorem State.setHub_nextId (s : State) (k : Nat) (v : Hub) : (s.setHub k v).nextId = s.nextId := rfl
@[simp] theorem State.modHub_nextId (s : State) (k : Nat) (f : Hub → Hub) : (s.modHub k f).nextId = s.nextId := rfl
@[simp] theorem State.setHub_atomics (s : State) (k : Nat) (v : Hub) : (s.setHub k v).atomics = s.atomics := rfl
@[simp] theorem State.modHub_atomics (s : State) (k : Nat) (f : Hub → Hub) : (s.modHub k f).atomics = s.atomics := rfl
@[simp] theorem State.setHub_lastRead (s : State) (k : Nat) (v : Hub) : (s.setHub k v).lastRead = s.lastRead := rfl
@[simp] theorem State.modHub_lastRead (s : State) (k : Nat) (f : Hub → Hub) : (s.modHub k f).lastRead = s.lastRead := rfl
@[simp] theorem State.setHub_lastMarks (s : State) (k : Nat) (v : Hub) : (s.setHub k v).lastMarks = s.lastMarks := rfl
@[simp] theorem State.modHub_lastMarks (s : State) (k : Nat) (f : Hub → Hub) : (s.modHub k f).lastMarks = s.lastMarks := rfl
@[simp] theorem State.setHub_pageMsgs (s : State) (k : Nat) (v : Hub) : (s.setHub k v).pageMsgs = s.pageMsgs := rfl
@[simp] theorem State.modHub_pageMsgs (s : State) (k : Nat) (f : Hub → Hub) : (s.modHub k f).pageMsgs = s.pageMsgs := rfl
@[simp] theorem State.setHub_bank (s : State) (k : Nat) (v : Hub) (j : Nat) : (s.setHub k v).bank j = s.bank j := rfl
@[simp] theorem State.modHub_bank (s : State) (k : Nat) (f : Hub → Hub) (j : Nat) : (s.modHub k f).bank j = s.bank j := rfl
@[simp] theorem State.setHub_core (s : State) (k : Nat) (v : Hub) (j : Nat) : (s.setHub k v).core j = s.core j := rfl
@[simp] theorem State.modHub_core (s : State) (k : Nat) (f : Hub → Hub) (j : Nat) : (s.modHub k f).core j = s.core j := rfl
@[simp] theorem State.setHub_cluster (s : State) (k : Nat) (v : Hub) (j : Nat) : (s.setHub k v).cluster j = s.cluster j := rfl
@[simp] theorem State.modHub_cluster (s : State) (k : Nat) (f : Hub → Hub) (j : Nat) : (s.modHub k f).cluster j = s.cluster j := rfl
@[simp] theorem State.setHub_die (s : State) (k : Nat) (v : Hub) (j : Nat) : (s.setHub k v).die j = s.die j := rfl
@[simp] theorem State.modHub_die (s : State) (k : Nat) (f : Hub → Hub) (j : Nat) : (s.modHub k f).die j = s.die j := rfl
@[simp] theorem State.setHub_hub_same (s : State) (k : Nat) (v : Hub) : (s.setHub k v).hub k = v :=
  SMap.get_set_same ..
theorem State.setHub_hub_ne (s : State) (k j : Nat) (v : Hub) (h : j ≠ k) : (s.setHub k v).hub j = s.hub j :=
  SMap.get_set_ne _ _ _ _ _ h
@[simp] theorem State.modHub_hub_same (s : State) (k : Nat) (f : Hub → Hub) : (s.modHub k f).hub k = f (s.hub k) :=
  SMap.get_set_same ..
theorem State.modHub_hub_ne (s : State) (k j : Nat) (f : Hub → Hub) (h : j ≠ k) : (s.modHub k f).hub j = s.hub j :=
  SMap.get_set_ne _ _ _ _ _ h

/-! spend and newId. -/

@[simp] theorem State.spend_cycle (s : State) : s.spend.cycle = s.cycle := rfl
@[simp] theorem State.newId_cycle (s : State) : s.newId.2.cycle = s.cycle := rfl
@[simp] theorem State.spend_ft (s : State) : s.spend.ft = s.ft := rfl
@[simp] theorem State.newId_ft (s : State) : s.newId.2.ft = s.ft := rfl
@[simp] theorem State.spend_banks (s : State) : s.spend.banks = s.banks := rfl
@[simp] theorem State.newId_banks (s : State) : s.newId.2.banks = s.banks := rfl
@[simp] theorem State.spend_cores (s : State) : s.spend.cores = s.cores := rfl
@[simp] theorem State.newId_cores (s : State) : s.newId.2.cores = s.cores := rfl
@[simp] theorem State.spend_clusters (s : State) : s.spend.clusters = s.clusters := rfl
@[simp] theorem State.newId_clusters (s : State) : s.newId.2.clusters = s.clusters := rfl
@[simp] theorem State.spend_dies (s : State) : s.spend.dies = s.dies := rfl
@[simp] theorem State.newId_dies (s : State) : s.newId.2.dies = s.dies := rfl
@[simp] theorem State.spend_hubs (s : State) : s.spend.hubs = s.hubs := rfl
@[simp] theorem State.newId_hubs (s : State) : s.newId.2.hubs = s.hubs := rfl
@[simp] theorem State.spend_hostMem (s : State) : s.spend.hostMem = s.hostMem := rfl
@[simp] theorem State.newId_hostMem (s : State) : s.newId.2.hostMem = s.hostMem := rfl
@[simp] theorem State.spend_hdm (s : State) : s.spend.hdm = s.hdm := rfl
@[simp] theorem State.newId_hdm (s : State) : s.newId.2.hdm = s.hdm := rfl
@[simp] theorem State.spend_incs (s : State) : s.spend.incs = s.incs := rfl
@[simp] theorem State.newId_incs (s : State) : s.newId.2.incs = s.incs := rfl
@[simp] theorem State.spend_pkts (s : State) : s.spend.pkts = s.pkts := rfl
@[simp] theorem State.newId_pkts (s : State) : s.newId.2.pkts = s.pkts := rfl
@[simp] theorem State.spend_faces (s : State) : s.spend.faces = s.faces := rfl
@[simp] theorem State.newId_faces (s : State) : s.newId.2.faces = s.faces := rfl
@[simp] theorem State.spend_focus (s : State) : s.spend.focus = s.focus := rfl
@[simp] theorem State.newId_focus (s : State) : s.newId.2.focus = s.focus := rfl
@[simp] theorem State.spend_agenda (s : State) : s.spend.agenda = s.agenda := rfl
@[simp] theorem State.newId_agenda (s : State) : s.newId.2.agenda = s.agenda := rfl
@[simp] theorem State.spend_inputs (s : State) : s.spend.inputs = s.inputs := rfl
@[simp] theorem State.newId_inputs (s : State) : s.newId.2.inputs = s.inputs := rfl
@[simp] theorem State.newId_freeCtr (s : State) : s.newId.2.freeCtr = s.freeCtr := rfl
@[simp] theorem State.spend_nextId (s : State) : s.spend.nextId = s.nextId := rfl
@[simp] theorem State.spend_atomics (s : State) : s.spend.atomics = s.atomics := rfl
@[simp] theorem State.newId_atomics (s : State) : s.newId.2.atomics = s.atomics := rfl
@[simp] theorem State.spend_lastRead (s : State) : s.spend.lastRead = s.lastRead := rfl
@[simp] theorem State.newId_lastRead (s : State) : s.newId.2.lastRead = s.lastRead := rfl
@[simp] theorem State.spend_lastMarks (s : State) : s.spend.lastMarks = s.lastMarks := rfl
@[simp] theorem State.newId_lastMarks (s : State) : s.newId.2.lastMarks = s.lastMarks := rfl
@[simp] theorem State.spend_pageMsgs (s : State) : s.spend.pageMsgs = s.pageMsgs := rfl
@[simp] theorem State.newId_pageMsgs (s : State) : s.newId.2.pageMsgs = s.pageMsgs := rfl
@[simp] theorem State.spend_bank (s : State) (j : Nat) : s.spend.bank j = s.bank j := rfl
@[simp] theorem State.newId_bank (s : State) (j : Nat) : s.newId.2.bank j = s.bank j := rfl
@[simp] theorem State.spend_core (s : State) (j : Nat) : s.spend.core j = s.core j := rfl
@[simp] theorem State.newId_core (s : State) (j : Nat) : s.newId.2.core j = s.core j := rfl
@[simp] theorem State.spend_cluster (s : State) (j : Nat) : s.spend.cluster j = s.cluster j := rfl
@[simp] theorem State.newId_cluster (s : State) (j : Nat) : s.newId.2.cluster j = s.cluster j := rfl
@[simp] theorem State.spend_die (s : State) (j : Nat) : s.spend.die j = s.die j := rfl
@[simp] theorem State.newId_die (s : State) (j : Nat) : s.newId.2.die j = s.die j := rfl
@[simp] theorem State.spend_hub (s : State) (j : Nat) : s.spend.hub j = s.hub j := rfl
@[simp] theorem State.newId_hub (s : State) (j : Nat) : s.newId.2.hub j = s.hub j := rfl
@[simp] theorem State.spend_freeCtr (s : State) : s.spend.freeCtr = s.freeCtr + 1 := rfl
@[simp] theorem State.newId_nextId (s : State) : s.newId.2.nextId = s.nextId + 1 := rfl
@[simp] theorem State.newId_fst (s : State) : s.newId.1 = s.nextId := rfl

end Sys2Proof.Machine
end

