-- ==== Sys2Proof/Laws/Issue.lean ====
section
/-! SUPPORT. What the shared operations of issue can do, once for all words. -/

namespace Sys2Proof.Machine

/-- A ready word whose WAIT is met goes, with the bank after its wait. -/
theorem Bank.gate_met {k : Bank} {cyc : Nat} {p : Point} {wait : BitVec 8} (h : k.waitMet cyc p wait = true) :
    k.gate cyc p wait true = .go (k.waited cyc p wait) := by
  simp only [Bank.waitMet, Bool.or_eq_true, beq_iff_eq, Bool.and_eq_true] at h
  unfold Bank.gate Bank.waited
  by_cases h0 : sigMode wait = 0
  · simp [h0]
  · obtain h | h := h
    · exact absurd h h0
    · simp only [Bool.not_eq_true'] at h
      simp [h0, h.1.1, h.1.2, h.2]

/-- A ready word whose WAIT is not met stays, and only its waiter is noted: nothing more when the condition was found unmet earlier in
the cycle, the cycle when it is found unmet now, and no cycle when a word ranked before it goes first. -/
theorem Bank.gate_unmet {k : Bank} {cyc : Nat} {p : Point} {wait : BitVec 8} (h : k.waitMet cyc p wait = false) :
    k.gate cyc p wait true = .stay (k.waitsOn cyc p wait) := by
  simp only [Bank.waitMet, Bool.or_eq_false_iff, beq_eq_false_iff_ne] at h
  unfold Bank.gate Bank.waitsOn
  simp only [Bool.not_true, Bool.false_eq_true, if_false, h.1]
  by_cases hj : k.judgedAt cyc p = true
  · simp [hj]
  · by_cases ho : k.overtakes cyc p (sigFlag wait) (k.rankAt cyc p (sigFlag wait)) = true
    · simp [hj, ho]
    · have := h.2
      simp only [Bool.not_eq_true] at hj ho
      simp [hj, ho] at this
      simp [hj, ho, this]

/-- An S word that issues and does not trap runs its body. -/
theorem State.issueTrap_go {s : State} {m : Marks} (h : s.sIssues m = true) (onTrap body : State → State) :
    s.issueTrap m true none onTrap body = .next (body (s.sIssued m)) := by
  simp only [State.sIssues] at h
  unfold State.issueTrap State.sIssued Bank.sIssued
  by_cases hs : (s.bank s.focus.bank).skipWait = true
  · simp [hs]
  · have hw : (s.bank s.focus.bank).waitMet s.cycle .s m.wait = true := by simpa [hs] using h
    simp [hs, Bank.gate_met hw]

/-- An S word that issues and traps makes no consume and no increment (R23). -/
theorem State.issueTrap_trap {s : State} {m : Marks} (h : s.sIssues m = true) (t : Trap) (onTrap body : State → State) :
    s.issueTrap m true (some t) onTrap body = .next ((onTrap s).trapS s.focus.bank t) := by
  simp only [State.sIssues] at h
  unfold State.issueTrap
  by_cases hs : (s.bank s.focus.bank).skipWait = true
  · simp [hs]
  · have hw : (s.bank s.focus.bank).waitMet s.cycle .s m.wait = true := by simpa [hs] using h
    simp [hs, Bank.gate_met hw]

theorem State.issueS_go {s : State} {m : Marks} (h : s.sIssues m = true) (body : State → State) :
    s.issueS m true none body = .next (body (s.sIssued m)) := State.issueTrap_go h _ body

theorem State.issueS_trap {s : State} {m : Marks} (h : s.sIssues m = true) (t : Trap) (body : State → State) :
    s.issueS m true (some t) body = .next (s.trapS s.focus.bank t) := State.issueTrap_trap h t _ body

/-- An S word whose WAIT is not met only notes that it waits. -/
theorem State.issueS_wait {s : State} {m : Marks} (h : s.sIssues m = false) (trap : Option Trap) (body : State → State) :
    s.issueS m true trap body = .next (s.setBank s.focus.bank ((s.bank s.focus.bank).waitsOn s.cycle .s m.wait)) := by
  simp only [State.sIssues, Bool.or_eq_false_iff] at h
  unfold State.issueS State.issueTrap
  simp [h.1, Bank.gate_unmet h.2]

/-- A ready V, C or M word with no fault that issues runs its body on the bank as it stood. -/
theorem State.issueE_go {s : State} {m : Marks} {srcs : List (Nat × Bool)} {dsts : List Nat} (h : s.eIssues m srcs dsts = true)
    (body : Bank → List (Nat × Nat) → State → State) :
    s.issueE m true srcs dsts none body =
      .next (body (s.bank s.focus.bank) (s.slotIds dsts) (s.eIssued m srcs dsts)) := by
  simp only [State.eIssues, Bool.and_eq_true, beq_iff_eq] at h
  have hq : (QRes.ok != QRes.stall) = true := rfl
  unfold State.issueE State.eIssued Bank.eIssued
  simp [h.2, hq, Bank.gate_met h.1]

/-- A ready V, C or M word whose checks fail faults, with no consume and no increment (R23). -/
theorem State.issueE_fault {s : State} {m : Marks} {srcs : List (Nat × Bool)} {dsts : List Nat}
    (h : (s.bank s.focus.bank).waitMet s.cycle s.focus.point m.wait = true)
    (hq : (s.bank s.focus.bank).queueRes s.cycle s.focus.point srcs dsts ≠ .stall) (c : Nat) (v : W64)
    (body : Bank → List (Nat × Nat) → State → State) :
    s.issueE m true srcs dsts (some (c, v)) body = .next (s.faultE s.focus.bank s.focus.point c v s.focus.pos) := by
  have hr : (true && ((s.bank s.focus.bank).queueRes s.cycle s.focus.point srcs dsts != .stall)) = true := by
    simpa [bne_iff_ne] using hq
  unfold State.issueE
  simp only [hr, Bank.gate_met h]

theorem State.plainE_go {s : State} {m : Marks} (h : s.eIssues m [] [] = true) (f : State → State) :
    s.plainE m true none f = .next ((f (s.eIssued m [] [])).doneE m) := State.issueE_go h _

/-- An execute-side V word that issues starts its operation, and holds its issue point for its occupancy. -/
theorem State.issueV_go {s : State} {m : Marks} {srcs : List (Nat × Bool)} {dsts masks : List Nat} {lat occ : Nat}
    (h : s.eIssues m srcs dsts = true) (hm : masks.all (fun i => !(s.bank s.focus.bank).maskBusy i) = true)
    (effs : Bank → List (Nat × Nat) → List Eff) :
    s.issueV m srcs dsts masks lat occ effs =
      .next (((s.eIssued m srcs dsts).startOp m lat .none (effs (s.bank s.focus.bank) (s.slotIds dsts))).occupy occ) := by
  unfold State.issueV
  rw [hm, State.issueE_go h]

end Sys2Proof.Machine
end

