-- ==== Sys2Proof/Laws/Mem.lean ====
section
/-! SUPPORT. Memory: every operation keeps the canonical form, a byte reads as last written, and a write leaves every byte outside
it alone. -/

namespace Sys2Proof.Machine

/-! The canonical form of the cells, as a statement about lower bounds. -/

/-- Every address is at least lo, rising, and no entry reads as blank. -/
def Mem.CellsFrom : Nat → List Host.Cell → Prop
  | _, [] => True
  | lo, (a, v) :: t => lo ≤ a ∧ v ≠ Mem.blank ∧ Mem.CellsFrom (a + 1) t

theorem Mem.CellsFrom.mono {lo hi : Nat} (h : lo ≤ hi) : ∀ {l : List Host.Cell}, Mem.CellsFrom hi l → Mem.CellsFrom lo l
  | [], _ => trivial
  | (_, _) :: _, ⟨h1, h2, h3⟩ => ⟨Nat.le_trans h h1, h2, h3⟩

theorem Mem.cellsWf_iff : ∀ (l : List Host.Cell), Mem.cellsWf l = true ↔ Mem.CellsFrom 0 l
  | [] => by simp [Mem.cellsWf, Mem.CellsFrom]
  | [(a, v)] => by simp [Mem.cellsWf, Mem.CellsFrom]
  | (a, v) :: (b, w) :: t => by
    have ih := Mem.cellsWf_iff ((b, w) :: t)
    simp only [Mem.cellsWf, Bool.and_eq_true, bne_iff_ne, ne_eq, decide_eq_true_eq, ih, Mem.CellsFrom, Nat.zero_le, true_and]
    constructor
    · rintro ⟨⟨h1, h2⟩, h3, h4⟩; exact ⟨h1, h2, h3, h4⟩
    · rintro ⟨h1, h2, h3, h4⟩; exact ⟨⟨h1, h2⟩, h3, h4⟩

theorem Mem.CellsFrom.put {x : Nat} {w : Byte} : ∀ {lo : Nat} {l : List Host.Cell}, lo ≤ x → Mem.CellsFrom lo l →
    Mem.CellsFrom lo (Mem.putCell l x w)
  | lo, [], hx, _ => by
    simp only [Mem.putCell]; split
    · trivial
    · exact ⟨hx, ‹_›, trivial⟩
  | lo, (a, v) :: t, hx, ⟨h1, h2, h3⟩ => by
    simp only [Mem.putCell]
    split
    · split
      · exact ⟨h1, h2, h3⟩
      · exact ⟨hx, ‹_›, ‹x < a›, h2, h3⟩
    · split
      · subst_vars
        split
        · exact h3.mono (by omega)
        · exact ⟨h1, ‹_›, h3⟩
      · exact ⟨h1, h2, Mem.CellsFrom.put (by omega) h3⟩

/-! Bytes. -/

theorem Mem.byteOf_of_lt : ∀ {l : List Host.Cell} {lo a : Nat}, Mem.CellsFrom lo l → a < lo → Mem.byteOf l a = Mem.blank
  | [], _, _, _, _ => rfl
  | (b, v) :: t, lo, a, ⟨h1, _, h3⟩, h => by
    simp only [Mem.byteOf]
    rw [if_neg (by omega)]
    exact Mem.byteOf_of_lt h3 (by omega)

theorem Mem.byteOf_put_same {x : Nat} {w : Byte} : ∀ {l : List Host.Cell} {lo : Nat}, Mem.CellsFrom lo l →
    Mem.byteOf (Mem.putCell l x w) x = w
  | [], _, _ => by
    simp only [Mem.putCell]; split
    · simp [Mem.byteOf, *]
    · simp [Mem.byteOf]
  | (a, v) :: t, lo, ⟨h1, h2, h3⟩ => by
    simp only [Mem.putCell]
    split
    · split
      · subst_vars
        exact Mem.byteOf_of_lt (lo := a) ⟨Nat.le_refl a, h2, h3⟩ ‹x < a›
      · simp [Mem.byteOf]
    · split
      · subst_vars
        split
        · subst_vars; exact Mem.byteOf_of_lt h3 (Nat.lt_succ_self a)
        · simp [Mem.byteOf]
      · simp only [Mem.byteOf]
        rw [if_neg (fun h => ‹¬x = a› h.symm)]
        exact Mem.byteOf_put_same h3

theorem Mem.byteOf_put_ne {x y : Nat} {w : Byte} (h : y ≠ x) : ∀ (l : List Host.Cell),
    Mem.byteOf (Mem.putCell l x w) y = Mem.byteOf l y
  | [] => by
    simp only [Mem.putCell]; split
    · rfl
    · simp [Mem.byteOf, h.symm]
  | (a, v) :: t => by
    simp only [Mem.putCell]
    split
    · split
      · rfl
      · simp [Mem.byteOf, h.symm]
    · split
      · subst_vars
        split <;> simp [Mem.byteOf, h.symm]
      · simp only [Mem.byteOf, Mem.byteOf_put_ne h t]

theorem Mem.wf_iff (m : Mem) : m.wf = true ↔ Mem.CellsFrom 0 m.cells ∧ m.marks.Pairwise (· < ·) := by
  simp [Mem.wf, Mem.cellsWf_iff]

theorem Mem.empty_wf : Mem.empty.wf = true := by decide

/-! Every operation keeps the form. -/

theorem Mem.put_wf {m : Mem} (h : m.wf = true) (a : Nat) (v : Byte) : (m.put a v).wf = true := by
  rw [Mem.wf_iff] at *
  exact ⟨h.1.put (Nat.zero_le _), h.2⟩

theorem mem_insertNat {l : List Nat} {x y : Nat} : y ∈ insertNat l x ↔ y = x ∨ y ∈ l := by
  induction l with
  | nil => simp [insertNat]
  | cons a t ih =>
    simp only [insertNat]
    split
    · simp
    · split
      · subst_vars; simp
      · simp only [List.mem_cons, ih, or_left_comm]

theorem insertNat_pairwise {l : List Nat} (h : l.Pairwise (· < ·)) (x : Nat) : (insertNat l x).Pairwise (· < ·) := by
  induction l with
  | nil => simp [insertNat]
  | cons a t ih =>
    rw [List.pairwise_cons] at h
    simp only [insertNat]
    split
    · refine List.pairwise_cons.2 ⟨fun y hy => ?_, List.pairwise_cons.2 h⟩
      rcases List.mem_cons.1 hy with rfl | hy
      · assumption
      · exact Nat.lt_trans ‹x < a› (h.1 y hy)
    · split
      · exact List.pairwise_cons.2 h
      · refine List.pairwise_cons.2 ⟨fun y hy => ?_, ih h.2⟩
        rcases mem_insertNat.1 hy with rfl | hy
        · omega
        · exact h.1 y hy

theorem Mem.blur_wf {m : Mem} (h : m.wf = true) (lo n : Nat) (f : Nat → Byte) : (m.blur lo n f).wf = true := by
  unfold Mem.blur
  generalize m.cells.filter _ = l
  induction l generalizing m with
  | nil => exact h
  | cons c t ih => exact ih (Mem.put_wf h ..)

theorem Mem.mark_wf {m : Mem} (h : m.wf = true) (w : Nat) : (m.mark w).wf = true := by
  rw [Mem.wf_iff] at *
  exact ⟨h.1, insertNat_pairwise h.2 w⟩

theorem Mem.unmark_wf {m : Mem} (h : m.wf = true) (w : Nat) : (m.unmark w).wf = true := by
  rw [Mem.wf_iff] at *
  exact ⟨h.1, h.2.filter _⟩

theorem Mem.putBytes_wf {m : Mem} (h : m.wf = true) (a data mask k : Nat) : (m.putBytes a data mask k).wf = true := by
  induction k with
  | zero => exact h
  | succ k ih =>
    simp only [Mem.putBytes]
    split
    · exact Mem.put_wf ih ..
    · exact ih

theorem Mem.putWord_wf {m : Mem} (h : m.wf = true) (w data mask : Nat) (bad : Bool) : (m.putWord w data mask bad).wf = true := by
  simp only [Mem.putWord]
  have h8 := Mem.putBytes_wf h (w * 8) data mask 8
  split
  · exact h8
  · split
    · exact Mem.mark_wf h8 w
    · split
      · exact Mem.unmark_wf h8 w
      · exact h8

theorem Mem.merge_wf {m : Mem} (h : m.wf = true) (w data mask marks k : Nat) : (m.merge w data mask marks k).wf = true := by
  induction k with
  | zero => exact h
  | succ k ih => exact Mem.putWord_wf ih ..

theorem Mem.write_wf {m : Mem} (h : m.wf = true) (a n data : Nat) (bad : Bool) : (m.write a n data bad).wf = true :=
  Mem.merge_wf h ..

/-! Reading one byte after an operation. -/

theorem Mem.byte_put_same {m : Mem} (h : m.wf = true) (a : Nat) (v : Byte) : (m.put a v).byte a = v :=
  Mem.byteOf_put_same ((Mem.wf_iff m).1 h).1

theorem Mem.byte_put_ne (m : Mem) (a x : Nat) (v : Byte) (h : x ≠ a) : (m.put a v).byte x = m.byte x :=
  Mem.byteOf_put_ne h m.cells

@[simp] theorem Mem.byte_mark (m : Mem) (w x : Nat) : (m.mark w).byte x = m.byte x := rfl
@[simp] theorem Mem.byte_unmark (m : Mem) (w x : Nat) : (m.unmark w).byte x = m.byte x := rfl

theorem Mem.byte_putBytes {m : Mem} (h : m.wf = true) (a data mask k x : Nat) :
    (m.putBytes a data mask k).byte x =
      if a ≤ x ∧ x < a + k ∧ mask.testBit (x - a) then BitVec.ofNat 8 (data >>> (8 * (x - a))) else m.byte x := by
  induction k with
  | zero => rw [if_neg (by omega)]; rfl
  | succ k ih =>
    simp only [Mem.putBytes]
    have hw := Mem.putBytes_wf h a data mask k
    by_cases hx : x = a + k
    · subst hx
      have hk : a + k - a = k := by omega
      split
      · rw [Mem.byte_put_same hw, hk, if_pos ⟨by omega, by omega, by assumption⟩]
      · rw [ih, if_neg (by omega), hk, if_neg (fun hc => absurd hc.2.2 (by assumption))]
    · have hr : (if mask.testBit k then (m.putBytes a data mask k).put (a + k) (BitVec.ofNat 8 (data >>> (8 * k)))
          else m.putBytes a data mask k).byte x = (m.putBytes a data mask k).byte x := by
        split
        · exact Mem.byte_put_ne _ _ _ _ hx
        · rfl
      rw [hr, ih]
      congr 1
      simp only [eq_iff_iff]
      constructor <;> rintro ⟨h1, h2, h3⟩ <;> exact ⟨h1, by omega, h3⟩

theorem Mem.byte_putWord {m : Mem} (h : m.wf = true) (w data mask : Nat) (bad : Bool) (x : Nat) :
    (m.putWord w data mask bad).byte x =
      if w * 8 ≤ x ∧ x < w * 8 + 8 ∧ mask.testBit (x - w * 8) then BitVec.ofNat 8 (data >>> (8 * (x - w * 8))) else m.byte x := by
  rw [← Mem.byte_putBytes h]
  simp only [Mem.putWord]
  split
  · rfl
  · split
    · rfl
    · split <;> rfl

theorem Mem.byte_merge {m : Mem} (h : m.wf = true) (w data mask marks k x : Nat) :
    (m.merge w data mask marks k).byte x =
      if w * 8 ≤ x ∧ x < (w + k) * 8 ∧ mask.testBit (x - w * 8) then BitVec.ofNat 8 (data >>> (8 * (x - w * 8))) else m.byte x := by
  induction k with
  | zero => rw [if_neg (by omega)]; rfl
  | succ k ih =>
    simp only [Mem.merge]
    rw [Mem.byte_putWord (Mem.merge_wf h ..), ih]
    by_cases hx : (w + k) * 8 ≤ x ∧ x < (w + k) * 8 + 8
    · have hb : ((mask >>> (8 * k)) % 256).testBit (x - (w + k) * 8) = mask.testBit (x - w * 8) := by
        have h8 : (256 : Nat) = 2 ^ 8 := rfl
        rw [h8, Nat.testBit_mod_two_pow, Nat.testBit_shiftRight]
        have : x - (w + k) * 8 < 8 := by omega
        have e : 8 * k + (x - (w + k) * 8) = x - w * 8 := by omega
        simp [this, e]
      have hd : (data >>> (64 * k)) >>> (8 * (x - (w + k) * 8)) = data >>> (8 * (x - w * 8)) := by
        rw [← Nat.shiftRight_add]; congr 1; omega
      rw [hb, hd]
      by_cases ht : mask.testBit (x - w * 8) = true
      · rw [if_pos ⟨hx.1, hx.2, ht⟩, if_pos ⟨by omega, by omega, ht⟩]
      · rw [if_neg (fun hc => ht hc.2.2), if_neg (fun hc => ht hc.2.2), if_neg (fun hc => ht hc.2.2)]
    · rw [if_neg (fun hc => hx ⟨hc.1, hc.2.1⟩)]
      congr 1
      simp only [eq_iff_iff]
      constructor <;> rintro ⟨h1, h2, h3⟩ <;> exact ⟨h1, by omega, h3⟩

/-- A write of n bytes: inside it, its own bytes; outside it, what was there. -/
theorem Mem.byte_write {m : Mem} (h : m.wf = true) (a n data : Nat) (bad : Bool) (x : Nat) :
    (m.write a n data bad).byte x =
      if a ≤ x ∧ x < a + n then BitVec.ofNat 8 (data >>> (8 * (x - a))) else m.byte x := by
  simp only [Mem.write]
  rw [Mem.byte_merge h]
  have hb : (ones n <<< (a % 8)).testBit (x - a / 8 * 8) = decide (a % 8 ≤ x - a / 8 * 8 ∧ x - a / 8 * 8 < a % 8 + n) := by
    rw [Nat.testBit_shiftLeft, ones, Nat.testBit_two_pow_sub_one]
    by_cases h1 : a % 8 ≤ x - a / 8 * 8
    · have e : (x - a / 8 * 8 - a % 8 < n) ↔ (x - a / 8 * 8 < a % 8 + n) := by omega
      simp [h1, e]
    · simp [h1]
  rw [hb]
  by_cases hx : a ≤ x ∧ x < a + n
  · rw [if_pos ⟨by omega, by omega, by simp; omega⟩, if_pos hx]
    have e : data <<< (8 * (a % 8)) >>> (8 * (x - a / 8 * 8)) = data >>> (8 * (x - a)) := by
      have e1 : 8 * (x - a / 8 * 8) = 8 * (a % 8) + 8 * (x - a) := by omega
      rw [e1, Nat.shiftRight_add, Nat.shiftLeft_shiftRight]
    rw [e]
  · rw [if_neg (by simp; omega), if_neg hx]

end Sys2Proof.Machine
end

