-- ==== Sys2Proof/Tests/Slice0.lean ====
section
/-! SUPPORT. Tests: words written out from the encoding tables of 03_encoding.md and the instruction chapters, an ill-formed term for
each check of WellFormed, a witness for the hypotheses of each statement (a statement made of parts has one witness for each
part, named after the part), and single steps whose results are the manual's examples or worked out by hand. -/

namespace Sys2Proof.Tests

set_option Elab.async false

open Sys2Proof Sys2Proof.Machine

/-- What a word of a space decodes to, if anything. -/
def reads (sp : Space) (w : W64) : Option Instr :=
  match decode sp w with
  | .ok i => some i
  | .error _ => none

/-- Words of the S space, written from R73 to R77 or taken from the manual's examples. -/
theorem test_decode_s_a : [
  0x4345000000000000, 0x0000010FC8400000, 0x000002203B000000, 0x00000334ADC00000, 0x0000044910800000,
  0x0000055D83400000, 0x00000671F6000000, 0x0000078668C00000, 0x0000089ADB800000, 0x000009AF4E400000,
  0x00000AC3B1000000, 0x00000BD423C00000, 0x00000CE896800000, 0x00000DFD09400000, 0x00000E117C000000,
  0x00000F25EEC00000, 0x0000103A51800000, 0x0000114EC4400000, 0x0000126337000000, 0x00001377A9C00000,
  0x000014881C800000, 0x0000159C8F400000].map (reads .s) = [
  some (.nop ⟨0x43, 0x45⟩),
  some (.add ⟨0, 0⟩ 3 60 33),
  some (.sub ⟨0, 0⟩ 8 3 44),
  some (.mul ⟨0, 0⟩ 13 10 55),
  some (.mulh ⟨0, 0⟩ 18 17 2),
  some (.mulhn ⟨0, 0⟩ 23 24 13),
  some (.div ⟨0, 0⟩ 28 31 24),
  some (.divn ⟨0, 0⟩ 33 38 35),
  some (.rem ⟨0, 0⟩ 38 45 46),
  some (.remn ⟨0, 0⟩ 43 52 57),
  some (.and ⟨0, 0⟩ 48 59 4),
  some (.or ⟨0, 0⟩ 53 2 15),
  some (.xor ⟨0, 0⟩ 58 9 26),
  some (.andn ⟨0, 0⟩ 63 16 37),
  some (.shl ⟨0, 0⟩ 4 23 48),
  some (.shr ⟨0, 0⟩ 9 30 59),
  some (.sha ⟨0, 0⟩ 14 37 6),
  some (.rotl ⟨0, 0⟩ 19 44 17),
  some (.min ⟨0, 0⟩ 24 51 28),
  some (.max ⟨0, 0⟩ 29 58 39),
  some (.minn ⟨0, 0⟩ 34 1 50),
  some (.maxn ⟨0, 0⟩ 39 8 61)] := by rfl

/-- Words of the S space, written from R73 to R77 or taken from the manual's examples. -/
theorem test_decode_s_b : [
  0x00001687E0000000, 0x0000178BD0000000, 0x0000188FC0000000, 0x000019068FC00000, 0x00001A0A9F800000,
  0x00001B0EAF400000, 0x00001C12BF000000, 0x00001D16CEC00000, 0x00001E1ADE800000, 0x00001F25293F0000,
  0x4547201040000001, 0x000021FC1FFFFFFF, 0x0000228028000001, 0x00002355B0000001, 0x000024172000003F,
  0x000025172000003E, 0x000026172000003D, 0x0000276DA0000004, 0x0000286DA0000005, 0x00002920089ABCDE,
  0x00002A2081234567, 0x00002B0420000003].map (reads .s) = [
  some (.clz ⟨0, 0⟩ 33 62),
  some (.ctz ⟨0, 0⟩ 34 61),
  some (.popc ⟨0, 0⟩ 35 60),
  some (.seq ⟨0, 0⟩ 1 40 63),
  some (.sne ⟨0, 0⟩ 2 41 62),
  some (.slt ⟨0, 0⟩ 3 42 61),
  some (.sltn ⟨0, 0⟩ 4 43 60),
  some (.sle ⟨0, 0⟩ 5 44 59),
  some (.slen ⟨0, 0⟩ 6 45 58),
  some (.sel ⟨0, 0⟩ 9 18 36 63),
  some (.addi ⟨0x45, 0x47⟩ 4 4 1),
  some (.andi ⟨0, 0⟩ 63 1 0xFFFFFFF),
  some (.ori ⟨0, 0⟩ 32 2 0x8000001),
  some (.xori ⟨0, 0⟩ 21 27 1),
  some (.shli ⟨0, 0⟩ 5 50 63),
  some (.shri ⟨0, 0⟩ 5 50 62),
  some (.shai ⟨0, 0⟩ 5 50 61),
  some (.slti ⟨0, 0⟩ 27 26 4),
  some (.sltni ⟨0, 0⟩ 27 26 5),
  some (.li ⟨0, 0⟩ 8 0x89ABCDE),
  some (.lih ⟨0, 0⟩ 8 8 0x1234567),
  some (.muli ⟨0, 0⟩ 1 2 3)] := by rfl

/-- Words of the S space, written from R73 to R77 or taken from the manual's examples. -/
theorem test_decode_s_c : [
  0x00002C1C600017E0, 0x00002D1C6000003F, 0x0045301015400010, 0x000031A29F9FFFFF, 0x4700321010400010,
  0x0000330070000000, 0x0000340540000040, 0x0000352CA500F042, 0x0000360420C470BB, 0x0000370000000000,
  0x0000370000000100, 0x0000380000000080, 0x0000390000000020, 0x00003A0000000080, 0x00003B0000000000,
  0x00003C0021C00000, 0x00003D0021C00000, 0x00003D0032000100, 0x00003E0092800000, 0x00004029E3FFFFFB,
  0x0000412C07FFFFFA, 0x000042320BFFFFF9].map (reads .s) = [
  some (.extr ⟨0, 0⟩ 7 6 32 31 true),
  some (.insr ⟨0, 0⟩ 7 6 63 0),
  some (.ld ⟨0, 0x45⟩ ⟨4, 1, 5, false, 2, 0x10⟩),
  some (.lds ⟨0, 0⟩ ⟨40, 41, 15, true, 0, 0x1FFFFF⟩),
  some (.st ⟨0x47, 0⟩ 4 1 2 0x10),
  some (.chk ⟨0, 0⟩ 7),
  some (.pref ⟨0, 0⟩ 1 20 0x40),
  some (.amo ⟨0, 0⟩ 11 10 20 15 0 2 0 2),
  some (.cas ⟨0, 0⟩ 1 2 3 4 7 5 3 3),
  some (.fence ⟨0, 0⟩),
  some (.fenceJob ⟨0, 0⟩),
  some (.phase ⟨0, 0⟩ 4),
  some (.pub ⟨0, 0⟩ 1),
  some (.acq ⟨0, 0⟩ 4),
  some (.ifence ⟨0, 0⟩),
  some (.cwb ⟨0, 0⟩ 2 7),
  some (.cinv ⟨0, 0⟩ 2 7),
  some (.cinvDiscard ⟨0, 0⟩ 3 8),
  some (.iinv ⟨0, 0⟩ 9 10),
  some (.beq ⟨0, 0⟩ 10 30 false false 0x3fffffb),
  some (.bne ⟨0, 0⟩ 11 0 false true 0x3fffffa),
  some (.blt ⟨0, 0⟩ 12 32 true false 0x3fffff9)] := by rfl

/-- Words of the S space, written from R73 to R77 or taken from the manual's examples. -/
theorem test_decode_s_d : [
  0x000043340FFFFFF8, 0x0000443A23FFFFF7, 0x0000453C07FFFFF6, 0x0000461C08000005, 0x0000471803FFFFFF,
  0x00004803FFFFFFFF, 0x000049FC00000064, 0x00004A01F0000000, 0x00004B05F0000000, 0x00004C0050008004,
  0x00004D0C40000009, 0x00004E0831020000, 0x0044500870000000, 0x0000515945400000, 0x0000520010000000,
  0x0000530830000000, 0x00005411F1410000, 0x0000550C90000000, 0x0000560000000000, 0x00005700C0000000,
  0x00005834E0000000, 0x0000593C00000000].map (reads .s) = [
  some (.bge ⟨0, 0⟩ 13 0 true true 0x3fffff8),
  some (.bltn ⟨0, 0⟩ 14 34 false false 0x3fffff7),
  some (.bgen ⟨0, 0⟩ 15 0 false true 0x3fffff6),
  some (.bps ⟨0, 0⟩ 7 true 5),
  some (.bpc ⟨0, 0⟩ 6 false 0x3FFFFFF),
  some (.j ⟨0, 0⟩ 0x3FFFFFFFF),
  some (.jl ⟨0, 0⟩ 63 100),
  some (.jr ⟨0, 0⟩ 31),
  some (.jlr ⟨0, 0⟩ 1 31),
  some (.loop ⟨0, 0⟩ 5 2 4),
  some (.lbrk ⟨0, 0⟩ 3 4 false 9),
  some (.setp ⟨0, 0⟩ 2 3 4 2),
  some (.push ⟨0, 0x44⟩ .c 7),
  some (.waitf ⟨0, 0⟩ 22 20 21 false),
  some (.sigf ⟨0, 0⟩ 1),
  some (.rdf ⟨0, 0⟩ 2 3),
  some (.rdq ⟨0, 0⟩ 4 31 5 true),
  some (.start ⟨0, 0⟩ .m 9),
  some (.rendez ⟨0, 0⟩),
  some (.endJob ⟨0, 0⟩ 12),
  some (.launch ⟨0, 0⟩ 13 14),
  some (.yield ⟨0, 0⟩ 15)] := by rfl

/-- Words of the S space, written from R73 to R77 or taken from the manual's examples. -/
theorem test_decode_s_e : [
  0x00005A0050000000, 0x00005B2400000000, 0x000060000000002A, 0x0000610000000000, 0x000062440000006F,
  0x0000630120000005, 0x000064013000000A, 0x0000650140000060, 0x0000660150000001, 0x000067000000003F,
  0x00007028B0000000, 0x0000711400000000, 0x0000711870010000, 0x0000720C00000000, 0x0000730020C00000,
  0x0000740041460000, 0x0000750050000000, 0x0000760090000000, 0x0000770090000000].map (reads .s) = [
  some (.mbox ⟨0, 0⟩ 5),
  some (.mbrd ⟨0, 0⟩ 9 0),
  some (.trap ⟨0, 0⟩ 0x2A),
  some (.tret ⟨0, 0⟩),
  some (.getc ⟨0, 0⟩ 17 0x06F),
  some (.setc ⟨0, 0⟩ 18 0x005),
  some (.setb ⟨0, 0⟩ 19 0x00A),
  some (.clrb ⟨0, 0⟩ 20 0x060),
  some (.evt ⟨0, 0⟩ 21 1),
  some (.park ⟨0, 0⟩ 63),
  some (.fpost ⟨0, 0⟩ 10 11),
  some (.ftime ⟨0, 0⟩ 5),
  some (.ftimeUntil ⟨0, 0⟩ 6 7),
  some (.fthr ⟨0, 0⟩ 3),
  some (.rgrp ⟨0, 0⟩ 2 3),
  some (.rshrd ⟨0, 0⟩ 4 5 6),
  some (.laysel ⟨0, 0⟩ 5),
  some (.rasave ⟨0, 0⟩ 9),
  some (.raload ⟨0, 0⟩ 9)] := by rfl

/-- Words of the V space, written from R78, R79 and R206 or taken from the manual's examples. -/
theorem test_decode_v_a : [
  0x48C9000000000000, 0x8284011844029900, 0x000002088641F480, 0x000003FFBA014F00, 0x0000040886402000,
  0x000005298E818000, 0x0000064A96C21000, 0x0000070886000000, 0x000008088600C200, 0x0000090880008000,
  0x00000A1900020000, 0x00000B1882000007, 0x00000C08860B0100, 0x0000100240020400, 0x0000110A80000001,
  0x00001212C0020402, 0x0000131B00000000, 0x0000142340020401, 0x0000152B80000002, 0x00001633C0020400,
  0x0000173C00000001, 0x0000184440020402, 0x0000200880000012, 0x0000210886030006, 0x0000220886000033].map (reads .v) = [
  some (.vnop ⟨0x48, 0xC9⟩),
  some (.vadd ⟨0x82, 0x84⟩ ⟨3, 1, 2, 0, .bf16, true, false, false, .rns, 1, 0⟩),
  some (.vsub ⟨0, 0⟩ ⟨1, 2, 3, 4, .fp16, true, true, true, .sr, 0, 128⟩),
  some (.vmul ⟨0, 0⟩ ⟨31, 30, 29, 0, .fp16, false, true, false, .rup, 3, 0⟩),
  some (.vfma ⟨0, 0⟩ ⟨1, 2, 3, 4, .fp32, false, false, true, .rne, 0, 0⟩),
  some (.vfms ⟨0, 0⟩ ⟨5, 6, 7, 8, .fp16, true, false, false, .rne, 0, 0⟩),
  some (.vfnma ⟨0, 0⟩ ⟨9, 10, 11, 12, .bf16, false, false, false, .rna, 0, 0⟩),
  some (.vmin ⟨0, 0⟩ ⟨1, 2, 3, 0, .fp32, false, false, false, .rne, 0, 0⟩),
  some (.vmax ⟨0, 0⟩ ⟨1, 2, 3, 0, .fp32, true, true, false, .rne, 2, 0⟩),
  some (.vabs ⟨0, 0⟩ ⟨1, 2, 0, 0, .fp32, true, false, false, .rne, 0, 0⟩),
  some (.vneg ⟨0, 0⟩ ⟨3, 4, 0, 0, .bf16, false, false, false, .rne, 0, 0⟩),
  some (.vcmp ⟨0, 0⟩ ⟨3, 2, 1, 0, .fp32, false, false, false, .rne, 0, 7⟩),
  some (.vsel ⟨0, 0⟩ ⟨1, 2, 3, 0, .i4, false, false, false, .rne, 1, 0⟩),
  some (.vexp2 ⟨0, 0⟩ ⟨0, 9, 0, 0, .bf16, false, false, false, .rtz, 0, 0⟩),
  some (.vlog2 ⟨0, 0⟩ ⟨1, 10, 0, 0, .fp32, false, false, false, .rne, 0, 1⟩),
  some (.vrcp ⟨0, 0⟩ ⟨2, 11, 0, 0, .bf16, false, false, false, .rtz, 0, 2⟩),
  some (.vrsq ⟨0, 0⟩ ⟨3, 12, 0, 0, .fp32, false, false, false, .rne, 0, 0⟩),
  some (.vsqrt ⟨0, 0⟩ ⟨4, 13, 0, 0, .bf16, false, false, false, .rtz, 0, 1⟩),
  some (.vsin ⟨0, 0⟩ ⟨5, 14, 0, 0, .fp32, false, false, false, .rne, 0, 2⟩),
  some (.vcos ⟨0, 0⟩ ⟨6, 15, 0, 0, .bf16, false, false, false, .rtz, 0, 0⟩),
  some (.vtanh ⟨0, 0⟩ ⟨7, 16, 0, 0, .fp32, false, false, false, .rne, 0, 1⟩),
  some (.vsigm ⟨0, 0⟩ ⟨8, 17, 0, 0, .bf16, false, false, false, .rtz, 0, 2⟩),
  some (.vcvt ⟨0, 0⟩ ⟨1, 2, 0, 0, .fp32, false, false, false, .rne, 0, 18⟩),
  some (.vqmx ⟨0, 0⟩ ⟨1, 2, 3, 0, .e4m3, false, false, false, .rne, 0, 6⟩),
  some (.vdqmx ⟨0, 0⟩ ⟨1, 2, 3, 0, .fp32, false, false, false, .rne, 0, 51⟩)] := by rfl

/-- Words of the V space, written from R78, R79 and R206 or taken from the manual's examples. -/
theorem test_decode_v_b : [
  0x0000230886090001, 0x0000240880000080, 0x00002508800C0002, 0x00002608800B0001, 0x000030318E074000,
  0x0000310886090001, 0x0000320886080002, 0x0000330886460001, 0x00003408860C0000, 0x0000350886000000,
  0x00003608860A0000, 0x000037088006009F, 0x0000380886070000, 0x0000390886080000, 0x00003A0886080000,
  0x00003B08860A0000, 0x00003C1086090005, 0x00003D08000600FF, 0x00003E0880080000, 0x0000400880000800,
  0x0000410880060005, 0x0000420886412000, 0x00004308860B0081, 0x000044088000003F, 0x0000457002200000].map (reads .v) = [
  some (.vqgi ⟨0, 0⟩ ⟨1, 2, 3, 0, .i8, false, false, false, .rne, 0, 1⟩),
  some (.vscl ⟨0, 0⟩ ⟨1, 2, 0, 0, .fp32, false, false, false, .rne, 0, 128⟩),
  some (.vpack ⟨0, 0⟩ ⟨1, 2, 0, 0, .i3, false, false, false, .rne, 0, 2⟩),
  some (.vunpk ⟨0, 0⟩ ⟨1, 2, 0, 0, .i4, false, false, false, .rne, 0, 1⟩),
  some (.viadd ⟨0, 0⟩ ⟨6, 6, 7, 0, .n32, false, true, false, .rne, 0, 0⟩),
  some (.visub ⟨0, 0⟩ ⟨1, 2, 3, 0, .i8, false, false, false, .rne, 0, 1⟩),
  some (.vimul ⟨0, 0⟩ ⟨1, 2, 3, 0, .i16, false, false, false, .rne, 0, 2⟩),
  some (.vimad ⟨0, 0⟩ ⟨1, 2, 3, 4, .i32, false, false, false, .rne, 0, 1⟩),
  some (.vand ⟨0, 0⟩ ⟨1, 2, 3, 0, .i3, false, false, false, .rne, 0, 0⟩),
  some (.vor ⟨0, 0⟩ ⟨1, 2, 3, 0, .fp32, false, false, false, .rne, 0, 0⟩),
  some (.vxor ⟨0, 0⟩ ⟨1, 2, 3, 0, .n8, false, false, false, .rne, 0, 0⟩),
  some (.vshl ⟨0, 0⟩ ⟨1, 2, 0, 0, .i32, false, false, false, .rne, 0, 159⟩),
  some (.vshr ⟨0, 0⟩ ⟨1, 2, 3, 0, .n32, false, false, false, .rne, 0, 0⟩),
  some (.vsha ⟨0, 0⟩ ⟨1, 2, 3, 0, .i16, false, false, false, .rne, 0, 0⟩),
  some (.vimin ⟨0, 0⟩ ⟨1, 2, 3, 0, .i16, false, false, false, .rne, 0, 0⟩),
  some (.vimax ⟨0, 0⟩ ⟨1, 2, 3, 0, .n8, false, false, false, .rne, 0, 0⟩),
  some (.vicmp ⟨0, 0⟩ ⟨2, 2, 3, 0, .i8, false, false, false, .rne, 0, 5⟩),
  some (.viota ⟨0, 0⟩ ⟨1, 0, 0, 0, .i32, false, false, false, .rne, 0, 255⟩),
  some (.vpopc ⟨0, 0⟩ ⟨1, 2, 0, 0, .i16, false, false, false, .rne, 0, 0⟩),
  some (.vred ⟨0, 0⟩ ⟨1, 2, 0, 0, .fp32, false, false, false, .rdn, 0, 0⟩),
  some (.vscan ⟨0, 0⟩ ⟨1, 2, 0, 0, .i32, false, false, false, .rne, 0, 5⟩),
  some (.vperm ⟨0, 0⟩ ⟨1, 2, 3, 4, .fp16, false, false, true, .rne, 0, 0⟩),
  some (.vslide ⟨0, 0⟩ ⟨1, 2, 3, 0, .i4, false, false, false, .rne, 0, 129⟩),
  some (.vbcst ⟨0, 0⟩ ⟨1, 2, 0, 0, .fp32, false, false, false, .rne, 0, 63⟩),
  some (.vmovi ⟨0, 0⟩ 14 0x02200000)] := by rfl

/-- Words of the V space, written from R78, R79 and R206 or taken from the manual's examples. -/
theorem test_decode_v_c : [
  0x00004608800C0000, 0x0000470886000001, 0x0000480886020000, 0x0000490886090001, 0x0000502BB0100080,
  0x0046512800100600, 0x00005208B476FFFF, 0x0000532168C70007, 0x0000541000000001, 0x0000554800000000,
  0x0000600886400005, 0x0000614086900100, 0x0000610886000001, 0x0000610886000002, 0x000062088642007F,
  0x0000630086420109, 0x0000640880300000, 0x0000650880000200, 0x0000660BC0070000, 0x0000670886400001,
  0x0000702000000064, 0x0000710000000007, 0x0000720000000000].map (reads .v) = [
  some (.vmov ⟨0, 0⟩ ⟨1, 2, 0, 0, .i3, false, false, false, .rne, 0, 0⟩),
  some (.vzip ⟨0, 0⟩ ⟨1, 2, 3, 0, .fp32, false, false, false, .rne, 0, 1⟩),
  some (.vuzp ⟨0, 0⟩ ⟨1, 2, 3, 0, .bf16, false, false, false, .rne, 0, 0⟩),
  some (.vtrn ⟨0, 0⟩ ⟨1, 2, 3, 0, .i8, false, false, false, .rne, 0, 1⟩),
  some (.vld ⟨0, 0⟩ ⟨5, 14, true, true, false, false, 4, 0x80⟩),
  some (.vst ⟨0, 0x46⟩ ⟨5, 0, false, false, false, false, 4, 0x600⟩),
  some (.vgath ⟨0, 0⟩ ⟨1, 2, true, true, false, true, 3, true, .i32, 0xFFFF⟩),
  some (.vscat ⟨0, 0⟩ ⟨4, 5, true, false, true, false, 6, false, .n32, 7⟩),
  some (.vqcfg ⟨0, 0⟩ 2 1),
  some (.vdrop ⟨0, 0⟩ 9),
  some (.vrope ⟨0, 0⟩ ⟨1, 2, 3, 4, .fp32, false, false, false, .rne, 0, 5⟩),
  some (.vsmxStep ⟨0, 0⟩ ⟨8, 2, 3, 9, .fp32, false, false, false, .rne, 1, 0⟩),
  some (.vsmxNorm ⟨0, 0⟩ ⟨1, 2, 3, 0, .fp32, false, false, false, .rne, 0, 1⟩),
  some (.vsmxScale ⟨0, 0⟩ ⟨1, 2, 3, 0, .fp32, false, false, false, .rne, 0, 2⟩),
  some (.vdwc ⟨0, 0⟩ ⟨1, 2, 3, 4, .bf16, false, false, false, .rne, 0, 127⟩),
  some (.vkst ⟨0, 0⟩ ⟨0, 2, 3, 4, .bf16, false, false, false, .rne, 1, 9⟩),
  some (.vzcmp ⟨0, 0⟩ ⟨1, 2, 0, 3, .fp32, false, false, false, .rne, 0, 0⟩),
  some (.vzexp ⟨0, 0⟩ ⟨1, 2, 0, 0, .fp32, false, false, false, .rne, 2, 0⟩),
  some (.vmaskp ⟨0, 0⟩ ⟨1, 15, 0, 0, .n32, false, false, false, .rne, 0, 0⟩),
  some (.vwelf ⟨0, 0⟩ ⟨1, 2, 3, 4, .fp32, false, false, false, .rne, 0, 1⟩),
  some (.vloop ⟨0, 0⟩ 1 100),
  some (.vlbrk ⟨0, 0⟩ 7),
  some (.vend ⟨0, 0⟩)] := by rfl

/-- Words of the C space, written from R80, R233 and each command's rule or taken from the manual's examples. -/
theorem test_decode_c_a : [
  0xC385000000000000, 0x0042016000000046, 0x000001F000003FFF, 0x0000023001000040, 0x0000024004000000,
  0x0042033700000005, 0x000004900001BEEF, 0x0000052020000014, 0x00000630F8FFFFFF, 0x00000700F0000002,
  0x00000800300018FE, 0x000008003000093D, 0x0000097000000001, 0x00000A121800003F, 0x00000B4530000000,
  0x00000C800000001F, 0x00000D8000000002].map (reads .c) = [
  some (.cnop ⟨0xC3, 0x85⟩),
  some (.cmap ⟨0, 0x42⟩ 6 0x46),
  some (.cmapSt ⟨0, 0⟩ 15 0x1FFF),
  some (.cstep ⟨0, 0⟩ 3 1 64),
  some (.cstepOdo ⟨0, 0⟩ 4),
  some (.ccopy ⟨0, 0x42⟩ 3 7 true false true),
  some (.cfill ⟨0, 0⟩ 9 0xBEEF true),
  some (.cbind ⟨0, 0⟩ 2 4 20),
  some (.csink ⟨0, 0⟩ 3 31 0xFFFFFF),
  some (.cunb ⟨0, 0⟩ 30 false true),
  some (.cpeerTx ⟨0, 0⟩ 6 62 true 17),
  some (.cpeerRx ⟨0, 0⟩ 6 61 false 18),
  some (.czc ⟨0, 0⟩ 7 true),
  some (.cgath ⟨0, 0⟩ 1 2 3 63),
  some (.cscat ⟨0, 0⟩ 4 5 6 0),
  some (.cuse ⟨0, 0⟩ 8 15 true),
  some (.cpref ⟨0, 0⟩ 8 false true)] := by rfl

/-- Words of the C space, written from R80, R233 and each command's rule or taken from the manual's examples. -/
theorem test_decode_c_b : [
  0x0046100006000083, 0x0000100002800081, 0x000010504D000000, 0x0000113402000000, 0x0000126000000000,
  0x0000120006800000, 0x0000120043000000, 0x000013000000A100, 0x000013000007E000, 0x0045142008009CC3,
  0x0043186020000000, 0x000019702800001B, 0x0044202300000243, 0x0000214000208203, 0x000030000000002F,
  0x0000310000000005, 0x0000320000000000].map (reads .c) = [
  some (.cseqLd ⟨0, 0x46⟩ 3 0x83),
  some (.cseqSt ⟨0, 0⟩ 1 0x81),
  some (.cseqRope ⟨0, 0⟩ 5 9 2),
  some (.ckv ⟨0, 0⟩ 3 4 1),
  some (.ckrelPage ⟨0, 0⟩ 6),
  some (.ckrelWin ⟨0, 0⟩ 3),
  some (.ckrelTrunc ⟨0, 0⟩ 8 1),
  some (.ckcfgLd ⟨0, 0⟩ 5 0x100),
  some (.ckcfgClr ⟨0, 0⟩ 31),
  some (.ckgath ⟨0, 0x45⟩ 2 1 7 6 3 true),
  some (.cnbr ⟨0, 0x43⟩ 6 4 0 false .rne false),
  some (.cnbu ⟨0, 0⟩ 7 5 true true .rns),
  some (.chalo ⟨0, 0x44⟩ 2 3 3 9 0),
  some (.cmsg ⟨0, 0⟩ 4 515 2 false 1),
  some (.cloop ⟨0, 0⟩ 0 47),
  some (.clbrk ⟨0, 0⟩ 5),
  some (.cend ⟨0, 0⟩)] := by rfl

/-- Words of the M space, written from R81 and R283 or taken from the manual's examples. -/
theorem test_decode_m : [
  0x0044000000000000, 0x0000010000000000, 0x0000020000000000, 0x4500030000000000, 0x4544041100000000,
  0x00000425FC0000FF, 0x0000050104000000, 0x00000648141BFC00, 0x0000060E1D79FD40, 0x000007C00003FC00,
  0x000008940013FC00, 0x000008581E187F20, 0x414609080003FC00, 0x000010000100000C, 0x0000110000000009,
  0x0000120000000000].map (reads .m) = [
  some (.mnop ⟨0, 0x44⟩),
  some (.mlease ⟨0, 0⟩),
  some (.mrel ⟨0, 0⟩),
  some (.mfmt ⟨0x45, 0⟩ 0),
  some (.mbld ⟨0x45, 0x44⟩ 4 64 0),
  some (.mbld ⟨0, 0⟩ 9 127 255),
  some (.mbsel ⟨0, 0⟩ 65),
  some (.mma ⟨0, 0⟩ 1 2 false 5 0 3 255 0 false false),
  some (.mma ⟨0, 0⟩ 0 3 true 7 2 15 127 64 true false),
  some (.mzero ⟨0, 0⟩ 3 255 0),
  some (.mdrain ⟨0, 0⟩ 2 5 false 0 .rne .bf16 255 0 false false),
  some (.mdrain ⟨0, 0⟩ 1 6 false 7 .rna .e4m3 31 32 true true),
  some (.mscale ⟨0x41, 0x46⟩ 2 255),
  some (.mloop ⟨0, 0⟩ 1 12),
  some (.mlbrk ⟨0, 0⟩ 9),
  some (.mend ⟨0, 0⟩)] := by rfl


/-- An ill-formed S word for each check, refused. -/
theorem test_wf_s : ([
  -- R17: a flag named by a WAIT byte of mode 0b00
  .nop ⟨0x05, 0⟩,
  -- R17: a flag named by a SIGNAL byte of mode 0b00
  .nop ⟨0, 0x3F⟩,
  -- EXTR and INSR: pos + width above 64 (R101)
  .extr ⟨0, 0⟩ 1 2 60 4 false,
  .insr ⟨0, 0⟩ 1 2 1 63,
  -- PREF: hints above 1 (R103)
  .pref ⟨0, 0⟩ 2 1 0,
  -- AMO: operations above 9, .fadd of another size than 4 (R106), scopes 6 and 7 (R72)
  .amo ⟨0, 0⟩ 1 2 3 0 10 0 0 2,
  .amo ⟨0, 0⟩ 1 2 3 0 9 0 0 3,
  .amo ⟨0, 0⟩ 1 2 3 0 0 6 0 3,
  -- the scopes 6 and 7 (R72)
  .cas ⟨0, 0⟩ 1 2 3 4 0 7 0 3,
  .phase ⟨0, 0⟩ 6,
  .pub ⟨0, 0⟩ 7,
  .acq ⟨0, 0⟩ 6,
  -- the B form: b with the zero bit (R133)
  .beq ⟨0, 0⟩ 1 2 false true 0,
  .bne ⟨0, 0⟩ 1 2 false true 0,
  .blt ⟨0, 0⟩ 1 2 false true 0,
  .bge ⟨0, 0⟩ 1 2 false true 0,
  .bltn ⟨0, 0⟩ 1 2 false true 0,
  .bgen ⟨0, 0⟩ 1 2 false true 0,
  .lbrk ⟨0, 0⟩ 1 2 true 0,
  -- LOOP: an empty segment, a body above 16,384 words (R138)
  .loop ⟨0, 0⟩ 1 0 0,
  .loop ⟨0, 0⟩ 1 7 2049,
  -- SETP: a register named by a constant condition (R136)
  .setp ⟨0, 0⟩ 1 1 0 6,
  .setp ⟨0, 0⟩ 1 0 1 7,
  -- MBRD: mode 3 (R317)
  .mbrd ⟨0, 0⟩ 1 3,
  -- control words: unassigned selectors (R121)
  .getc ⟨0, 0⟩ 1 0x00D,
  .setc ⟨0, 0⟩ 1 0x033,
  .setb ⟨0, 0⟩ 1 0x065,
  .clrb ⟨0, 0⟩ 1 0x070,
  -- EVT: classes above 1 (R128)
  .evt ⟨0, 0⟩ 1 2] : List Instr).all (fun i => !i.wellFormed) = true := by decide

/-- An ill-formed V word for each check, refused (R185 to R217). -/
theorem test_wf_v : ([
  -- VADD, VSUB, VMUL: another type than FP; sub without SR; vc without SR; SR width 3
  .vadd ⟨0, 0⟩ ⟨1, 2, 3, 0, .i32, false, false, false, .rne, 0, 0⟩,
  .vsub ⟨0, 0⟩ ⟨1, 2, 3, 0, .fp32, false, false, false, .rne, 0, 64⟩,
  .vmul ⟨0, 0⟩ ⟨1, 2, 3, 1, .fp32, false, false, false, .rne, 0, 0⟩,
  .vadd ⟨0, 0⟩ ⟨1, 2, 3, 0, .fp32, false, false, false, .sr, 0, 192⟩,
  .vadd ⟨0, 0⟩ ⟨1, 2, 3, 0, .fp32, false, false, true, .rne, 0, 0⟩,
  -- fused: SR
  .vfma ⟨0, 0⟩ ⟨1, 2, 3, 4, .fp32, false, false, false, .sr, 0, 0⟩,
  .vfms ⟨0, 0⟩ ⟨1, 2, 3, 4, .fp32, false, false, false, .sr, 0, 0⟩,
  .vfnma ⟨0, 0⟩ ⟨1, 2, 3, 4, .fp32, false, false, false, .sr, 0, 0⟩,
  -- no rounding mode
  .vmin ⟨0, 0⟩ ⟨1, 2, 3, 0, .fp32, false, false, false, .rtz, 0, 0⟩,
  .vmax ⟨0, 0⟩ ⟨1, 2, 3, 0, .fp32, false, false, false, .rtz, 0, 0⟩,
  -- one source: vb, its keep bit
  .vabs ⟨0, 0⟩ ⟨1, 2, 1, 0, .fp32, false, false, false, .rne, 0, 0⟩,
  .vneg ⟨0, 0⟩ ⟨1, 2, 0, 0, .fp32, false, true, false, .rne, 0, 0⟩,
  -- compares: masks above m3, conditions above the last
  .vcmp ⟨0, 0⟩ ⟨4, 2, 3, 0, .fp32, false, false, false, .rne, 0, 0⟩,
  .vcmp ⟨0, 0⟩ ⟨1, 2, 3, 0, .fp32, false, false, false, .rne, 0, 8⟩,
  .vicmp ⟨0, 0⟩ ⟨1, 2, 3, 0, .i32, false, false, false, .rne, 0, 6⟩,
  .vicmp ⟨0, 0⟩ ⟨4, 2, 3, 0, .i32, false, false, false, .rne, 0, 0⟩,
  -- VSEL: .i3
  .vsel ⟨0, 0⟩ ⟨1, 2, 3, 0, .i3, false, false, false, .rne, 0, 0⟩,
  -- transcendental: a rounding mode with .fp32, SR, a source type above .bf16
  .vexp2 ⟨0, 0⟩ ⟨1, 2, 0, 0, .fp32, false, false, false, .rtz, 0, 0⟩,
  .vlog2 ⟨0, 0⟩ ⟨1, 2, 0, 0, .bf16, false, false, false, .sr, 0, 0⟩,
  .vrcp ⟨0, 0⟩ ⟨1, 2, 0, 0, .fp32, false, false, false, .rne, 0, 3⟩,
  .vrsq ⟨0, 0⟩ ⟨1, 2, 0, 0, .fp32, false, false, false, .rtz, 0, 0⟩,
  .vsqrt ⟨0, 0⟩ ⟨1, 2, 0, 0, .bf16, false, false, false, .sr, 0, 0⟩,
  .vsin ⟨0, 0⟩ ⟨1, 2, 0, 0, .fp32, false, false, false, .rne, 0, 3⟩,
  .vcos ⟨0, 0⟩ ⟨1, 2, 0, 0, .fp32, false, false, false, .rtz, 0, 0⟩,
  .vtanh ⟨0, 0⟩ ⟨1, 2, 0, 0, .bf16, false, false, false, .sr, 0, 0⟩,
  .vsigm ⟨0, 0⟩ ⟨1, 2, 0, 0, .fp32, false, false, false, .rne, 0, 3⟩,
  -- VCVT: .e2m1, a source .i4, a part out of range, SR width 3
  .vcvt ⟨0, 0⟩ ⟨1, 2, 0, 0, .e2m1, false, false, false, .rne, 0, 0⟩,
  .vcvt ⟨0, 0⟩ ⟨1, 2, 0, 0, .fp32, false, false, false, .rne, 0, 11⟩,
  .vcvt ⟨0, 0⟩ ⟨1, 2, 0, 0, .fp32, false, false, false, .rne, 0, 34⟩,
  .vcvt ⟨0, 0⟩ ⟨1, 2, 0, 0, .fp32, false, false, false, .sr, 0, 194⟩,
  -- VQMX, VQGI: the same two destinations, another type, a part out of range, a mask
  .vqmx ⟨0, 0⟩ ⟨1, 2, 1, 0, .e4m3, false, false, false, .rne, 0, 0⟩,
  .vqmx ⟨0, 0⟩ ⟨1, 2, 3, 0, .i8, false, false, false, .rne, 0, 0⟩,
  .vqmx ⟨0, 0⟩ ⟨1, 2, 3, 0, .e4m3, false, false, false, .rne, 0, 8⟩,
  .vqgi ⟨0, 0⟩ ⟨1, 2, 3, 0, .e4m3, false, false, false, .rne, 0, 0⟩,
  .vqgi ⟨0, 0⟩ ⟨1, 2, 1, 0, .i8, false, false, false, .rne, 0, 0⟩,
  .vqgi ⟨0, 0⟩ ⟨1, 2, 3, 0, .i8, false, false, false, .rne, 1, 0⟩,
  -- VDQMX: a source of another format, a part out of range
  .vdqmx ⟨0, 0⟩ ⟨1, 2, 3, 0, .fp32, false, false, false, .rne, 0, 2⟩,
  .vdqmx ⟨0, 0⟩ ⟨1, 2, 3, 0, .fp32, false, false, false, .rne, 0, 67⟩,
  -- VSCL: SR
  .vscl ⟨0, 0⟩ ⟨1, 2, 0, 0, .fp32, false, false, false, .sr, 0, 0⟩,
  -- VPACK, VUNPK: another type, a part out of range
  .vpack ⟨0, 0⟩ ⟨1, 2, 0, 0, .i8, false, false, false, .rne, 0, 0⟩,
  .vunpk ⟨0, 0⟩ ⟨1, 2, 0, 0, .i4, false, false, false, .rne, 0, 2⟩,
  .vpack ⟨0, 0⟩ ⟨1, 2, 0, 0, .i3, false, false, false, .rne, 0, 3⟩,
  -- VIADD, VISUB, VIMUL, VIMAD: FP types, sub above the suffixes
  .viadd ⟨0, 0⟩ ⟨1, 2, 3, 0, .fp32, false, false, false, .rne, 0, 0⟩,
  .visub ⟨0, 0⟩ ⟨1, 2, 3, 0, .i8, false, false, false, .rne, 0, 2⟩,
  .vimul ⟨0, 0⟩ ⟨1, 2, 3, 0, .i8, false, false, false, .rne, 0, 3⟩,
  .vimad ⟨0, 0⟩ ⟨1, 2, 3, 4, .i8, false, false, false, .rne, 0, 2⟩,
  -- bitwise: sub, kc
  .vand ⟨0, 0⟩ ⟨1, 2, 3, 0, .fp32, false, false, false, .rne, 0, 1⟩,
  .vor ⟨0, 0⟩ ⟨1, 2, 3, 0, .fp32, false, false, true, .rne, 0, 0⟩,
  .vxor ⟨0, 0⟩ ⟨1, 2, 3, 0, .fp32, false, false, true, .rne, 0, 0⟩,
  -- shifts: FP types, vb with an immediate, sub without one
  .vshl ⟨0, 0⟩ ⟨1, 2, 3, 0, .fp32, false, false, false, .rne, 0, 0⟩,
  .vshr ⟨0, 0⟩ ⟨1, 2, 3, 0, .i32, false, false, false, .rne, 0, 129⟩,
  .vsha ⟨0, 0⟩ ⟨1, 2, 3, 0, .i32, false, false, false, .rne, 0, 1⟩,
  -- VIMIN, VIMAX: FP types
  .vimin ⟨0, 0⟩ ⟨1, 2, 3, 0, .fp32, false, false, false, .rne, 0, 0⟩,
  .vimax ⟨0, 0⟩ ⟨1, 2, 3, 0, .fp32, false, false, false, .rne, 0, 0⟩,
  -- VIOTA: a source
  .viota ⟨0, 0⟩ ⟨1, 2, 0, 0, .i32, false, false, false, .rne, 0, 0⟩,
  -- VPOPC: FP types
  .vpopc ⟨0, 0⟩ ⟨1, 2, 0, 0, .fp32, false, false, false, .rne, 0, 0⟩,
  -- VRED, VSCAN: operations above 5, .and of FP, a rounding mode with .max
  .vred ⟨0, 0⟩ ⟨1, 2, 0, 0, .fp32, false, false, false, .rne, 0, 6⟩,
  .vscan ⟨0, 0⟩ ⟨1, 2, 0, 0, .fp32, false, false, false, .rne, 0, 3⟩,
  .vred ⟨0, 0⟩ ⟨1, 2, 0, 0, .fp32, false, false, false, .rtz, 0, 1⟩,
  -- moves: an element below 8 bits, .i3, a lane out of range
  .vperm ⟨0, 0⟩ ⟨1, 2, 3, 4, .i4, false, false, false, .rne, 0, 0⟩,
  .vslide ⟨0, 0⟩ ⟨1, 2, 3, 0, .i3, false, false, false, .rne, 0, 0⟩,
  .vbcst ⟨0, 0⟩ ⟨1, 2, 0, 0, .fp32, false, false, false, .rne, 0, 64⟩,
  .vmov ⟨0, 0⟩ ⟨1, 2, 1, 0, .fp32, false, false, false, .rne, 0, 0⟩,
  .vzip ⟨0, 0⟩ ⟨1, 2, 3, 0, .fp32, false, false, false, .rne, 0, 2⟩,
  .vuzp ⟨0, 0⟩ ⟨1, 2, 3, 0, .i3, false, false, false, .rne, 0, 0⟩,
  .vtrn ⟨0, 0⟩ ⟨1, 2, 3, 0, .fp32, false, false, false, .rne, 0, 2⟩,
  -- accesses: va, ka and W without a base, kq of a load, the types of an index
  .vld ⟨0, 0⟩ ⟨1, 1, false, false, false, false, 0, 0⟩,
  .vld ⟨0, 0⟩ ⟨1, 0, false, false, true, false, 0, 0⟩,
  .vst ⟨0, 0⟩ ⟨1, 0, false, false, false, true, 0, 0⟩,
  .vgath ⟨0, 0⟩ ⟨1, 2, true, false, true, false, 3, false, .i32, 0⟩,
  .vscat ⟨0, 0⟩ ⟨1, 2, true, false, false, false, 3, false, .i16, 0⟩,
  -- VROPE: a head size above the lanes, size code 3, SR
  .vrope ⟨0, 0⟩ ⟨1, 2, 3, 4, .fp32, false, false, false, .rne, 0, 2⟩,
  .vrope ⟨0, 0⟩ ⟨1, 2, 3, 4, .fp32, false, false, false, .rne, 0, 3⟩,
  .vrope ⟨0, 0⟩ ⟨1, 2, 3, 4, .fp32, false, false, false, .sr, 0, 0⟩,
  -- VSMX: the same two destinations, another operation, another type
  .vsmxStep ⟨0, 0⟩ ⟨1, 2, 3, 1, .fp32, false, false, false, .rne, 0, 0⟩,
  .vsmxNorm ⟨0, 0⟩ ⟨1, 2, 3, 0, .fp32, false, false, false, .rne, 0, 2⟩,
  .vsmxScale ⟨0, 0⟩ ⟨1, 2, 3, 0, .bf16, false, false, false, .rne, 0, 2⟩,
  -- VDWC: sub[7]
  .vdwc ⟨0, 0⟩ ⟨1, 2, 3, 4, .fp32, false, false, false, .rne, 0, 128⟩,
  -- VKST: vd, heads above 31
  .vkst ⟨0, 0⟩ ⟨1, 2, 3, 4, .fp32, false, false, false, .rne, 0, 0⟩,
  .vkst ⟨0, 0⟩ ⟨0, 2, 3, 4, .fp32, false, false, false, .rne, 0, 32⟩,
  -- compress and expand: masks above m3, narrow elements
  .vzcmp ⟨0, 0⟩ ⟨1, 2, 0, 4, .fp32, false, false, false, .rne, 0, 0⟩,
  .vzexp ⟨0, 0⟩ ⟨1, 2, 0, 0, .i4, false, false, false, .rne, 0, 0⟩,
  -- VMASKP: mode 2, masks above m3, vb in mode 0, a narrow type in mode 1
  .vmaskp ⟨0, 0⟩ ⟨1, 2, 0, 0, .fp32, false, false, false, .rne, 0, 2⟩,
  .vmaskp ⟨0, 0⟩ ⟨4, 2, 0, 0, .fp32, false, false, false, .rne, 0, 0⟩,
  .vmaskp ⟨0, 0⟩ ⟨1, 2, 1, 0, .fp32, false, false, false, .rne, 0, 0⟩,
  .vmaskp ⟨0, 0⟩ ⟨1, 2, 1, 0, .i16, false, false, false, .rne, 0, 1⟩,
  -- VWELF: vc in mode 0
  .vwelf ⟨0, 0⟩ ⟨1, 2, 3, 4, .fp32, false, false, false, .rne, 0, 0⟩,
  -- VEND, CEND, MEND: a mark (R222)
  .vend ⟨0x41, 0⟩] : List Instr).all (fun i => !i.wellFormed) = true := by decide

/-- An ill-formed C or M word for each check, refused. -/
theorem test_wf_c_m : ([
  .cend ⟨0, 0x41⟩,
  -- CNBR: operation 3, SR, a rounding mode of .max, .sat of .max or with a rounding mode
  .cnbr ⟨0, 0⟩ 1 2 3 false .rne false,
  .cnbr ⟨0, 0⟩ 1 2 0 false .sr false,
  .cnbr ⟨0, 0⟩ 1 2 1 false .rtz false,
  .cnbr ⟨0, 0⟩ 1 2 1 false .rne true,
  .cnbr ⟨0, 0⟩ 1 2 0 false .rtz true,
  -- CNBU: SR
  .cnbu ⟨0, 0⟩ 1 2 false false .sr,
  .mend ⟨0x41, 0x41⟩,
  -- rows past the tile, .a with a queue (R283)
  .mma ⟨0, 0⟩ 0 1 false 0 0 0 255 1 false false,
  .mma ⟨0, 0⟩ 0 1 true 0 0 0 0 0 false true,
  .mzero ⟨0, 0⟩ 0 128 128,
  .mdrain ⟨0, 0⟩ 0 1 false 0 .rne .bf16 255 1 false false,
  .mdrain ⟨0, 0⟩ 0 1 true 0 .rne .bf16 0 0 false true,
  -- MDRAIN: another type, SR, a rounding mode with .fp32, a scale map that is not read
  .mdrain ⟨0, 0⟩ 0 1 false 0 .rne .fp16 0 0 false false,
  .mdrain ⟨0, 0⟩ 0 1 false 0 .sr .bf16 0 0 false false,
  .mdrain ⟨0, 0⟩ 0 1 false 0 .rtz .fp32 0 0 false false,
  .mdrain ⟨0, 0⟩ 0 1 false 1 .rne .bf16 0 0 false false,
  .mdrain ⟨0, 0⟩ 0 1 true 1 .rne .e4m3 0 0 false false] : List Instr).all (fun i => !i.wellFormed) = true := by decide


/-! Small states. -/

/-- A running job of launch 1 whose range is the whole scratchpad. -/
def k0 : Bank := { Bank.reset with job := some probeJob }
/-- The same with bits of STAT. -/
def kStat (v : W64) : Bank := k0.setCw cwSTAT v
/-- The turn of an issue point of bank 0 of core 0 of die 0, in a bank's state. -/
def on (p : Point) (k : Bank) : State := { State.reset with banks := [(0, k)], focus := ⟨0, p, 0, 0⟩ }
/-- The same bank with s-registers. -/
def withS (k : Bank) (l : List (Nat × W64)) : Bank := { k with sregs := l.map (fun x => (x.1, ⟨x.2, false⟩)) }
/-- A word that neither waits nor signals. -/
def m0 : Marks := ⟨0, 0⟩
/-- A result of s5 that is pending. -/
def pend5 : Pend := ⟨9, .reg 5, 77, false, 0, 4, 0, false, none, none, false⟩
/-- A launch from the host, and a hub that holds some. -/
def launch0 (seq : Nat) (ph : LaunchPhase) (ps : List Place) : Launch :=
  { seq := seq, record := 0, submitter := none, apt := [], accepted := 0, since := 0, level := 0, phase := ph, jobs := ps, code := 0,
    nd := false, retired := 0, exit := 0, ejidx := 0, issuedAt := 0 }
def hubWith (ls : List Launch) : Hub := { Hub.reset with launches := ls }
/-- An operation of C in flight. -/
def op1 : Op := ⟨7, .c, 0, 0, 0, 0, .none, [], none, false⟩


/-! Witnesses: concrete states and operands that meet the hypotheses of each statement. -/

theorem witness_ScalarWordsRoundTrip :
    (Instr.sel ⟨0x43, 0x84⟩ 9 18 36 63).wellFormed = true ∧ encode (.sel ⟨0x43, 0x84⟩ 9 18 36 63) = some (.s, 0x43841F25293F0000) := by
  and_intros <;> rfl

theorem witness_EngineWordsRoundTrip :
    (Instr.vloop m0 1 100).wellFormed = true ∧ encode (.vloop m0 1 100) = some (.v, 0x0000702000000064) ∧
    (Instr.clbrk m0 5).wellFormed = true ∧ encode (.clbrk m0 5) = some (.c, 0x0000310000000005) ∧
    (Instr.mzero m0 3 255 0).wellFormed = true ∧ encode (.mzero m0 3 255 0) = some (.m, 0x000007C00003FC00) := by
  and_intros <;> rfl

theorem witness_DecodedWordIsTheEncoding : decode .c 0x0000310000000005 = .ok (.clbrk m0 5) := by rfl

/-- ADD s1, s2, s3 where S fetches next. -/
def sAdd : State := State.reset.withFetchWord 64 0x0000010420C00000

theorem witness_StepRunsScalarWord :
    sAdd.agenda = .issue 0 .s :: [] ∧ State.sReady { sAdd with agenda := [] } 0 = true ∧ (sAdd.bank 0).nullified = false ∧
    (sAdd.bank 0).fetched = [] ∧
    (State.fetchWord { sAdd with agenda := [] } 0 (sAdd.bank 0).pc).2 = .word 0x0000010420C00000 false ∧
    decode .s 0x0000010420C00000 = .ok (.add m0 1 2 3) ∧
    -- RDQ with no turn of the execute side to come in its cycle, and with one
    decode .s 0x0000540420C00000 = .ok (.rdq m0 1 2 3 false) ∧ (sAdd.bank 0).veBefore 0 = false ∧
    ({ k0 with veDue := true } : Bank).veBefore 0 = true := by
  refine ⟨?_, ?_, ?_, ?_, ?_, rfl, rfl, ?_, ?_⟩ <;> decide +kernel

/-- VLD v6, 0x2000, 256 at the access side; VQCFG v2, 2 at the execute side; CCOPY.a1.lr g3, g7; MZERO a3, 256. -/
theorem witness_StepRunsRingWord : ([(.va, 0x0000503000100080), (.ve, 0x0000541000000001), (.c, 0x0000033700000005),
    (.m, 0x000007C00003FC00)] : List (Point × W64)).all (fun x =>
      let p := x.1
      let s := State.reset.withFetchWord 64 (x.2.toNat)
      let s := if p = .c ∨ p = .m then s.placeWord p.space x.2 else s
      s.agenda.head? == some (Turn.issue 0 p) && p != .s && s.eReady 0 p && s.pointFree 0 p &&
      ((s.bank 0).engLoop (Point.engine p)).isNone && decide ((s.bank 0).vaDyn ≤ (s.bank 0).veDyn + 32) &&
      s.fetchable 0 p != 0 &&
      s.ringWord 0 p ((s.bank 0).pointPos p) == (x.2, false) &&
      (p != .va || isAccess x.2) && (p != .ve || !isAccess x.2) && (reads p.space x.2).isSome) = true := by
  decide +kernel

/-- VADD in the body of a loop of one word, in a segment that is live and in one that is not. -/
def bodyAt (live : BitVec 8) : State :=
  let s := State.reset.withFetchWord 64 0x0000014844028100
  let w := BitVec.ofNat 64 (1 + 2 * 2 ^ 16 + 4 * 2 ^ 52)
  (s.modBank 0 (fun k => { k.setCw 0x030 w with
    vaPos := 1, vaDyn := 1, vloop := some ⟨0, 1, 1, 0, 1, 1, [(1, live)], none, false, false⟩ })).modCore 0
      (fun c => { c with sp := c.sp.write (ringAddr w 1) 8 0x0000014844028100 false, ringed := insertNat c.ringed (ringAddr w 1 / 8) })
theorem witness_StepRunsLoopWord : ([1, 0] : List (BitVec 8)).all (fun live =>
      let s := bodyAt live
      let l : RLoop := ⟨0, 1, 1, 0, 1, 1, [(1, live)], none, false, false⟩
      s.agenda.head? == some (Turn.issue 0 .ve) && s.eReady 0 .ve && s.pointFree 0 .ve && (s.bank 0).engLoop .v == some l &&
      l.ended != some (l.passOf .ve) && (s.bank 0).pointPos .ve != (l.loopPos + l.body + 1) % (2 * ringN ((s.bank 0).ring .v)) &&
      s.fetchable 0 .ve != 0 && l.segment 1 64 == some 0 && s.ringWord 0 .ve 1 == (0x0000014844028100, false) &&
      !isAccess 0x0000014844028100 && (reads .v 0x0000014844028100).isSome && (l.mask 1).testBit 0 == (live != 0)) = true ∧
    -- the access side, up to 32 words ahead
    (bodyAt 1).eReady 0 .va = true ∧ ((bodyAt 1).bank 0).vaDyn ≤ ((bodyAt 1).bank 0).veDyn + 32 := by
  and_intros <;> decide +kernel

theorem witness_StepTakesTheAgenda :
    ({ State.reset with agenda := [.event (.flagUnitCycle 0)] } : State).agenda = .event (.flagUnitCycle 0) :: [] ∧
    ({ State.reset with agenda := [.plan] } : State).agenda = .plan :: [] ∧ State.reset.agenda = [] := by
  and_intros <;> rfl

/-- The WAIT of ?f3 is met by a count of 1, and not by 0. -/
theorem witness_ScalarArithmeticResults :
    (aluForm (.add ⟨0x43, 0⟩ 1 2 3)).isSome = true ∧ (on .s { k0 with flags := [(3, 1)] }).sIssues ⟨0x43, 0⟩ = true := by
  and_intros <;> decide +kernel

theorem witness_SynchronisationWords :
    (on .s k0).sIssues m0 = true ∧ (on .c k0).eIssues m0 [] [] = true ∧ (on .m k0).me.mReady = true ∧
    (on .s k0).sIssues ⟨0x43, 0⟩ = false ∧ (on .s k0).me.judgedAt 0 .s = false := by
  and_intros <;> decide +kernel

theorem witness_BranchesAndJumps :
    -- a branch, a jump, and the jumps that trap: two targets pending, and in a loop
    (branchForm (.beq m0 1 2 false false 5)).isSome = true ∧ (on .s k0).sIssues m0 = true ∧ (on .s k0).me.targets.length ≠ 2 ∧
    (on .s k0).me.loopAct = false ∧ (on .s k0).clean [1, 2] = true ∧
    (jumpForm (.jlr m0 1 5)).isSome = true ∧ (on .s (withS k0 [(5, 0x88)])).clean [5] = true ∧
    ((on .s (withS k0 [(5, 0x88)])).reg 5).toNat % 8 = 0 ∧
    -- a target that is not a multiple of 8
    (on .s (withS k0 [(5, 0x8C)])).clean [5] = true ∧ ((on .s (withS k0 [(5, 0x8C)])).reg 5).toNat % 8 = 4 ∧
    (on .s (withS k0 [(5, 0x8C)])).sIssues m0 = true ∧
    jumpMarks (.j m0 9) = some m0 ∧ encode (.j m0 9) = some (.s, 0x0000480000000009) ∧
    (on .s { k0 with targets := [⟨8, 1⟩, ⟨16, 2⟩] }).me.targets.length = 2 ∧ (on .s (k0.setCw cwLSTAT 1)).me.loopAct = true := by
  and_intros <;> decide +kernel

theorem witness_DelaySlotsCountTwoWords : k0.sloop = none ∧ k0.targets = [] := by and_intros <;> rfl

theorem witness_SetpWritesItsPredicate :
    (on .s k0).sIssues m0 = true ∧ (5 : BitVec 3).toNat < 6 ∧ (on .s k0).clean [1, 2] = true ∧ ¬ (6 : BitVec 3).toNat < 6 := by
  and_intros <;> decide +kernel

/-- A loop of one iteration, one of none, and LBRK in a loop. -/
def inLoop : Bank := { k0.setCw cwLSTAT 1 with sloop := some ⟨8, 1, 4, 40, none, false, 0⟩ }
theorem witness_ScalarLoops :
    (on .s (withS k0 [(5, 1)])).sIssues m0 = true ∧ (on .s k0).me.targets = [] ∧ (on .s k0).me.loopAct = false ∧
    ((on .s k0).me.cw cwLSTAT).getLsbD 2 = false ∧ (on .s k0).clean [5] = true ∧ (on .s k0).me.preempt = false ∧
    (((on .s (withS k0 [(5, 1)])).sIssued m0).reg 5).toNat % 2 ^ 32 = 1 ∧ (((on .s k0).sIssued m0).reg 5).toNat % 2 ^ 32 = 0 ∧
    (on .s inLoop).me.loopAct = true ∧ (on .s inLoop).me.sloop = some ⟨8, 1, 4, 40, none, false, 0⟩ ∧ (on .s inLoop).clean [1, 2] = true ∧
    (on .s inLoop).sIssues m0 = true ∧ (on .s inLoop).me.targets.length ≠ 2 ∧
    -- LSTAT.PRE set; a pre-emption that waits
    ((on .s (k0.setCw cwLSTAT 4)).me.cw cwLSTAT).getLsbD 2 = true ∧ (on .s (k0.setCw cwLSTAT 4)).me.loopAct = false ∧
    (on .s { k0 with preempt := true }).me.preempt = true ∧ (on .s { k0 with preempt := true }).sIssues m0 = true ∧
    (on .s { k0 with preempt := true }).me.ts = false := by
  and_intros <;> decide +kernel

/-- s5 and s7 hold poison; s6 does not. -/
def poisoned : Bank := { k0 with sregs := [(5, ⟨1, true⟩), (6, ⟨2, false⟩), (7, ⟨3, true⟩)] }
theorem witness_PoisonedOperandsTrap :
    (poisonForm (.cas m0 1 7 6 5 0 0 0 3)).isSome = true ∧ (on .s poisoned).sIssues m0 = true ∧ (on .s poisoned).firstBad [7, 6, 5] 5 := by
  refine ⟨by decide +kernel, by decide +kernel, by decide +kernel, by decide +kernel, ?_⟩
  intro x hx
  simp only [List.mem_cons, List.not_mem_nil, or_false] at hx
  obtain rfl | rfl | rfl := hx <;> decide +kernel

theorem witness_CheckedRegister :
    (on .s poisoned).sIssues m0 = true ∧ (on .s poisoned).clean [6] = true ∧ (on .s poisoned).clean [7] = false ∧
    (on .s { k0 with pend := [pend5] }).me.pendingReg 5 = true ∧
    (0x0000330070000001 : W64).toNat / 2 ^ 40 % 256 = 0x33 ∧ (0x0000330070000001 : W64).toNat % 2 ^ 28 ≠ 0 := by
  and_intros <;> decide +kernel

theorem witness_RequestEntersTheHandler :
    (on .s { k0 with targets := [⟨8, 1⟩, ⟨16, 2⟩] } |>.bank 0).targets.length ≤ 2 ∧ (0x14 : Nat) ≠ 0x05 := by
  and_intros <;> decide +kernel

/-- A load of s5 whose page request waits to be sent, and a store whose does. -/
def loading : Pend := { pend5 with page := some (.load 0x1000000 8 false), mem := true }
def storing : Pend := { pend5 with id := 8, dest := .none, page := some (.store 0x1000000 8 1 false), mem := true }

/-- Every access has been made; one has still to be. -/
theorem witness_SoftwareTrap :
    (on .s (kStat 1)).me.unperformed = false ∧ (on .s { kStat 1 with pend := [loading] }).me.unperformed = true ∧
    (on .s { kStat 1 with pend := [loading] }).sIssues m0 = true ∧
    (on .s (kStat 1)).sIssues m0 = true ∧ (0x000060400000002A : W64).toNat / 2 ^ 40 % 256 = 0x60 ∧
    (0x000060400000002A : W64).toNat / 2 ^ 28 % 2 ^ 12 ≠ 0 := by
  and_intros <;> decide +kernel

/-- With an operation in flight and with none; the last cause and the fatal one; the bytes on each side of a record at 256. -/
theorem witness_FaultsStopTheJob :
    isRequest 0x16 = false ∧ isRequest 0x05 = false ∧ k0.freeze = none ∧
    (let fr : Freeze := ⟨some .s, 0x03, 5, 0, [], 0, 0, 0, 0⟩
     let k : Bank := { k0 with freeze := some fr }
     k.freeze = some fr ∧ fr.point = some .s ∧ fr.more = [] ∧ k.nullS = 0 ∧ k.blocked = none ∧
     ({ k with ops := [op1] } : Bank).settled = false ∧ k.settled = true) ∧
    ((on .s (k0.setCw cwFAREA 256)).core 0).sp.wf = true ∧
    255 < fld ((k0.setCw cwFAREA 256).cw cwFAREA) 8 11 * 256 ∧ fld ((k0.setCw cwFAREA 256).cw cwFAREA) 8 11 * 256 + 256 ≤ 512 := by
  and_intros <;> decide +kernel

theorem witness_PrivilegedWordsTrap :
    (on .s k0).sIssues m0 = true ∧ (on .s k0).me.sv = false ∧ encode (.tret m0) = some (.s, 0x0000610000000000) ∧
    (on .s k0).cwForbidden 0 0x002 false = true ∧ encode (.getc m0 3 0x002) = some (.s, 0x0000620C00000002) ∧
    (on .s k0).cwForbidden 0 0x010 true = true ∧ encode (.setc m0 3 0x010) = some (.s, 0x0000630030000010) ∧
    State.isMaster { on .s k0 with focus := ⟨2, .s, 0, 0⟩ } 2 = false ∧ State.sIssues { on .s k0 with focus := ⟨2, .s, 0, 0⟩ } m0 = true ∧
    encode (.fpost m0 10 11) = some (.s, 0x00007028B0000000) := by
  and_intros <;> decide +kernel

/-- Supervisor view outside trap state; in it, with a state no trap saves, and with a sound one. -/
theorem witness_ReturnFromTrap :
    (on .s (kStat 1)).sIssues m0 = true ∧ (on .s (kStat 1)).me.sv = true ∧ (on .s (kStat 1)).me.ts = false ∧
    (on .s (kStat 3)).me.ts = true ∧ (on .s (kStat 3)).me.targets = [] ∧
    badEstat ((kStat 3).setCw cwESTAT 0x30000 |>.cw cwESTAT) = true ∧ badEstat ((kStat 3).cw cwESTAT) = false ∧
    (on .s (kStat 3)).me.pend.all (fun p => p.landed) = true ∧ (on .s (kStat 3)).me.ftl = false ∧ (on .s (kStat 3)).me.stopS = false ∧
    -- a result in flight; a fatal cause; a pre-emption; an ESTAT that holds two targets
    ({ kStat 3 with pend := [pend5] } : Bank).pend.all (fun p => p.landed) = false ∧ (kStat 0xB).ftl = true ∧
    (on .s (kStat 0xB)).sIssues m0 = true ∧ (on .s { kStat 3 with stopS := true }).sIssues m0 = true ∧
    badEstat ((kStat 3).setCw cwESTAT 0x60000 |>.cw cwESTAT) = false := by
  and_intros <;> decide +kernel

/-! Memory words. -/

/-- An aperture entry: 16 MiB at 0x1000000, direct, on die 0's HBM from offset 0. -/
def ap0 : BitVec 128 := 0x1000301
def kAp : Bank := { k0 with apertures := [ap0] }

/-- An address at the end of the virtual space, a misaligned one just below it, one in the gap behind the scratchpad, one that no
aperture holds, and the last doubleword of the scratchpad. -/
theorem witness_MemoryWordsCheckThenAccess :
    (memForm (.ld m0 ⟨1, 2, 5, false, 3, 0⟩)).isSome = true ∧ (on .s k0).sIssues m0 = true ∧ (on .s k0).clean [2] = true ∧
    2 ^ 48 ≤ ((on .s (withS k0 [(2, 0x1000000000000)])).reg 2).toNat ∧
    (((on .s (withS k0 [(2, 0xFFFFFFFFFFFF)])).reg 2).toNat < 2 ^ 48 ∧ ((on .s (withS k0 [(2, 0xFFFFFFFFFFFF)])).reg 2).toNat % 8 ≠ 0) ∧
    (((on .s (withS k0 [(2, 0x80000)])).reg 2).toNat < 2 ^ 24 ∧ (on .s (withS k0 [(2, 0x80000)])).localAt 0x80000 8 = none) ∧
    (2 ^ 24 ≤ ((on .s (withS k0 [(2, 0x1000000)])).reg 2).toNat ∧ apFind (on .s (withS k0 [(2, 0x1000000)])).me.apertures 0x1000000 = none) ∧
    (on .s (withS k0 [(2, 0x7FFF8)])).accessTrap (.ld m0 ⟨1, 2, 5, false, 3, 0⟩) 0 0x7FFF8 8 false true = none ∧
    (on .s (withS k0 [(2, 0x7FFF9)])).accessTrap (.ld m0 ⟨1, 2, 5, false, 3, 0⟩) 0 0x7FFF9 8 false true = some ⟨0x04, 0x7FFF9⟩ := by
  and_intros <;> decide +kernel

/-- An aperture over the message windows of die 0. -/
def kWin (a : W64) : Bank := { withS k0 [(2, a)] with
  apertures := [BitVec.ofNat 128 (1 + 21 * 32 + 0x2000000 + 2 ^ 20 * 2 ^ 64)], queues := [(1, ⟨2, [⟨1, some (a.setWidth 2048)⟩], .none, .none, 0, 0⟩)] }
/-- An aperture over the reduce aperture of die 1. -/
def kRed (a : W64) : Bank := { withS k0 [(2, a)] with apertures := [BitVec.ofNat 128 (1 + 21 * 32 + 0x2000000 + (2 ^ 21 + 3 * 2 ^ 19) * 2 ^ 64)] }
/-- The last doubleword of the scratchpad and the first of shared memory. -/
theorem witness_LocalLoadsLandTheirBytes :
    -- a message window
    (on .s (kWin 0x2000000)).clean [2] = true ∧ (on .s (kWin 0x2000000)).reg 2 = 0x2000000 ∧
    ((on .s (kWin 0x2000000)).resolve 0 0x2000000 8 false false).2 = .win 0 0 ∧
    -- the first byte of another die's reduce aperture
    ((on .s (kRed 0x2000000)).resolve 0 0x2000000 8 false false).2 = .red 1 0 ∧ 1 ≠ bankDie 0 ∧
    (on .s k0).sIssues m0 = true ∧ (on .s k0).clean [2] = true ∧ (0x7FFF8 : W64).toNat % 8 = 0 ∧
    (on .s k0).localAt 0x7FFF8 8 = some (.scratchpad 0, 0x7FFF8) ∧ (on .s k0).localAt 0x400000 8 = some (.shared 0, 0) ∧
    -- LDS: poison, past the end, misaligned, in a gap, and through no aperture
    (on .s poisoned).clean [5] = false ∧ 2 ^ 48 ≤ (0x1000000000000 : W64).toNat ∧ (0x7FFF9 : W64).toNat % 8 ≠ 0 ∧
    (on .s k0).localAt 0x80000 8 = none ∧ apFind (on .s k0).me.apertures 0x1000000 = none := by
  and_intros <;> decide +kernel

theorem witness_LocalStoresWriteTheirBytes :
    (on .s k0).sIssues m0 = true ∧ (on .s k0).clean [2] = true ∧ (0x7FFFF : W64).toNat % 1 = 0 ∧
    (on .s k0).localAt 0x7FFFF 1 = some (.scratchpad 0, 0x7FFFF) ∧ ((on .s k0).memAt (.scratchpad 0)).wf = true := by
  and_intros <;> decide +kernel

theorem witness_LocalAtomics :
    (on .s k0).sIssues m0 = true ∧ (0x400004 : W64).toNat % 4 = 0 ∧ (on .s k0).localAt 0x400004 4 = some (.shared 0, 4) ∧
    ((on .s k0).memAt (.shared 0)).wf = true ∧ (on .s k0).clean [2, 3] = true ∧ (9 : BitVec 4).toNat ≤ 9 ∧
    (on .s k0).clean [2, 3, 4] = true := by
  and_intros <;> decide +kernel

theorem witness_CacheWords :
    (on .s k0).sIssues m0 = true ∧ (((on .s (withS k0 [(2, 0xFFFFFF)])).sIssued m0).reg 2).toNat < 2 ^ 24 ∧
    2 ^ 48 ≤ (((on .s (withS k0 [(2, 0x1000000000000)])).sIssued m0).reg 2).toNat ∧
    (3 : BitVec 3) ≠ 0 ∧ (on .s k0).me.writeWaits = false ∧ (on .s k0).clean [2] = true ∧ ((on .s k0).sIssued m0).reg 3 = 0 ∧
    -- a store that has still to be performed
    (on .s { k0 with pend := [storing] }).sIssues m0 = true ∧ (on .s { k0 with pend := [storing] }).me.writeWaits = true ∧
    ((on .s (withS k0 [(3, 64)])).sIssued m0).reg 3 ≠ 0 := by
  and_intros <;> decide +kernel

/-- A cluster level of one member, which is done, and of two, of which one has not come; a level that is not enabled. -/
theorem witness_FencesAndPhases :
    (on .s k0).sIssues m0 = true ∧ (on .s k0).me.targets = [] ∧ (on .s { k0 with targets := [⟨8, 1⟩] }).me.targets ≠ [] ∧
    encode (.ifence m0) = some (.s, 0x00003B0000000000) ∧
    ({ k0 with blocked := some ⟨.fence false 0, 0, 0⟩ } : Bank).blocked = some ⟨.fence false 0, 0, 0⟩ ∧
    ((on .s k0).blockS m0 (.phase 1)).phaseComplete 0 1 = true ∧
    (((on .s (k0.setCw cwDOM 0x8000000000200000)).modBank 0 (fun k => { k with phases := [(1, 1)] })).blockS m0 (.phase 1)).phaseComplete 0 1 = false ∧
    ((on .s k0).me.cw cwDOM).getLsbD 63 = false ∧ (on .s k0).me.writeWaits = false ∧ (3 : BitVec 3) ≠ 0 ∧
    -- a store that has still to be performed
    (on .s { k0 with pend := [storing] }).me.writeWaits = true ∧ (on .s { k0 with pend := [storing] }).sIssues m0 = true := by
  and_intros <;> decide +kernel

/-! Rings, flags, queues. -/

/-- A ring of 32 words with pointers RP, WP and HP. -/
def ringOf (rp wp hp : Nat) : W64 := BitVec.ofNat 64 (rp + wp * 2 ^ 16 + hp * 2 ^ 32 + 4 * 2 ^ 52)
def kRing (rp wp hp : Nat) : Bank := k0.setCw 0x030 (ringOf rp wp hp)

/-- A closed ring; a full one with words to fetch; a full one with none; one with a single place. -/
theorem witness_PushWritesItsRing :
    (on .s k0).sIssues m0 = true ∧ ((on .s k0).core 0).sp.wf = true ∧ ringClosed (k0.closeRings.ring .v) = true ∧
    encode (.push m0 .v 5) = some (.s, 0x0000500450000000) ∧
    ringClosed ((kRing 0 32 0).ring .v) = false ∧ ringFull ((kRing 0 32 0).ring .v) = true ∧
    ringRP ((kRing 0 32 0).ring .v) ≠ ringWP ((kRing 0 32 0).ring .v) ∧
    ringFull ((kRing 32 32 0).ring .v) = true ∧ ringRP ((kRing 32 32 0).ring .v) = ringWP ((kRing 32 32 0).ring .v) ∧
    (on .s (kRing 32 32 0)).clean [5] = true ∧ ringFull ((kRing 0 31 0).ring .v) = false := by
  and_intros <;> decide +kernel

/-- A closed ring; a busy engine; 33 words, one too many; 32 words. -/
theorem witness_StartPointsItsEngine :
    (on .s k0).sIssues m0 = true ∧ ringClosed (k0.closeRings.ring .m) = true ∧ encode (.start m0 .m 9) = some (.s, 0x0000550C90000000) ∧
    ringClosed (k0.ring .c) = false ∧ ({ k0 with ops := [op1] } : Bank).idleE .c = false ∧ k0.idleE .c = true ∧
    (on .s k0).clean [9] = true ∧ ringN (k0.ring .c) = 32 ∧ 32 < (33 + 2 * 32 - 0) % (2 * 32) ∧ (32 + 2 * 32 - 0) % (2 * 32) ≤ 32 := by
  and_intros <;> decide +kernel

/-- A flag that holds just the count, one that holds one less, and PARK of 1 and of 0; a die that is present and one that is not. -/
theorem witness_FlagWords :
    (on .s k0).sIssues m0 = true ∧ (on .s k0).clean [1, 2] = true ∧
    (let s := on .s { withS k0 [(1, 5), (2, 3)] with flags := [(5, 3)] }
     ((s.sIssued m0).reg 2).toNat % 65536 = (s.sIssued m0).me.flag 5 ∧ (s.sIssued m0).me.overtakes s.cycle .s 5 s.cycle = false ∧
     1 ≤ (s.sIssued m0).me.flag 5 ∧ (s.sIssued m0).me.flag 6 = 0) ∧
    (on .s { k0 with flags := [(5, 2)] }).me.flag 5 < 3 ∧ (on .s k0).me.overtakes 0 .s 5 0 = false ∧ (on .s k0).me.pendingReg 3 = false ∧
    -- the sender's own die, another that is present, and the first that is not
    (on .s k0).diePresent 0 0 = true ∧ (on .s k0).diePresent 0 1 = true ∧ bankDie 0 = 0 ∧ (on .s k0).diePresent 0 2 = false := by
  and_intros <;> decide +kernel

/-- A queue with an element, an empty one, and one whose slot is reserved. -/
def qWith (e : Option Elem) : Bank := { k0 with queues := [(2, ⟨2, [⟨1, e⟩], .none, .none, 0, 0⟩)] }
theorem witness_QueueReads :
    (on .s k0).sIssues m0 = true ∧ (on .s k0).clean [3] = true ∧ (on .s (qWith (some 7))).me.queue 2 = ⟨2, [⟨1, some 7⟩], .none, .none, 0, 0⟩ ∧
    ((on .s k0).me.queue 2).slots = [] ∧ ((on .s k0).me.queue 2).prod = .none ∧ (on .s k0).me.pushInFlight 2 = false ∧
    (on .s (qWith none)).me.queue 2 = ⟨2, [⟨1, none⟩], .none, .none, 0, 0⟩ ∧
    (on .s { k0 with queues := [(2, ⟨2, [], .stream, .none, 0, 0⟩)] }).me.queue 2 = ⟨2, [], .stream, .none, 0, 0⟩ := by
  and_intros <;> decide +kernel

theorem witness_JobsEndAtTheRendezvous : (on .s k0).sIssues m0 = true ∧ (on .s k0).clean [1] = true := by and_intros <;> decide +kernel

/-- A job reads JOBID and writes LOOPC; LOOPC refuses its lowest reserved bit and takes the bits below. -/
theorem witness_ControlWords :
    (on .s k0).sIssues m0 = true ∧ (on .s k0).cwForbidden 0 0x010 false = false ∧ (on .s k0).cwForbidden 0 0x020 true = false ∧
    (on .s k0).clean [1] = true ∧ (on .s k0).cwRefused 0 .set 0x020 (2 ^ 32) = true ∧ (on .s k0).cwRefused 0 .set 0x020 (2 ^ 32 - 1) = false ∧
    -- a ring word, in the supervisor view
    (0x030 = ringSel .v) ∧ (on .s (kStat 1)).cwForbidden 0 0x030 true = false ∧ (on .s (kStat 1)).cwRefused 0 .set 0x030 0 = false := by
  and_intros <;> decide +kernel

/-! Launches, the mailbox, events and the fabric. -/

/-- A record of zeros at address 64, and one with a reserved bit. -/
theorem witness_LaunchLandsItsStatus :
    (on .s k0).sIssues m0 = true ∧ (on .s k0).clean [1] = true ∧ ((on .s (withS k0 [(1, 64)])).reg 1).toNat % 64 = 0 ∧
    0 < ((on .s k0).hub 0).qfree ∧
    (let r := (on .s (withS k0 [(1, 64)])).readBlock (.launch m0 2 1) 0 64 8
     r.2 = .ok 0 ∧ r.1.sIssues m0 = true ∧ r.1.focus = ⟨0, .s, 0, 0⟩) ∧
    ((on .s (withS k0 [(1, 64)])).reg 1).toNat < 2 ^ 48 ∧ (on .s k0).localAt 64 64 = some (.scratchpad 0, 64) ∧
    ((on .s k0).memAt (.scratchpad 0)).marked 64 64 = false ∧ 0 < ((on .s k0).hub 0).qfree ∧
    (((on .s k0).setHub 0 (hubWith (List.replicate 64 (launch0 5 .queued [])))).hub 0).qfree = 0 ∧
    launchReserved 0 = false ∧ launchReserved (BitVec.ofNat 512 (2 ^ 112)) = true ∧
    (let s := (on .s (withS k0 [(1, 64)])).modCore 0 (fun c => { c with sp := c.sp.write 64 64 (2 ^ 112) false })
     (s.readBlock (.launch m0 2 1) 0 64 8).2 = .ok (2 ^ 112)) := by
  and_intros <;> decide +kernel

theorem witness_YieldGivesWayOnlyWhenWanted : (on .s k0).sIssues m0 = true ∧ ((on .s k0).sIssued m0).wanted 0 = false := by
  and_intros <;> decide +kernel

/-- A mailbox with one place and with none, of a master core. -/
def mailOf (n : Nat) (v : Bool) : State :=
  (on .s k0).setCluster 0 { Cluster.reset with mail := List.replicate n ⟨5, 1, 0, 1, 6, v⟩ }
theorem witness_Mailbox :
    (mailOf 7 false).sIssues m0 = true ∧ (mailOf 7 false).clean [1] = true ∧ ((mailOf 7 false).cluster 0).mail.length < 8 ∧
    ((mailOf 7 false).cluster 0).mailWait = [] ∧ 8 ≤ ((mailOf 8 false).cluster 0).mail.length ∧ (mailOf 0 false).isMaster 0 = true ∧
    ((mailOf 0 false |>.modCluster 0 (fun c => { c with mailWait := [2, 0] })).cluster 0).mailWait.head? = some 2 ∧
    ((mailOf 2 true).cluster 0).mail.find? (fun e => e.visible && e.seq == (mailOf 2 true).me.seq) = some ⟨5, 1, 0, 1, 6, true⟩ ∧
    ((mailOf 2 false).cluster 0).mail.find? (fun e => e.visible && e.seq == (mailOf 2 false).me.seq) = none := by
  and_intros <;> decide +kernel

/-- A ring with room for five entries, and with room for four. -/
theorem witness_HostFabricAndGroupWords :
    (on .s (kStat 1)).sIssues m0 = true ∧ (on .s (kStat 1)).clean [1, 2] = true ∧ (on .s (kStat 1)).me.sv = true ∧
    5 ≤ (((on .s (kStat 1)).modHub 0 (fun h => h.setReg 0x20050 58)).hub 0).evFree ∧
    (((on .s (kStat 1)).modHub 0 (fun h => h.setReg 0x20050 59)).hub 0).evFree < 5 ∧
    (((on .s k0).sIssued m0).reg 1).toNat ≤ (on .s k0).ft ∧ (on .s k0).ft < (((on .s (withS k0 [(1, 1)])).sIssued m0).reg 1).toNat ∧
    ((16 : W64).toNat / 16 != 0) = true ∧ (on .s k0).groupBad 0 (2 ^ 63) = false ∧ (on .s k0).groupBad 0 (2 ^ 34) = true := by
  and_intros <;> decide +kernel

/-- No layout and one; no re-shard and one in flight. -/
def withLayout : State := (on .s k0).modDie 0 (fun d => { d with layouts := [⟨1, some 0⟩] })
def withReshard : State := (on .s k0).modDie 0 (fun d => { d with reshards := [⟨1, [], false, 0, none, false, 0, false, false, false, false, true, []⟩] })
theorem witness_LayoutWords :
    (on .s k0).sIssues m0 = true ∧ (on .s k0).clean [1, 2, 3] = true ∧ (on .s k0).reshardLive 1 = false ∧ (on .s k0).reg 1 = 0 ∧
    (withReshard.modBank 0 (fun k => k)).reshardLive 1 = true ∧ ((withLayout.die 0).layout 1).isSome = true ∧
    (withLayout.hub 0).installs.any (fun x => x.seq == 1) = false ∧ (withLayout.reg 1).toNat % 128 = 0 ∧
    (withLayout.reg 2).toNat / 512 = 0 ∧ (withLayout.die 0).resharding 1 = false ∧ (((on .s k0).die 0).layout 1).isNone = true := by
  and_intros <;> decide +kernel

/-- A layout over dies 0 and 1: width 2, one column to each, and 16 channels of FP32 in two heads, one to each; halo width 1. -/
def twoDies : Desc := BitVec.ofNat 1024 (16 + 2 * 2 ^ 32 + 2 ^ 64 + 2 ^ 96 + 2 ^ 128 + 2 ^ 160 + 2 ^ 192 + 2 ^ 238 +
  (0 + 1 * 4 + 2 * 16) * 2 ^ 256 + 2 ^ 264 + 2 * 2 ^ 296 + 2 ^ 312 + 2 ^ 328 + 256 * 2 ^ 400)
/-- The descriptor at 128 in the scratchpad; a launch of that job alone, and one of a job on each of the two dies. -/
def layselAt (x : Desc) (banks : List Nat) : State :=
  ((on .s (withS k0 [(1, 128)])).modCore 0 (fun c => { c with sp := c.sp.write 128 128 x.toNat false })).setHub 0
    (hubWith [launch0 1 .live (banks.map (fun b => ⟨0, b, .running, none⟩))])
theorem witness_LayselReadsItsDescriptor :
    ([(0, [0]), (twoDies, [0]), (twoDies, [0, 128])] : List (Desc × List Nat)).all (fun p =>
      let s := layselAt p.1 p.2
      s.sIssues m0 && s.clean [1] && s.reg 1 != 0 && (s.reg 1).toNat % 128 == 0 && s.localAt (s.reg 1).toNat 128 == some (.scratchpad 0, 128) &&
      !(s.memAt (.scratchpad 0)).marked 128 128 && BitVec.ofNat 1024 (s.bytesAt (.scratchpad 0) 128 128) == p.1) = true ∧
    Desc.valid 0 ((layselAt 0 [0]).die 0).dims = false ∧ twoDies.valid ((layselAt 0 [0]).die 0).dims = true ∧
    (twoDies.dies.foldl insertNat [] == (layselAt twoDies [0]).launchDies 1) = false ∧
    (twoDies.dies.foldl insertNat [] == (layselAt twoDies [0, 128]).launchDies 1) = true := by
  and_intros <;> decide +kernel

/-- A command of zeros, which is refused, and an all-reduce of one FP32 element by a group of the die alone, which is queued. -/
def goodPost : Rec := BitVec.ofNat 512 (0x400 * 2 ^ 64 + 0x800 * 2 ^ 128 + 0x0001000100010001 * 2 ^ 192 + 2 ^ 352)
theorem witness_CollectivePost :
    (on .s k0).sIssues m0 = true ∧ (on .s k0).isMaster 0 = true ∧ (on .s k0).clean [1] = true ∧ (64 : W64).toNat % 64 = 0 ∧
    (on .s k0).me.inRange 64 64 = true ∧ ((on .s k0).core 0).sp.marked 64 64 = false ∧ ((on .s k0).cluster 0).coll.length < 16 ∧
    ((on .s k0).sIssued m0).postError 0 0 ≠ 0 ∧
    (((on .s k0).modDie 0 (fun d => { d with groups := [(groupKey 1 0, 2 ^ 63)] })).sIssued m0).postError 0 goodPost = 0 := by
  and_intros <;> decide +kernel

/-- An image in the die's HBM, at an address that an aperture holds. -/
theorem witness_ReassemblySave :
    (let k := (withS { kAp with ctl := [(0, 1)] } [(1, 0x1000000)])
     let s := on .s k
     s.sIssues m0 = true ∧ s.me.sv = true ∧ s.clean [1] = true ∧ (s.reg 1).toNat % 256 = 0 ∧ (s.me.cw cwRASTAT).getLsbD 0 = false ∧
     s.imageTrap 0 0x1000000 (1 + 65 * (s.rasmOf 0).length) true = none ∧
     (match s.readImage 0 0x1000000 with
      | (u, .ok es) => u.sIssues m0 && u.focus == s.focus && decide ((s.die 0).rasm.length + es.length ≤ 256)
      | _ => false) = true) := by
  and_intros <;> decide +kernel

/-- A launch that a pre-empted one of its level waits for. -/
def kept0 : Kept := ⟨{ probeJob with seq := 2 }, [], 0, [], none, 0, ⟨0, [], []⟩, false, 0, none, [], none, []⟩
def yielder : State := (on .s k0).setHub 0 { Hub.reset with
  launches := [launch0 1 .live [⟨0, 0, .running, none⟩], launch0 2 .preempted [⟨0, 0, .saved, some kept0⟩]] }
theorem witness_YieldWhenWanted : yielder.sIssues m0 = true ∧ (yielder.sIssued m0).wanted 0 = true ∧
    yielder.launchOf yielder.me.seq = some (launch0 1 .live [⟨0, 0, .running, none⟩]) := by and_intros <;> decide +kernel

/-- A word that waits, one that traps, and one that issues. -/
theorem witness_RegisterWordsFrame : registerWord (.jr ⟨0x43, 0⟩ 5) = some ⟨0x43, 0⟩ ∧
    [on .s k0, on .s { withS k0 [(5, 4)] with flags := [(3, 1)] }, on .s { k0 with flags := [(3, 1)] }].all (fun s =>
      match exec (.jr ⟨0x43, 0⟩ 5) s with | .next _ => true | _ => false) = true := by
  and_intros <;> decide +kernel

theorem witness_CachedAccessesFrame : (memForm (.ld m0 ⟨1, 2, 5, false, 3, 0⟩)).isSome = true ∧
    2 ^ 24 ≤ ((on .s (withS kAp [(2, 0x1000000)])).reg 2).toNat ∧ ((on .s kAp).core 0).sp.wf = true ∧
    (match exec (.ld m0 ⟨1, 2, 5, false, 3, 0⟩) (on .s (withS kAp [(2, 0x1000000)])) with | .next _ => true | _ => false) = true := by
  and_intros <;> decide +kernel

/-! V words. -/

/-- Queues v1 to v4 each with one element, and masks that no operation writes. -/
def kV : Bank := { k0 with queues := [1, 2, 3, 4].map (fun q => (q, ⟨2, [⟨q, some (BitVec.ofNat 2048 q)⟩], .none, .none, 0, 0⟩)) }
/-- vd = 9, va = v1, vb = v2, vc = v3 of a type, under m1. -/
def vop (ty : EType) (sub : BitVec 8) : VOp := ⟨9, 1, 2, 3, ty, true, true, true, .rne, 1, sub⟩
def vop1 (ty : EType) (sub : BitVec 8) : VOp := ⟨9, 1, 0, 0, ty, true, false, false, .rne, 1, sub⟩
def vop2 (ty : EType) (sub : BitVec 8) : VOp := ⟨9, 1, 2, 0, ty, true, true, false, .rne, 1, sub⟩
def vopM (ty : EType) (sub : BitVec 8) : VOp := ⟨3, 1, 2, 0, ty, true, true, false, .rne, 1, sub⟩
/-- The word is well formed, has its shape, and may issue. -/
def vReady (i : Instr) : Bool :=
  i.wellFormed && (match vecShape i with | some f => (on .ve kV).vecIssues f | none => false)

theorem witness_VectorWordsIssue : ([.vadd m0 (vop2 .fp32 0), .vqmx m0 ⟨9, 1, 10, 0, .e4m3, false, false, false, .rne, 0, 0⟩,
    .vmovi m0 9 7, .vwelf m0 (vop .fp32 1), .vcvt m0 ⟨9, 1, 0, 3, .fp16, true, false, true, .sr, 1, 0⟩] : List Instr).all vReady = true := by
  decide +kernel

/-- The words of the other rules: a conversion, a function of each kind of type, a rotation, the scaling steps of softmax, and a
convolution; their value is a rule's. -/
theorem witness_WideWordsPushTheirRules : ([.vcvt m0 ⟨9, 1, 0, 3, .fp16, true, false, true, .sr, 1, 0⟩, .vexp2 m0 (vop1 .fp32 0),
      .vlog2 m0 (vop1 .fp16 0), .vrcp m0 (vop1 .fp32 0), .vrsq m0 (vop1 .bf16 0), .vsqrt m0 (vop1 .fp32 0), .vsin m0 (vop1 .fp32 0),
      .vcos m0 (vop1 .bf16 0), .vtanh m0 (vop1 .fp32 0), .vsigm m0 (vop1 .fp16 0), .vrope m0 (vop .fp32 0), .vrope m0 (vop .bf16 6),
      .vsmxNorm m0 (vop2 .fp32 1), .vsmxScale m0 (vop2 .fp32 2), .vdwc m0 (vop .fp16 0x7F)] : List Instr).all
    (fun i => vReady i && (wideWord (on .ve kV) i).isSome) = true := by decide +kernel

theorem witness_BlockWordsScaleTheirBlocks :
    ([.vqmx m0 ⟨9, 1, 10, 0, .e2m1, true, false, false, .rne, 0, 7⟩, .vqmx m0 ⟨9, 1, 10, 3, .e4m3, true, false, true, .sr, 0, 0⟩,
      .vqgi m0 ⟨9, 1, 10, 0, .i8, true, false, false, .rne, 0, 2⟩, .vqgi m0 ⟨9, 1, 10, 0, .i4, true, false, false, .rne, 0, 1⟩] : List Instr).all
      (fun i => vReady i && (blockWord i).isSome) = true ∧
    vReady (.vdqmx m0 ⟨9, 1, 2, 0, .fp32, true, true, false, .rne, 0, 0x33⟩) = true := by and_intros <;> decide +kernel

theorem witness_SoftmaxAndWelfordSteps : ([.vsmxStep m0 ⟨9, 1, 2, 10, .fp32, true, true, false, .rne, 1, 0⟩, .vwelf m0 (vop2 .fp32 0),
    .vwelf m0 (vop .fp32 1)] : List Instr).all vReady = true := by decide +kernel

/-- A half, minus 200 and three, which no special value covers and, of log2 and 1/x, no exact result. -/
theorem witness_NumbersAsTheManualStates :
    Fn.special .exp2 (fp32 0x3F000000) = none ∧ Val.lt (fp32 0x3F000000) (Val.ofInt (-160)) = false ∧
    Fn.special .exp2 (fp32 0xC3480000) = none ∧ Val.lt (fp32 0xC3480000) (Val.ofInt (-160)) = true ∧
    Fn.special .log2 (fp32 0x40400000) = none ∧ exactFp32 (log2Val (fp32 0x40400000)) = none ∧
    Fn.special .rcp (fp32 0x40400000) = none ∧ exactFp32 (Val.div (Val.ofInt 1) (fp32 0x40400000)) = none ∧
    Fn.special .tanh (fp32 0x3F000000) = none ∧ Fn.special .sigm (fp32 0x3F000000) = none := by and_intros <;> decide +kernel

theorem witness_PackedIntegers : ([.vpack m0 ⟨9, 1, 0, 0, .i3, true, false, false, .rne, 0, 2⟩, .vpack m0 ⟨9, 1, 0, 0, .i4, true, false, false, .rne, 0, 1⟩,
    .vunpk m0 ⟨9, 1, 0, 0, .i3, true, false, false, .rne, 0, 2⟩, .vunpk m0 ⟨9, 1, 0, 0, .i4, true, false, false, .rne, 0, 1⟩] : List Instr).all vReady =
    true := by decide +kernel

theorem witness_LaneWords : ([.vfma m0 (vop .fp32 0), .vimad m0 (vop .i8 1), .viota m0 ⟨9, 0, 0, 0, .i32, false, false, false, .rne, 1, 0x80⟩,
      .vperm m0 (vop .fp16 0)] : List Instr).all (fun i => vReady i && (laneWord i).isSome) = true ∧
    -- the rounded words, one of them under SR, and each mask word
    ([.vadd m0 (vop2 .fp32 0), .vsub m0 ⟨9, 1, 2, 3, .fp16, true, true, true, .sr, 1, 0x80⟩, .vmul m0 (vop2 .bf16 0),
      .vcmp m0 (vopM .fp32 7), .vicmp m0 (vopM .i32 5), .vmaskp m0 ⟨3, 1, 0, 0, .n32, true, false, false, .rne, 1, 0⟩, .vmaskp m0 (vopM .n32 1),
      .vzcmp m0 ⟨9, 1, 0, 3, .fp32, true, false, false, .rne, 1, 0⟩, .vzexp m0 (vop1 .fp32 0), .vsel m0 (vop2 .fp32 0),
      .vmovi m0 9 0xFFFFFFFF] : List Instr).all vReady = true := by
  and_intros <;> decide +kernel

theorem witness_ReductionTree : vReady (.vred m0 (vop1 .fp32 0)) = true ∧ vReady (.vred m0 (vop1 .i8 5)) = true := by
  and_intros <;> decide +kernel

theorem witness_ScanNetwork : vReady (.vscan m0 (vop1 .bf16 2)) = true := by decide +kernel

/-- Base registers at the ends of the scratchpad and of the address space: v1 holds 0x7FF00, v2 2^48 - 1 and v3 2^48. -/
def kVm : Bank := { k0 with queues := [(1, ⟨2, [⟨1, some 0x7FF00⟩], .none, .none, 0, 0⟩), (2, ⟨2, [⟨1, some 0xFFFFFFFFFFFF⟩], .none, .none, 0, 0⟩),
  (3, ⟨2, [⟨1, some 0x1000000000000⟩], .none, .none, 0, 0⟩), (4, ⟨2, [⟨1, some 0⟩], .none, .none, 0, 0⟩)] }
theorem witness_VectorMemoryWords :
    (on .va kVm).focus.point = .va ∧
    (on .va kVm).eIssues m0 [(1, true)] [9] = true ∧ (on .va kVm).checkV 0 256 64 false [0x7FF00] = none ∧
    (0x7FF00 : Int) = (((kVm.headOf 1).toNat % 2 ^ 64 : Nat) + 64 * 0 + 64 * (0 : BitVec 8).toInt * 0) % 2 ^ 64 ∧
    (0xFFFFFFFFFFFF : Int) = (((kVm.headOf 2).toNat % 2 ^ 64 : Nat) + 64 * 0 + 64 * (0 : BitVec 8).toInt * 0) % 2 ^ 64 ∧
    (0x1000000000000 : Int) = (((kVm.headOf 3).toNat % 2 ^ 64 : Nat) + 64 * 0 + 64 * (0 : BitVec 8).toInt * 0) % 2 ^ 64 ∧
    (on .va kVm).eIssues m0 [(1, true), (4, false)] [] = true ∧ (on .va kVm).windowAt 0 0x7FF00 = none ∧
    -- a message window, its reserved bits, and a bank with four packets open
    (on .va (kWin 0x2000000)).windowAt 0 0x2000000 = some (0, 0) ∧ winReserved 0 = false ∧
    (on .va (kWin 0x2000000)).me.winFull (winKey 0 0) 256 = false ∧ (on .va (kWin 0x2000080)).windowAt 0 0x2000080 = some (0, 0x80) ∧
    winReserved 0x80 = true ∧
    (on .va { kWin 0x2000000 with openPkts := [⟨1, [], 0⟩, ⟨2, [], 0⟩, ⟨3, [], 0⟩, ⟨4, [], 0⟩] }).me.winFull (winKey 0 0) 256 = true ∧
    (on .va kVm).windowAt 0 0x1000000000000 = none ∧ (on .va kVm).checkV 0 256 64 true [0x7FF00] = none ∧
    (on .va kVm).eIssues m0 [(4, false)] [9] = true ∧
    (let eas := (List.range 64).map (fun n => (0 + 256 * 0 + 4 * laneOf .n32 (kVm.headOf 4) n) % 2 ^ 64)
     (on .va kVm).checkV 0 4 4 false eas = none ∧ (on .va kVm).checkV 0 4 4 true eas = none) ∧
    (on .va kVm).eIssues m0 [(4, false), (1, false)] [] = true := by
  and_intros <;> decide +kernel

theorem witness_QueueControlWords :
    (on .ve k0).eIssues m0 [] [] = true ∧ (k0.queue 2).slots = [] ∧ (k0.queue 2).prod = .none ∧ (k0.queue 2).cons = .none ∧
    ((qWith (some 7)).queue 2).slots ≠ [] ∧ ((qWith (some 7)).queue 2).reserved = 0 ∧ ((qWith none).queue 2).reserved ≠ 0 ∧
    (on .ve kV).eIssues m0 (vABC (vop .fp32 0)) [] = true ∧ (on .ve kV).me.maskBusy 1 = false ∧
    -- no head slot; one whose rows lie where no aperture is
    (on .ve kV).headSlot 0 0 = none ∧
    (let h : HeadSlot := ⟨BitVec.ofNat 512 (0x1000000 + 2 ^ 52 + 0x2000000 * 2 ^ 64 + 256 * 2 ^ 128 + 0x3000000 * 2 ^ 160), 0, 1⟩
     let s := (on .ve kV).modCluster 0 (fun c => { c with heads := [(0, h)] })
     s.headSlot 0 0 = some h ∧ s.eIssues m0 (vABC (vop .fp32 0)) [] = true ∧
     (s.checkKst 0 h .fp32 (s.me.headOf 1) (s.me.headOf 3) [0]).isSome = true) := by
  and_intros <;> decide +kernel

/-- VLOOP at position 0 of the V ring with an end word at position n + 1. -/
def loopAt (n : Nat) : State :=
  let s := on .ve (k0.setCw 0x030 (ringOf 0 (n + 2) 0))
  s.modCore 0 (fun c => { c with
    sp := (c.sp.write 0x400 8 0x0000702000000000 false).write (0x400 + 8 * (n + 1)) 8 0x0000720000000000 false
    ringed := (List.range (n + 2)).map (fun i => 0x80 + i) })
/-- The loop of pass 1 of two stages and four words, at its break or end word. -/
def kLoop : Bank := { (k0.setCw 0x030 (ringOf 2 8 0)).setCw cwVLOOPC 5 with vloop := some ⟨0, 4, 2, 0, 1, 1, [(1, 1)], none, false, false⟩ }
theorem witness_RingLoops :
    loopForm (.vloop m0 1 5) = some (.v, m0, 1, 5) ∧ (loopAt 4).focus.point = loopPoint .v ∧ (loopAt 4).eIssues m0 [] [] = true ∧
    (loopAt 4).me.engLoop .v = none ∧ (on .m k0).me.mReady = true ∧ encode (.vloop m0 1 5) = some (.v, 0x0000702000000005) ∧
    ([0, 3, 4].all fun n => (loopAt n).bodyFrom 0 .ve 0 0 (ringAhead ((loopAt n).me.ring .v) 0 - 1) == some n) = true ∧
    ((loopAt 4).me.cw (loopSSel .v)).getLsbD 2 = false ∧ (loopAt 4).me.preempting = false ∧
    -- PRE set; the end word still to come; inside a loop
    (((loopAt 4).modBank 0 (fun k => k.setCw (loopSSel .v) 4)).me.cw (loopSSel .v)).getLsbD 2 = true ∧
    (on .ve k0).me.engLoop .v = none ∧ (on .ve k0).bodyFrom 0 .ve 0 0 (ringAhead ((on .ve k0).me.ring .v) 0 - 1) = none ∧
    -- breaks and ends, outside a loop and in one; the flag at 0 and at 1
    breakForm (.vlbrk m0 5) = some (.v, m0, 5) ∧ endForm (.vend m0) = some (.v, m0) ∧ (on .ve k0).me.inLoop .ve = none ∧
    encode (.vlbrk m0 5) = some (.v, 0x0000710000000005) ∧ encode (.vend m0) = some (.v, 0x0000720000000000) ∧
    (on .m { k0 with ops := [{ op1 with point := .m, todo := .mlease }] }).me.mReady = false ∧
    ((on .ve kLoop).me.inLoop .ve).isSome = true ∧ (on .ve kLoop).eIssues m0 [] [] = true ∧
    ((on .ve kLoop).eIssued m0 [] []).me.flagSeen 0 5 = 0 ∧ ((on .ve { kLoop with flags := [(5, 1)] }).eIssued m0 [] []).me.flagSeen 0 5 = 1 ∧
    ([(1, 1)] : List (Nat × Nat)).find? (fun x => x.1 == 2) = none ∧ kLoop.preempting = false ∧ fld (kLoop.cw (loopCSel .v)) 0 24 ≠ 0 := by
  and_intros <;> decide +kernel

/-! C and M words. -/

/-- A map of rank 2: base, type code, extents, stride and box. -/
def mapRec (base ty e0 e1 st b0 b1 : Nat) : Rec :=
  BitVec.ofNat 512 (base + ty * 2 ^ 48 + 2 ^ 52 + e0 * 2 ^ 64 + e1 * 2 ^ 96 + st * 2 ^ 192 + (b0 - 1) * 2 ^ 312 + (b1 - 1) * 2 ^ 324)
def kMaps (l : List (Nat × Rec)) : Bank := { k0 with maps := l }
def copies : State := on .c (kMaps [(1, mapRec 0x1000 0 64 4 256 64 4), (2, mapRec 0x2000 0 64 4 256 64 4)])

/-- CCOPY of two sound boxes, and of an unset map. -/
theorem witness_CopyCommandsCheckThenStart :
    (match copyForm copies (.ccopy m0 1 2 true false false) with | some f => copies.cIssues f && firstFailed f.checks == none | none => false) = true ∧
    (match copyForm copies (.ccopy m0 1 3 true false false) with | some f => copies.cIssues f && firstFailed f.checks == some (0x0B, 3) | none => false) = true ∧
    (match copyForm (on .c kV) (.ckrelTrunc m0 1 0) with | some f => (on .c kV).cIssues f && (firstFailed f.checks).isSome | none => false) = true := by
  and_intros <;> decide +kernel

/-- CHALO of one frame, row and column of 16 channels of FP32, on a layout of halo width 1, at a die-level domain. -/
def haloing : State :=
  let r := BitVec.ofNat 512 (0x1000 + 3 * 2 ^ 52 + 16 * 2 ^ 64 + 2 ^ 96 + 2 ^ 128 + 2 ^ 160 + 15 * 2 ^ 312)
  let b := BitVec.ofNat 512 (0x2000 + 0xA * 2 ^ 48 + 1024 * 2 ^ 64)
  (on .c ((kMaps [(1, r), (2, b)]).setCw (cwDOM + 1) (2 ^ 63))).modDie 0 (fun d => { d with layouts := [⟨1, some twoDies⟩] })
def kBound : Bank := { kMaps [(1, mapRec 0x1000 0 64 4 256 64 4)] with
  ops := [⟨7, .c, 0, 0, 0, 0, .bind 1 4 none 0 (mapRec 0x1000 0 64 4 256 64 4), [], none, false⟩], queues := [(4, ⟨2, [], .stream, .none, 0, 0⟩)] }
/-- A side that nothing binds, one that CBIND binds; CHALO with no layout, and with no face to send. -/
theorem witness_BindingsAndHalos :
    (on .c k0).eIssues m0 [] [] = true ∧ (on .c k0).me.cReady [] [] = true ∧
    (on .c k0).me.ops.filter (fun o => (true && o.bindsProd 4) || (false && o.bindsCons 4)) = [] ∧
    (on .c kBound).me.ops.filter (fun o => (true && o.bindsProd 4) || (false && o.bindsCons 4)) = kBound.ops ∧
    (on .c kBound).eIssues m0 [] [] = true ∧ (on .c kBound).me.cReady [] [] = true ∧
    ({ op1 with todo := .bind 1 4 none 0 0, parked := true } : Op).parked = true ∧
    copies.eIssues m0 [] [] = true ∧ copies.me.cReady [1, 2] [] = true ∧ (firstFault (copies.haloChecks 1 2 3)).isSome = true ∧
    haloing.eIssues m0 [] [] = true ∧ haloing.me.cReady [1, 2] [] = true ∧ firstFault (haloing.haloChecks 1 2 3) = none ∧
    haloing.me.halo.got = [] ∧ kBound.ops.all (fun o => !o.parked) = true ∧ (∀ j n g c, kBound.blocked ≠ some ⟨.fence j n, g, c⟩) ∧
    kBound.ops.all (fun o => match o.todo with | .peer _ _ _ _ linked => !linked | _ => true) = true := by
  refine ⟨?_, ?_, ?_, ?_, ?_, ?_, ?_, ?_, ?_, ?_, ?_, ?_, ?_, ?_, ?_, (by intro j n g c h; cases h), ?_⟩ <;> decide +kernel

/-- A bank with a lease and the grant of its cluster's array, its maps in the scratchpad, and a valid format entry. -/
def kLease : Bank := { kMaps [(0, mapRec 0x1000 0xA 128 1 128 128 1), (1, mapRec 0x2000 3 256 4 256 256 4), (2, mapRec 0x4000 0xA 8 4 8 8 4),
    (3, mapRec 0x5000 3 256 4 256 256 4), (4, mapRec 0x6000 2 256 4 512 256 4)] with leaseHeld := true, fmt := [(0, 0x33)] }
def leased : State := (on .m kLease).modArray 0 (fun a => { a with grant := some 0, plane0 := { Plane.empty with tag := 5, valid := true } })
def mOk (s : State) (i : Instr) : Bool :=
  let s := arrayState s i
  match matrixChecks s i with
  | some (m, cs) => s.eIssues m [] [] && s.me.mReady && matrixReady s i && firstFailed cs == none
  | none => false

theorem witness_MatrixWordsIssue :
    (match matrixChecks (on .m k0) (.mrel m0) with
     | some (m, cs) => (on .m k0).eIssues m [] [] && (on .m k0).me.mReady && matrixReady (on .m k0) (.mrel m0) &&
       firstFailed cs == some (0x0C, 3)
     | none => false) = true ∧
    mOk (on .m k0) (.mlease m0) = true ∧
    ([.mrel m0, .mfmt m0 0, .mscale m0 2 3, .mbld m0 1 7 0, .mbsel m0 5, .mzero m0 3 255 0, .mdrain m0 0 4 false 0 .rne .bf16 3 0 false false,
      .mma m0 0 1 false 5 0 0 3 0 true false, .mdrain m0 0 5 true 0 .rne .fp32 3 0 false false] : List Instr).all (mOk leased) = true ∧
    (∀ j n g c, leased.me.blocked ≠ some ⟨.fence j n, g, c⟩) ∧
    (let s := arrayState leased (.mbsel m0 4)
     match matrixChecks s (.mbsel m0 4) with
     | some (m, cs) => s.eIssues m [] [] && s.me.mReady && matrixReady s (.mbsel m0 4) && (firstFailed cs).isNone
     | none => false) = true ∧
    leased.me.arrayBusy = false ∧
    -- an array command in flight; the slot of MBSEL in the active plane, with no M word in flight
    (leased.modBank 0 (fun k => { k with ops := [{ op1 with point := .m, todo := .mbsel 5 }] })).me.arrayBusy = true ∧
    leased.me.ops.all (fun o => o.point != .m) = true ∧
    (leased.cluster 0).planeCurrent (leased.cluster 0).array.activePlane 5 false = true := by
  refine ⟨?_, ?_, ?_, (by intro j n g c h; cases h), ?_, ?_, ?_, ?_, ?_⟩ <;> decide +kernel

theorem witness_MatrixRowsAccumulate : (0 : Nat) < 1 ∧ (3 : Nat) < 4 ∧ ((leased.tile 0 0).row (255 + (1 - 1))).length = 256 := by
  and_intros <;> decide +kernel

/-! Events. -/

/-- A state with a launch of one job on bank 0. -/
def withJob (k : Bank) (ph : PlacePhase) (lp : LaunchPhase) : State :=
  (on .s k).setHub 0 { Hub.reset with launches := [launch0 1 lp [⟨0, 0, ph, none⟩]] }

/-- One increment of f5 that is due: its flag is one below its limit, and at it; and one that waits for a store. -/
def kFlag (v : Nat) : Bank := { k0 with flags := [(5, BitVec.ofNat 16 v)], incs := [⟨5, 0, .c, false, false⟩] }
theorem witness_FlagUnitCountsItsIncrements :
    (∀ f, (kFlag 65534).flag f + (((kFlag 65534).incs.filter ((kFlag 65534).applies 0)).filter (fun i => i.flag == f)).length ≤ 65535) ∧
    (kFlag 65535).incs.filter ((kFlag 65535).applies 0) = [⟨5, 0, .c, false, false⟩] ∧ (kFlag 65535).flag 5 = 65535 ∧
    ({ k0 with pend := [storing] } : Bank).applies 1 ⟨5, 1, .s, false, false⟩ = false ∧ k0.applies 1 ⟨5, 1, .s, false, false⟩ = true := by
  refine ⟨fun f => ?_, by decide +kernel, by decide +kernel, by decide +kernel, by decide +kernel⟩
  by_cases h : 5 = f
  · subst h; decide +kernel
  · simp [kFlag, Bank.flag, SMap.get, SMap.find?, h]

/-- Taken, discarded, and held for a saved job. -/
theorem witness_RemoteIncrementsArrive :
    ((on .s k0).bank 0).started = true ∧ ((some 1 : Option Nat) == some ((on .s k0).bank 0).seq) = true ∧
    ((on .s k0).bank 2).started = false ∧ (on .s k0).savedOn 2 1 = false ∧
    (withJob Bank.reset .saved .preempted).savedOn 0 1 = true ∧ ((withJob Bank.reset .saved .preempted).bank 0).started = false ∧
    ((withJob Bank.reset .saved .preempted).die 0).heldIncs.length < 1024 ∧
    1024 ≤ ((withJob Bank.reset .saved .preempted).modDie 0 (fun d => { d with heldIncs := List.replicate 1024 ⟨0, 5, some 1, 0, 2⟩ })
      |>.die 0).heldIncs.length ∧
    ({ on .s k0 with incs := [⟨0, 5, some 1, 0, 2⟩] } : State).incs[0]? = some ⟨0, 5, some 1, 0, 2⟩ := by
  and_intros <;> decide +kernel

/-- A result of s5 in the cycle after its issue, alone and beside another of s5; an operation of one slot that is ready. -/
def fill1 : Op := ⟨7, .ve, 0, 0x45, 0, 0, .none, [.fill 2 1 9], none, false⟩
def kOps : Bank := { qWith none with ops := [fill1] }
theorem witness_ResultsAndOperationsComplete :
    (∀ j n g a, k0.blocked ≠ some ⟨.fence j n, g, a⟩) ∧ pend5 ∈ ({ k0 with pend := [pend5] } : Bank).pend ∧
    (∀ q ∈ ({ k0 with pend := [pend5] } : Bank).pend, q.id = pend5.id → q = pend5) ∧ pend5.dest = .reg 5 ∧ pend5.landed = false ∧
    pend5.issued < 1 ∧ pend5.page = none ∧ pend5.denied = none ∧
    (∃ q ∈ ({ k0 with pend := [pend5, { pend5 with id := 10 }] } : Bank).pend, q.dest = .reg 5 ∧ q ≠ pend5 ∧ q.landed = false) ∧
    kOps.ops.find? (fun x => x.id == 7) = some fill1 ∧ fill1.todo = .none ∧ fill1.ready ≤ 0 ∧ fill1.parked = false ∧ kOps.held = [] ∧
    (∀ e ∈ fill1.effs, ∃ q i x, e = .fill q i x) := by
  refine ⟨(by intro j n g a h; cases h), ?_, ?_, rfl, rfl, by decide, rfl, rfl, ⟨{ pend5 with id := 10 }, by decide +kernel⟩,
    by decide +kernel, rfl, by decide, rfl, rfl, ?_⟩
  · decide +kernel
  · decide +kernel
  · intro e h
    simp only [fill1, List.mem_cons, List.not_mem_nil, or_false] at h
    exact ⟨2, 1, 9, h⟩

/-- A state of bank 0 with one operation, and queue v1 with a slot to fill; every memory is as at reset. -/
def working (p : Point) (w : Work) : State :=
  on .s { k0 with ops := [{ op1 with point := p, todo := w }], queues := [(1, ⟨2, [⟨40, none⟩], .none, .none, 0, 0⟩)] }
def opAt (p : Point) (w : Work) : Op := { op1 with point := p, todo := w }
theorem working_clean (p : Point) (w : Work) (runs : List (Nat × Loc × Nat)) : (working p w).cleanRuns 0 runs := by
  intro u x _
  cases u <;> rfl
/-- A sound map of 64 FP32 elements in four rows; the last one has a zero bitmap. -/
def mapA : Rec := mapRec 0x1000 0 64 4 256 64 4
def mapB : Rec := mapRec 0x400000 0 64 4 256 64 4
def mapZ : Rec := mapA ||| (1#512 <<< 61) ||| (1#512 <<< 488)
def rowOf : Work := .mdrain 0 (mapRec 0x5000 3 256 4 256 256 4) (mapRec 0x4000 0xA 8 4 8 8 4) none .e4m3 .rne 4 0 true 3

/-- Runs of the scratchpad between two addresses hold only bytes between them. -/
def runsWithin (lo hi : Nat) (runs : List (Nat × Loc × Nat)) : Bool :=
  runs.all (fun r => match r.2.1 with | .ea a => decide (lo ≤ a) && decide (a + r.2.2 ≤ hi) | .die .. => false)
theorem runsHold_within {b lo hi x : Nat} {u : Store} {runs : List (Nat × Loc × Nat)} (h : runsWithin lo hi runs = true) (hi' : hi ≤ 0x80000)
    (hx : runsHold b runs u x) : lo ≤ x ∧ x < hi := by
  obtain ⟨so, a, n, i, hm, hn, hp⟩ := hx
  have := List.all_eq_true.mp h _ hm
  simp only [Bool.and_eq_true, decide_eq_true_eq] at this
  rw [localPlace, if_pos (by omega)] at hp
  simp only [Option.some.injEq, Prod.mk.injEq] at hp
  omega

/-- The ends of the scratchpad and the start of shared memory; boxes of four rows; a zero bitmap behind its data; the last row of a drain. -/
theorem witness_OperationsMoveTheirBytes :
    -- the last 256 bytes of the scratchpad; the shared memory
    ([(.va, .vld 0x7FF00 1 40), (.va, .vgath (List.replicate 64 0x7FFFC) 1 40)] : List (Point × Work)).all (fun (p, w) =>
      (working p w).performs 0 (opAt p w) && (match loadOf w with
        | some (runs, _, _) => decide (runs.length ≤ 64) && (working p w).ownRuns 0 runs
        | none => false)) = true ∧
    ([(.va, .vst 0x7FF00 9), (.va, .vscat (List.replicate 64 0x400000) 9), (.c, .fill mapA 9)] : List (Point × Work)).all (fun (p, w) =>
      (working p w).performs 0 (opAt p w) && (match storeOf (opAt p w) with
        | some (runs, _) => (working p w).ownRuns 0 runs && (working p w).memWf
        | none => false)) = true ∧
    ([(.c, .copy mapA mapB false), (.c, .gather mapA mapB [3, 0]), (.c, .scatter mapA mapB [3, 0])] : List (Point × Work)).all (fun (p, w) =>
      (working p w).performs 0 (opAt p w) && (match moveOf (opAt p w) with
        | some (r, d, src, dst) => !mapZc r && !mapZc d && (working p w).memWf && (working p w).ownRuns 0 src && (working p w).ownRuns 0 dst
        | none => false)) = true ∧
    (∀ p w runs, (working p w).cleanRuns 0 runs) ∧
    (let s := working .c (.zc mapZ)
     let gs := granules mapZ none
     s.performs 0 (opAt .c (.zc mapZ)) = true ∧ gs.length = 16 ∧ s.ownRuns 0 (gs.map (fun l => (0, l, 64))) = true ∧
     s.ownRuns 0 (gs.map (fun l => (0, zcByte mapZ l, 1))) = true) ∧
    (∀ u x, runsHold 0 ((granules mapZ none).map (fun l => (0, zcByte mapZ l, 1))) u x →
      ¬runsHold 0 ((granules mapZ none).map (fun l => (0, l, 64))) u x) ∧
    (let s := working .m rowOf
     s.performs 0 (opAt .m rowOf) = true ∧ s.me.rowBusy 7 0 3 = false ∧ (s.core 0).tileErr.contains (0, 3) = false ∧
     s.ownRuns 0 (boxPart (mapRec 0x5000 3 256 4 256 256 4) none (32 * 8 * 3) (32 * 8 * 4)) = true ∧
     s.ownRuns 0 (boxPart (mapRec 0x4000 0xA 8 4 8 8 4) none 24 32) = true) ∧
    -- accesses that all succeed, and one at the hole behind the scratchpad
    (((working .va (.vst 0x7FF00 9)).accessOf 0 (opAt .va (.vst 0x7FF00 9))).map (fun x => x.2.isNone)) = some true ∧
    (((working .va (.vst 0x80000 9)).accessOf 0 (opAt .va (.vst 0x80000 9))).map (fun x => match x.2 with
      | some (.fault c _) => c | _ => 0)) = some 0x05 := by
  refine ⟨?_, ?_, ?_, working_clean, ?_, ?_, ?_, ?_, ?_⟩
  case refine_5 =>
    intro u x h h'
    have h := runsHold_within (lo := 0x2000) (hi := 0x2002) (by decide +kernel) (by omega) h
    have h' := runsHold_within (lo := 0x1000) (hi := 0x1400) (by decide +kernel) (by omega) h'
    omega
  all_goals decide +kernel
theorem witness_FetchingAhead :
    k0.running = true ∧ (kRing 0 1 0).running = true ∧ (on .s (kRing 0 1 0)).fetchable 0 .ve ≠ 0 ∧
    ((on .s (kRing 0 1 0)).modCore 0 (fun c => { c with ringed := [ringAddr ((kRing 0 1 0).ring .v) 0 / 8] })).ringSpoilt 0 .ve
      ((kRing 0 1 0).pointPos .ve) = false ∧
    (kRing 0 1 0).ringBuf.find? Point.ve.index = none ∧ k0.fetched.any (fun x => x.1 == k0.pc.toNat) = false ∧
    ((on .s k0).fetchWord 0 0).2 = .word 0 false ∧ ((on .s k0).fetchWord 0 0x80000).2 = .trap ⟨0x05, 0x80000⟩ := by
  and_intros <;> decide +kernel

def kWait (b : SBlock) (v : Nat) : Bank :=
  { k0 with blocked := some ⟨b, 0, 0⟩, waiters := [⟨.s, 5, 0, 2, 0, none, none⟩], flags := [(5, BitVec.ofNat 16 v)] }
/-- A WAITF of 2 counts on f5 at 2 and at 1, a PARK at 1 and at 0, an FTIME.until and a PHASE. -/
theorem witness_WaitsEnd :
    (kWait (.waitf 3 5 2 false) 2).blocked = some ⟨.waitf 3 5 2 false, 0, 0⟩ ∧
    (kWait (.waitf 3 5 2 false) 2).waiterOf .s = some ⟨.s, 5, 0, 2, 0, none, none⟩ ∧
    (kWait (.waitf 3 5 2 false) 2).judgedAt 0 .s = false ∧ (kWait (.waitf 3 5 2 false) 2).pendingReg 3 = false ∧ (kWait (.waitf 3 5 2 false) 2).parked = [] ∧
    (kWait (.waitf 3 5 2 false) 2).freeze = none ∧ 2 ≤ (kWait (.waitf 3 5 2 false) 2).flag 5 ∧
    (kWait (.waitf 3 5 2 false) 2).overtakes 0 .s 5 0 = false ∧ (kWait (.waitf 3 5 2 false) 1).flag 5 < 2 ∧
    (kWait (.park 5) 1).blocked = some ⟨.park 5, 0, 0⟩ ∧ 1 ≤ (kWait (.park 5) 1).flag 5 ∧ (kWait (.park 5) 0).flag 5 = 0 ∧
    (kWait (.park 5) 1).overtakes 0 .s 5 0 = false ∧ (kWait (.ftime 3 9) 0).blocked = some ⟨.ftime 3 9, 0, 0⟩ ∧
    (kWait (.phase 1) 0).blocked = some ⟨.phase 1, 0, 0⟩ := by
  and_intros <;> decide +kernel

/-- A limit of 0, the last cycle within the limit of 1 and the one after it; S in a word that resumes at EPC and in one that does not. -/
theorem witness_WatchdogBites :
    (k0.cw cwWDOG).toNat % 2 ^ 24 = 0 ∧ ((k0.setCw cwWDOG 1).cw cwWDOG).toNat % 2 ^ 24 = 1 ∧ 1024 ≤ k0.idleSince + 1 * 1024 ∧
    k0.idleSince + 1 * 1024 < 1025 ∧ (kWait (.phase 1) 0).resumable = false ∧ (kWait (.phase 1) 0).blocked ≠ none ∧ k0.parked = [] ∧ k0.freeze = none ∧ k0.blocked = none ∧ probeJob.phase = .running ∧
    k0.job = some probeJob ∧
    -- a word that resumes; all four streams at the rendezvous
    (kWait (.waitf 3 5 2 false) 0).resumable = true ∧
    (let k : Bank := { k0.closeRings with blocked := some ⟨.rendez 0, 0, 0⟩ }
     k.atRendezvous .v = true ∧ k.atRendezvous .c = true ∧ k.atRendezvous .m = true) := by
  and_intros <;> decide +kernel

def kCevt : Bank := (k0.setCw cwSTAT 4).setCw cwCEVT 1
theorem witness_BoundariesTakeTraps :
    k0.atBoundary = true ∧ k0.ts = false ∧ k0.held = [] ∧ ({ k0 with reshardTrap := some 1 } : Bank).reshardTrap = some 1 ∧
    k0.reshardTrap = none ∧ kCevt.atBoundary = true ∧ kCevt.ts = false ∧ kCevt.eie = true ∧ kCevt.cw cwCEVT ≠ 0 ∧ k0.eie = false ∧
    ({ k0 with held := [(1, 2)] } : Bank).atBoundary = true ∧ Bank.reset.atBoundary = false ∧
    ({ k0 with preempt := true } : Bank).atBoundary = true ∧ k0.stopS = false ∧ k0.loopAct = false ∧ k0.preempt = false ∧
    (∀ d g a, k0.blocked ≠ some ⟨.yielded d, g, a⟩) ∧ k0.freeze = none ∧
    ({ k0 with freeze := some ⟨some .c, 0x0B, 3, 0, [], 0, 0, 0, 0⟩ } : Bank).settled = true ∧
    ({ k0 with freeze := some ⟨some .c, 0x0B, 3, 0, [], 0, 0, 0, 0⟩, ops := [op1] } : Bank).settled = false := by
  refine ⟨?_, ?_, ?_, ?_, ?_, ?_, ?_, ?_, ?_, ?_, ?_, ?_, ?_, ?_, ?_, ?_, (by intro d g a h; cases h), rfl, ?_, ?_⟩ <;> decide +kernel

theorem witness_LivesOfJobs :
    -- a placed job of a launch from the host
    (withJob { k0 with job := some { probeJob with phase := .placed } } .placed .live).launchOf 1 = some (launch0 1 .live [⟨0, 0, .placed, none⟩]) ∧
    lrGang 0 = false ∧ lrGang (BitVec.ofNat 512 16) = true ∧
    -- a job at the rendezvous, with nothing in flight; one that still streams; one that may be saved and one that may not
    ({ k0.closeRings with blocked := some ⟨.rendez 0, 0, 0⟩ } : Bank).retiring = true ∧
    ({ k0.closeRings with blocked := some ⟨.rendez 0, 0, 0⟩ } : Bank).awake = true ∧
    (on .s { k0.closeRings with blocked := some ⟨.rendez 0, 0, 0⟩ }).sentAll 0 = true ∧
    ({ k0 with blocked := some ⟨.rendez 0, 0, 0⟩ } : Bank).retiring = false ∧
    (on .s { k0 with stopS := true, blocked := some ⟨.tret, 0, 0⟩ }).maySave 0 = true ∧ (on .s k0).maySave 0 = false := by
  and_intros <;> decide +kernel

/-! Launches. -/

def hubOf (ls : List Launch) : State := (on .s k0).setHub 0 { Hub.reset with regs := [(0x20000, 1)], launches := ls }
theorem witness_HostSubmitsLaunches :
    (let s := (on .s k0).modDie 0 (fun d => { d with ready := 0x7F })
     (s.die (pkgDie 0 0)).isReady 6 = true ∧ 0 < (s.hub 0).qfree ∧ launchReserved 0 = false ∧ launchReserved (BitVec.ofNat 512 (2 ^ 112)) = true) ∧
    ((hubOf (List.replicate 64 (launch0 5 .queued []))).hub 0).qfree = 0 := by
  and_intros <;> decide +kernel

theorem witness_ZenithServesItsLaunches :
    (((on .s k0).hub 0).reg 0x20000).getLsbD 0 = false ∧
    -- a head before and at its aging period of 1,024 times 1,024 cycles
    ((hubOf [launch0 5 .queued []]).hub 0).level 0 = [launch0 5 .queued []] ∧
    max 1 ((((on .s k0).hub 0).reg 0x20010).toNat % 2 ^ 24) * 1024 = 1048576 ∧
    -- a launch that has ended; none of a number; a queued one and a live one; a pre-empted one whose banks are free
    ((hubOf [launch0 5 .ended []]).hub 0).launches.find? (fun x => x.seq == 5 && x.phase == .ended) = some (launch0 5 .ended []) ∧
    lrStaddr (launch0 5 .ended []).record % 64 = 0 ∧ State.reset.hostMem.wf = true ∧
    (0x200000 : BitVec 32).toNat / 2 ^ 21 ≠ 0 ∧ (5 : BitVec 32).toNat / 2 ^ 21 = 0 ∧ (hubOf []).launchOf 5 = none ∧
    (hubOf [launch0 5 .queued []]).launchOf 5 = some (launch0 5 .queued []) ∧
    (hubOf [launch0 1 .live [⟨0, 0, .running, none⟩]]).launchOf 1 = some (launch0 1 .live [⟨0, 0, .running, none⟩]) ∧
    ([(⟨0, 0, .running, none⟩ : Place)]).any (fun p => !p.over && !((on .s k0).bank p.bank).retiring) = true ∧
    (let l := launch0 5 .preempted [⟨0, 2, .saved, some kept0⟩]
     let s := hubOf [l]
     s.launchOf 5 = some l ∧ s.banksFree l [] = true ∧ (s.hub 0).level 0 = [l] ∧ (s.hub 0).stopped = false ∧
     ((s.hub 0).reg 0x20000).getLsbD 0 = true ∧ (∀ n, 0 < n → (s.hub 0).level n = []) ∧
     ∀ d, (s.die d).rasm.length + (l.jobs.map (fun p => ((s.die d).rasmKept.filter (fun e => e.bank == p.bank && e.seq == 5)).length)).sum ≤ 256) := by
  refine ⟨?_, ?_, ?_, ?_, ?_, ?_, ?_, ?_, ?_, ?_, ?_, ?_, ?_, ?_, ?_, ?_, ?_, ?_, ?_⟩
  case refine_18 => intro n h; simp [hubOf, launch0, State.hub, State.setHub, Hub.level, SMap.set, SMap.get, SMap.find?, on, State.reset]; omega
  case refine_19 => intro d; simp [hubOf, launch0, State.die, State.setHub, on, State.reset, SMap.get, SMap.find?, Die.reset]
  all_goals decide +kernel

/-! Pages, memory and dies. -/

/-- A paged entry of one 2-megabyte block at 2^24 whose root is table 0 of die 0. -/
def paged : BitVec 128 := BitVec.ofNat 128 (1 + 1 * 2 + 21 * 2 ^ 5 + 8 * 2 ^ 21)
/-- The same page with a translation in the buffer, and without one; a request for it of launch 1. -/
def kPaged (l : List TlbEntry) : Bank := { k0 with apertures := [paged], tlb := l, parked := [⟨0, 0x1000000, false, 0⟩] }
def page1 : PageReq := ⟨3, 0x1000000, false, 0, 1, 0x10007, 0, [0]⟩
def withReq (k : Bank) (r : PageReq) : State := (on .s k).modDie 0 (fun d => { d with requests := [r] })
theorem witness_PagesAndShootdowns :
    apFind ((on .s (kPaged [])).bank 0).apertures (0x1000000 : W64).toNat = some paged ∧ apPaged paged = true ∧
    ((on .s (kPaged [])).bank 0).started = true ∧
    (match (on .s (kPaged [])).translatePaged 0 0x1000000 (apRoot paged) true with | (_, .absent ..) => true | _ => false) = true ∧
    (match (on .s (kPaged [⟨0x100, 0, 0x51, true⟩])).translatePaged 0 0x1000000 (apRoot paged) true with | (_, .pa ..) => true | _ => false) = true ∧
    -- an answer with the request's tag and one with another; with no bank, and with one that waits
    ((withReq (kPaged []) page1).die 0).requests.find? (fun x => x.rqn == 3) = some page1 ∧
    page1.tag % 2 ^ 16 = (7 : BitVec 16).toNat ∧ page1.tag % 2 ^ 16 ≠ (8 : BitVec 16).toNat ∧ ({ page1 with banks := [] } : PageReq).banks = [] ∧
    page1.banks = [0] ∧ ((withReq (kPaged [⟨0x100, 0, 0x51, true⟩]) page1).bank 0).parked = [⟨0, 0x1000000, false, 0⟩] ∧
    page1.serves ⟨0, 0x1000000, false, 0⟩ = true ∧
    (match ((withReq (kPaged [⟨0x100, 0, 0x51, true⟩]) page1).takeRequestOf 0 3).translatePaged 0 0x1000000 0 false with
     | (u, .pa ..) => (u.bank 0).parked == [⟨0, 0x1000000, false, 0⟩] | _ => false) = true ∧
    -- no limit; a limit of 1, in the cycle before it ends and in that cycle
    (((withReq k0 page1).hub 0).reg 0x20038).toNat % 2 ^ 16 = 0 ∧
    ((((withReq k0 page1).setHub 0 { Hub.reset with regs := [(0x20038, 1)] }).hub 0).reg 0x20038).toNat % 2 ^ 16 = 1 ∧
    1048575 < page1.made + 1 * 2 ^ 20 ∧ page1.made + 1 * 2 ^ 20 ≤ 1048576 ∧
    -- a denial: an operation that waits for its page, and a result
    k0.freeze = none ∧ ({ k0 with ops := [op1] } : Bank).ops.find? (fun o => o.id == 7) = some op1 ∧
    k0.ops.find? (fun o => o.id == pend5.id) = none ∧ ({ k0 with pend := [pend5] } : Bank).pend = [pend5] ∧
    (0x8000 : W64).getLsbD 15 = true ∧ ((on .s k0).die 0).shootPend = [] ∧
    (((on .s k0).modDie 0 (fun d => { d with shootPend := [0] })).die 0).shootPend ≠ [] := by
  and_intros <;> decide +kernel

/-- Each read and atomic answers something; a line that the slice holds; a stopped scrubber and one at its reset period. -/
theorem witness_MemoryRequests :
    ((State.reset.modDie 0 (fun d => d.writeLine 1 7 1 0)).die 0).mscFind (256 / 256) ≠ none ∧
    (15 : BitVec 4).toNat > 9 ∧ (9 : BitVec 4).toNat ≤ 9 ∧ 2 ^ 39 - 1 < 2 ^ 39 ∧ 2 ^ 39 ≤ hostBase - 1 ∧ hostBase - 1 < hostBase ∧
    0x8000 ≤ (2 ^ 39 + 0x8FC0) % 2 ^ 30 ∧ (2 ^ 39 + 0x8FC0) % 2 ^ 30 < 0x9000 ∧ (2 ^ 39 + 0x8FC0) % 64 = 0 ∧
    (List.replicate 64 (0 : Byte)).length = 64 ∧
    -- a die whose Zenith unit is usable, and one whose is not
    ((State.reset.modDie 0 (fun d => { d with ready := 0x40 })).die (pkgDie 0 0)).isReady 6 = true ∧ (State.reset.die (pkgDie 0 0)).isReady 6 = false ∧
    ((State.reset.modDie 0 (fun d => d.setReg 0x10030 0)).die 0).reg 0x10030 = 0 ∧ (State.reset.die 0).reg 0x10030 = 24 ∧
    (∃ u v bad, (State.reset.die 0).homeRead 0 8 0 false 2 = (u, v, bad)) ∧
    (∃ u v bad, State.reset.physRead 0 0 8 0 false (8 / 256 + 2) = (u, v, bad)) ∧
    (∃ u l bad, State.reset.reduceLine 0 1 0 = (u, l, bad)) := by
  refine ⟨?_, ?_, ?_, ?_, ?_, ?_, ?_, ?_, ?_, ?_, ?_, ?_, ?_, ?_, ⟨_, _, _, rfl⟩, ⟨_, _, _, rfl⟩, ⟨_, _, _, rfl⟩⟩ <;> decide +kernel

/-- SWAP pending and not; a whole shadow table and one with an owner of no station; the cycle of the boundary and the one
before; BUSY; AINC; a table in use; a window of 4 deflections in 64 positions, and of 3. -/
def wholeTable : Die := { Die.reset with
  regs := (List.range 256).map (fun p => (0x10400 + 4 * p, BitVec.ofNat 64
    ((List.range 4).foldl (fun n l => n + (4 * p + l) % 96 * 256 ^ l) 0))) }
theorem witness_DieRegistersMove :
    ({ Die.reset with regs := [(0x10000, 2)] } : Die).reg 0x10000 = 2 ∧ Die.reset.reg 0x10000 = 0 ∧
    wholeTable.jsShadowOk = true ∧ Die.reset.jsShadowOk = false ∧ (512 - Die.reset.born) % 256 = 0 ∧ (511 - Die.reset.born) % 256 ≠ 0 ∧
    Die.reset.swapAt < 512 ∧ (512 : Nat) ≤ ({ Die.reset with swapAt := 512 } : Die).swapAt ∧
    (({ Die.reset with regs := [(0x10010, 16)] } : Die).reg 0x10010).getLsbD 4 = true ∧
    (0xFFFFFF : W64).toNat / 2 ^ 24 % 2 ^ 40 = 0 ∧ Die.reset.rsBusy 3 = false ∧
    (({ Die.reset with regs := [(0x30000, 0x1FFFF)] } : Die).reg 0x30000).getLsbD 16 = true ∧
    (Die.reset.reg 0x100010).toNat % 16 * 64 ≤ 16 * 16 ∧ 16 * 15 < (Die.reset.reg 0x100010).toNat % 16 * 64 ∧
    (Die.reset.reg 0x100010).toNat / 256 % 8 ≤ Die.reset.level := by
  and_intros <;> decide +kernel

/-- A die with every function, and one with none. -/
theorem witness_ControlSpaceAndPower :
    ctlFunction 0x3FFFFFF8 = none ∧ ctlFunction 0x10030 = some 0 ∧ ctlFunction 0x20028 = some 1 ∧ ctlFunction 0x100010 = some 5 ∧
    (State.reset.die 0).isReady 0 = false ∧
    (let s := State.reset.modDie 0 (fun d => { d with ready := 0x7F })
     (s.die 0).isReady 0 = true ∧ (s.die 0).isReady 1 = true ∧ (s.die 0).isReady 5 = true) ∧
    (65536 : W64) &&& ~~~(BitVec.ofNat 64 (ctlFields 0x10030)) ≠ 0 ∧ (65535 : W64) &&& ~~~(BitVec.ofNat 64 (ctlFields 0x10030)) = 0 ∧
    ((State.reset.hub 0).reg 0x50008).toNat % 16 ≤ 12 ∧ (State.reset.hub 0).power ≤ 12 ∧ (State.reset.hub 0).thermal ≤ 12 ∧
    (114 < 115 ∧ 115 ≤ 115) ∧
    (hubOf [launch0 5 .live []]).hubs = [(0, (hubOf [launch0 5 .live []]).hub 0)] ∧
    ((hubOf [launch0 5 .live []]).hub 0).launches = [launch0 5 .live []] := by
  and_intros <;> decide +kernel

/-! Agents of a cluster. -/

/-- A map of one element of FP32, at address 0. -/
def oneBox : Rec := BitVec.ofNat 512 (1 * 2 ^ 64)
def kStream (todo : Work) (n : Nat) (full : Bool) : Bank :=
  { k0 with
    maps := [(1, oneBox)]
    queues := [(1, ⟨1, if full then [⟨1, some 9⟩] else [], .none, .none, 0, 0⟩)],
    ops := [{ op1 with todo := todo, ready := n }] }
/-- Two cores' banks, each with a CPEER that names the other. -/
def peers (linked : Bool) (full : Bool) : State :=
  ((on .s (kStream (.peer true 1 2 1 linked) 0 true)).setBank 2 (kStream (.peer false 1 0 1 linked) 0 full))
def mail1 : MailEntry := ⟨7, 1, 2, 1, 5, false⟩
theorem witness_ClusterAgents :
    ((State.reset.modCluster 0 (fun c => { c with appends := [⟨0, 7, 0, 0, 0, 0⟩] })).cluster 0).appends[0]? = some ⟨0, 7, 0, 0, 0, 0⟩ ∧
    ({ k0 with leaseHeld := true, preempt := true } : Bank).leaseEnds = true ∧ k0.leaseEnds = false ∧ (∀ o ∈ k0.ops, o.todo ≠ .mlease) ∧
    (on .s { k0 with leaseHeld := true }).grantEnds 0 = true ∧ State.reset.nextHolder 0 = none ∧
    (on .s { k0 with ops := [{ op1 with todo := .mlease }] }).nextHolder 0 = some 0 ∧
    -- a plane load one cycle before its end, and at it, on each side
    ((State.reset.modCluster 0 (fun c => { c with array := { c.array with plane1 := { Plane.empty with loading := some 4 } } })).cluster 0).array.plane1.loading = some 4 ∧
    ((State.reset.modCluster 0 (fun c => { c with array := { c.array with plane0 := { Plane.empty with loading := some 4 } } })).cluster 0).array.plane0.loading = some 4 ∧
    (4 ≤ 4 ∧ 3 < 4) ∧
    -- a CBIND to a full and to a free queue; a CSINK with no element and with one
    (let o : Op := { op1 with todo := .bind 1 1 none 0 oneBox }
     let s := on .s (kStream (.bind 1 1 none 0 oneBox) 0 true)
     (s.bank 0).ops.find? (fun o => o.id == 7) = some o ∧ 0 ≤ s.cycle ∧ (s.bank 0).streamsMove = true ∧ s.behindOp 0 o = false ∧
     s.boxStop 0 o 1 0 oneBox = none ∧ ((s.bank 0).queue 1).depth ≤ ((s.bank 0).queue 1).occupied s.cycle ∧
     -- an element out of bounds; a box in the scratchpad of a core without the launch; a later element of that box
     (s.boxStop 0 o 1 0 0).isSome = true ∧ (s.boxStop 0 o 1 0 (BitVec.ofNat 512 (2 ^ 64 + 0x880000))).isSome = true ∧
     s.boxStop 0 o 1 1 (BitVec.ofNat 512 (2 ^ 64 + 0x880000)) = none) ∧
    (let s := on .s (kStream (.bind 1 1 none 0 oneBox) 0 false)
     ((s.bank 0).queue 1).occupied s.cycle < ((s.bank 0).queue 1).depth ∧
     (match s.runsRead 0 oneBox (boxPart oneBox none 0 256) with | (_, _, none) => true | _ => false) = true) ∧
    ((on .s (kStream (.sink 1 1 none 0 oneBox) 0 false)).bank 0 |>.queue 1).head = none ∧
    (let s := on .s (kStream (.sink 1 1 none 0 oneBox) 0 true)
     ((s.bank 0).queue 1).head = some 9 ∧ s.behindOp 0 { op1 with todo := .sink 1 1 none 0 oneBox } = false ∧
     (match s.runsWrite 0 oneBox (boxPart oneBox none 0 256) 9 with | (_, none) => true | _ => false) = true) ∧
    -- a link with nobody, one that forms, and one whose receiver is full and one whose receiver is free
    (on .s (kStream (.peer true 1 2 1 false) 0 true)).peerMatch 0 true 1 2 1 = none ∧
    (peers false false).peerMatch 0 true 1 2 1 = some { op1 with todo := .peer false 1 0 1 false } ∧
    (let s := peers true false
     (s.bank 0).ops.find? (fun o => o.id == 7) = some { op1 with todo := .peer true 1 2 1 true } ∧
     (s.otherEnd 0 { op1 with todo := .peer true 1 2 1 true }).isSome = true ∧ ((s.bank 0).queue 1).head = some 9 ∧
     (s.bank 0).streamsMove = true ∧ (s.bank 2).streamsMove = true ∧
     ((s.bank 2).queue 1).occupied s.cycle < ((s.bank 2).queue 1).depth ∧
     (((peers true true).bank 2).queue 1).depth ≤ (((peers true true).bank 2).queue 1).occupied s.cycle) ∧
    -- a mailbox entry before and in its cycle
    ((State.reset.modCluster 0 (fun c => { c with mail := [mail1] })).cluster 0).mail[0]? = some mail1 ∧ (4 < mail1.at_ ∧ mail1.at_ ≤ 5) ∧
    (∀ i d mode g a, i < 8 → ((on .s k0).bank (8 * 0 + i)).blocked ≠ some ⟨.mbrd d mode, g, a⟩) := by
  refine ⟨?_, ?_, ?_, ?_, ?_, ?_, ?_, ?_, ?_, ?_, ?_, ?_, ?_, ?_, ?_, ?_, ?_, ?_, ?_, ?_⟩
  case refine_20 =>
    intro i d mode g a h
    rcases i with _ | i
    · intro h; cases h
    · have : ((on .s k0).bank (8 * 0 + (i + 1))) = Bank.reset := by simp [on, State.bank, SMap.get, SMap.find?, State.reset]
      rw [this]; intro h; cases h
  all_goals decide +kernel

/-- R227: a map of two dimensions has a dimension between 0 and its rank. -/
theorem witness_AdvanceIsAnOdometer : 0 < 1 ∧ 1 < mapRank (BitVec.ofNat 512 (2 ^ 52)) := by and_intros <;> decide +kernel

/-! Layouts and the fabric. -/

/-- A face of two bytes in one part, packet 9 of die 1, and the part on its way and at die 0. -/
def face1 : HaloFace := ⟨128, 7, 1, 0, 0, 2, 0x100, 2, [(9, 0)], .good, 5, 2, 0, 0, 0, 0⟩
def part1 (st : PktStage) : Pkt := ⟨9, 1, 0, 9, 0, 0, 2, [1, 2], 0, 0, 128, 1, none, true, 9, st, none, 0⟩
def facing (f : HaloFace) (ps : List Pkt) : State := { on .s k0 with faces := [f], pkts := ps }
def reshard0 : Reshard := ⟨1, [(0, 0, 0, 0)], true, 0, none, false, 0, false, false, false, false, true, []⟩
/-- A launch of one job on die 0, with a re-shard record there. -/
def resharding (r : Reshard) : State := (withJob k0 .running .live).modDie 0 (fun d => { d with reshards := [r] })
theorem witness_LayoutsAndHalosMove :
    (State.reset.hub 0).installs = [] ∧
    (let s := (on .s { k0 with blocked := some ⟨.laysel 4, 0, 0⟩ }).modHub 0 (fun h => { h with installs := [⟨1, 0, 4, none⟩] })
     (s.hub 0).installs = ⟨1, 0, 4, none⟩ :: [] ∧ (s.bank 0).blocked = some ⟨.laysel 4, 0, 0⟩) ∧
    ((withJob k0 .running .live).launchDies 1).Nodup ∧ 0 ∈ (withJob k0 .running .live).launchDies 1 ∧
    -- a face none of whose parts has come; the first of two parts; the only part
    (facing face1 [part1 .travelling]).faces[0]? = some face1 ∧ (facing face1 [part1 .travelling]).faceParts face1 = [] ∧
    (let f : HaloFace := { face1 with parts := [(9, 0), (10, 2)] }
     let s := facing f [part1 .arrived]
     s.haloHeld f = false ∧ s.faceParts f = [part1 .arrived] ∧ ((s.faceParts f).foldl State.takePart (s, f)).2.parts = [(10, 2)]) ∧
    (facing face1 [part1 .arrived]).haloHeld face1 = false ∧ face1.fate = .good ∧ face1.parts = [((part1 .arrived).num, 0)] ∧
    (facing face1 [part1 .arrived]).faceParts face1 = [part1 .arrived] ∧ face1.addr + 0 < 2 ^ 24 ∧
    -- a face held for a saved job; one with no receiver; one inside the range and one across its end
    ({ withJob Bank.reset .saved .preempted with faces := [face1], pkts := [part1 .arrived] } : State).faces[0]? = some face1 ∧
    (withJob Bank.reset .saved .preempted).haloHeld face1 = true ∧ State.reset.haloHeld face1 = false ∧
    State.reset.haloReceiver face1.seq face1.die face1.member = none ∧
    (on .s k0).haloHeld face1 = false ∧ (on .s k0).haloReceiver face1.seq face1.die face1.member = some 0 ∧
    (on .s k0).haloPlace 0 0x7FFFE 2 = true ∧ (on .s k0).haloPlace 0 0x7FFFF 2 = false ∧
    -- a launch with no job; a report not made; one that may start, one that fails; one that runs, and whose rows are sent
    State.reset.reshardDies 1 = [] ∧ (resharding reshard0).reshardDies 1 = [(0, some reshard0)] ∧
    ({ reshard0 with reported := false } : Reshard).reported = false ∧ reshard0.reported = true ∧ reshard0.running = false ∧
    reshard0.ops = [(0, 0, 0, 0)] ∧ reshard0.bad = 0 ∧ ({ reshard0 with bad := 2 } : Reshard).bad ≠ 0 ∧
    (let r := { reshard0 with running := true, sentAll := true, newDesc := some 0 }
     (resharding r).reshardDies 1 = [(0, some r)] ∧ ((resharding r).launchOf 1).isSome = true) ∧
    (let r := { reshard0 with running := true }
     let s := resharding r
     let w := (s.die 0).rsWindow r.operands.2.1 r.operands.2.2 r.step
     (s.die 0).reshardOf 1 = some r ∧ r.inflight = true ∧ r.sentAll = false ∧ s.startPassed 0 w.1 = true ∧ s.ft < w.2 + 256 ∧
     w.2 + 256 ≤ ({ s with ft := 100000 } : State).ft ∧ ({ s with ft := 100000 } : State).startPassed 0 w.1 = true) ∧
    -- a step whose rows go to another die
    (let r := { reshard0 with running := true }
     let s := (resharding r).modDie 0 (fun d => { d with layouts := [⟨1, some twoDies⟩], rsTable := [(0, 1)] })
     (s.stepRows 1 0 r.step).1 ≠ 0 ∧ (s.stepRows 1 0 r.step).2.2 ≠ []) ∧
    twoDies.valid (2, 2, 2) = true ∧ State.reset.launchDies 1 = [] ∧ (resharding reshard0).launchDies 1 = [0] := by
  and_intros <;> decide +kernel

/-- A flit from die 0 to die 1, and packets. -/
def flit1 (dst kind : Nat) : Flit := ⟨dst, 0, 0, false, kind, 0, 0, 9, 0, 0, 0, 0⟩
def pkt0 (kind : Nat) (st : PktStage) : Pkt := ⟨kind, 0, 1, 9, 0, 0, 8, [1, 2, 3, 4, 5, 6, 7, 8], 0, 128, 0, 1, none, false, 8, st, none, 0⟩
def flitsAt (l : List Flit) (ps : List Pkt) : State := { State.reset.modDie 1 (fun d => { d with ejected := l }) with pkts := ps }
def entry1 : RasmEntry := ⟨0, 9, 2, 128, 9, 100, 0, 0, 0, 1, [], 0⟩
theorem witness_FlitsTravel :
    (let s := State.reset.modDie 0 (fun d => { d with flitsIn := [(0, flit1 1 4)] })
     (∀ q ∈ s.pkts, q.stage ≠ .source) ∧ (s.die 0).flitsIn = [(0, flit1 1 4)] ∧ (s.die 0).flitsOut = [] ∧
     productive (s.die 0).dims 0 1 = 0 :: [1] ∧ portDie (s.die 0).dims 0 0 ≠ 0 ∧ productive (s.die 0).dims 1 1 = 6 :: []) ∧
    -- the last kind that is sent and the first that is not
    12 ≤ (flit1 1 12).kind ∧ (flit1 1 11).kind < 12 ∧
    -- no packet; a packet of one flit; one of two flits with an entry; one whose entry is gone, wanted, held or a message
    (State.reset).pkts.find? (fun p => p.stage == .travelling) = none ∧
    ((flitsAt [flit1 1 4] [pkt0 4 .travelling]).die 1).ejected[0]? = some (flit1 1 4) ∧
    (flitsAt [flit1 1 4] [pkt0 4 .travelling]).pkts.find? (fun p => p.stage == .travelling && p.kind == 4 && p.num == 9 && p.ends == (0, 1)) =
      some (pkt0 4 .travelling) ∧ (pkt0 4 .travelling).flitCount = 1 ∧
    (flit1 1 5).kind = 5 ∧ ({ pkt0 9 .travelling with len := 100 } : Pkt).flitCount = 2 ∧
    ((flitsAt [] []).modDie 1 (fun d => { d with rasm := [entry1] })).entryOf 1 0 9 = some entry1 ∧
    (flitsAt [] []).entryOf 1 0 9 = none ∧ (flitsAt [] []).pktHeld (pkt0 9 .travelling) = false ∧
    ((flitsAt [] []).setBank 128 (k0.setCw cwRASTAT 1)).pktHeld (pkt0 9 .travelling) = true ∧
    (pkt0 8 .travelling).body = 8 ∧ ({ pkt0 9 .travelling with body := 9 } : Pkt).body ≠ 8 ∧
    -- a launch that uses the die of a header error, and one that does not
    ((hubOf [launch0 1 .live [⟨0, 0, .running, none⟩]]).hubs = [(0, (hubOf [launch0 1 .live [⟨0, 0, .running, none⟩]]).hub 0)]) ∧
    (launch0 1 .live [⟨0, 0, .running, none⟩]).diesUsed.contains 0 = true ∧
    (launch0 1 .live [⟨0, 0, .running, none⟩]).diesUsed.contains 1 = false := by
  and_intros <;> decide +kernel

/-- A bank with a message port of 64 units, on and off. -/
def kPort (en : Nat) : Bank := k0.setCw cwMPORT (BitVec.ofNat 64 (en + 5 * 2 + 0 * 2 ^ 8))
def withPort (k : Bank) (p : Pkt) : State := { on .s k0 |>.setBank 128 k with pkts := [p] }
theorem witness_PacketsArrive :
    (withPort k0 (pkt0 0 .source)).pkts[0]? = some (pkt0 0 .source) ∧ (pkt0 0 .source).stage ≠ .arrived ∧ (pkt0 0 .arrived).stage = .arrived ∧
    -- the second of two masked writes of one source, and the first
    [pkt0 2 .arrived, { pkt0 2 .arrived with num := 10 }].any (fun q => q.writeBefore { pkt0 2 .arrived with num := 10 }) = true ∧
    [pkt0 2 .arrived, { pkt0 2 .arrived with num := 10 }].any (fun q => q.writeBefore (pkt0 2 .arrived)) = false ∧
    (pkt0 3 .arrived).aux % 16 ≤ 9 ∧ ({ pkt0 3 .arrived with aux := 9 } : Pkt).aux % 16 ≤ 9 ∧
    -- an acknowledgement that an operation waits for, and one that none does
    (let k := { k0 with ops := [{ op1 with todo := .msgWait (0 * 4096 + 9) }] }
     ((withPort k (pkt0 4 .arrived)).bank 128).ops.find? (fun o => o.todo == .msgWait (0 * 4096 + 9)) = some { op1 with todo := .msgWait 9 }) ∧
    ((withPort k0 (pkt0 4 .arrived)).bank 128).ops.find? (fun o => o.todo == .msgWait (0 * 4096 + 9)) = none ∧
    -- an entry request that is held; one that may have its entry; one whose die has 256 entries, with 63 and with 64 that wait
    (withPort (k0.setCw cwRASTAT 1) (pkt0 6 .arrived)).pktHeld (pkt0 6 .arrived) = true ∧
    (let p := { pkt0 6 .arrived with body := 9 }
     let s := withPort k0 p
     let full := s.modDie 1 (fun d => { d with rasm := List.replicate 256 entry1 })
     s.pktHeld p = false ∧ s.unwanted p = false ∧ s.grantable p = true ∧ (s.die p.dst).waitList = [] ∧ full.grantable p = false ∧
     full.pktHeld p = false ∧ full.unwanted p = false ∧ (full.die 1).waitList.length < 64 ∧
     64 ≤ ((full.modDie 1 (fun d => { d with waitList := List.replicate 64 3 })).die 1).waitList.length) ∧
    -- a message: port off, on with room, on without room; no job of its launch
    (let p := pkt0 8 .arrived
     p.flitCount = 1 ∧ (withPort k0 p).savedOn p.bank p.seq = false ∧
     (withPort (kPort 0) p).portOf p = some (kPort 0 |>.cw cwMPORT) ∧ ((kPort 0).cw cwMPORT).getLsbD 0 = false ∧
     ((kPort 1).cw cwMPORT).getLsbD 0 = true ∧ (withPort (kPort 1) p).portRoom p ((kPort 1).cw cwMPORT) = true ∧
     (withPort (kPort 1) p).entryOf p.dst p.src p.num = none ∧
     (let w := (kPort 1).cw cwMPORT ||| BitVec.ofNat 64 (portRing ((kPort 1).cw cwMPORT) * 2 ^ 30)
      (withPort ((kPort 1).setCw cwMPORT w) p).portRoom p w = false) ∧
     (withPort Bank.reset p).portOf p = none) ∧
    ({ pkt0 9 .arrived with coll := some (.data 0 0 1 0) } : Pkt).coll = some (.data 0 0 1 0) ∧ (pkt0 9 .arrived).coll = none ∧ (withPort k0 (pkt0 9 .arrived)).entryOf 1 0 9 = none ∧
    ({ pkt0 6 .waiting with retryAt := some 512 } : Pkt).retryAt = some 512 ∧ (pkt0 6 .waiting).retryAt = none := by
  and_intros <;> decide +kernel

/-- An instance of group 0 posted by bank 0. -/
def coll0 (c : Rec) (ph : CollPhase) : Coll := ⟨c, 0, 0, 1, 0, false, false, ph, 0, false, false, false, [], [], [], []⟩
def withColl (k : Bank) (x : Coll) : State := (on .s k).modCluster 0 (fun c => { c with coll := [x] })
theorem witness_CollectivesProceed :
    ((withColl k0 (coll0 0 .queued)).cluster 0).coll[0]? = some (coll0 0 .queued) ∧
    (coll0 0 .exchanging).phase ≠ .queued ∧ ((withColl Bank.reset (coll0 0 .queued)).bank (coll0 0 .queued).bank).live = false ∧
    ((withColl k0 (coll0 0 .queued)).bank 0).live = true ∧
    ([coll0 0 .queued].take 1).any (fun y => y.phase != .exchanging) = true ∧ ([coll0 0 .queued].take 0).any (fun y => y.phase != .exchanging) = false ∧
    -- a wait flag at 0; a start time on a synchronised die one cycle ahead; neither
    ccWflag (BitVec.ofNat 512 (2 ^ 22 + 5 * 2 ^ 16)) = some 5 ∧ ((withColl k0 (coll0 0 .queued)).bank 0).flag 5 = 0 ∧
    ccWflag 0 = none ∧ ccTT (BitVec.ofNat 512 (2 ^ 10 + 2 ^ 448)) = true ∧ (0 < ccStart (BitVec.ofNat 512 (2 ^ 10 + 2 ^ 448))) ∧
    (((State.reset.modDie 0 (fun d => d.setReg 0x100008 0x40)).die (0 / 16)).reg 0x100008).getLsbD 6 = true ∧ ccTT 0 = false ∧
    ccDL 0 = false ∧ ccDL (BitVec.ofNat 512 (2 ^ 11)) = true ∧ ccTT (BitVec.ofNat 512 (2 ^ 11)) = false ∧
    -- a READY for an instance that is posted and one for an instance that is not yet; a NONE
    (let p : Pkt := { pkt0 0xB .arrived with dst := 0, bank := 0, coll := some (.ready 0 0 1 0) }
     let s := { withColl k0 (coll0 0 .exchanging) with pkts := [p] }
     s.pkts[0]? = some p ∧ p.kind = 0xB ∧ bankCluster p.bank = 0 ∧ s.findColl 0 0 0 p.seq = some (coll0 0 .exchanging) ∧
     (withColl k0 (coll0 0 .queued)).readyAnswer 0 1 0 p.seq = false) ∧
    (({ pkt0 0xB .arrived with coll := some (.none_ 0 0 1 true) } : Pkt).coll = some (.none_ 0 0 1 true)) := by
  and_intros <;> decide +kernel

/-! The whole machine. -/

theorem witness_EngineWordsFrame :
    (engineSpace (.cunb m0 2 true false)).isSome = true ∧ (engineSpace (.vmovi m0 9 7)).isSome = true ∧
    (match exec (.vmovi m0 9 7) (on .ve k0) with
      | .next t => !t.me.stopped | _ => false) = true ∧
    (match exec (.vmovi m0 9 7) (on .ve { k0 with stopped := true }) with | .next _ => true | _ => false) = true ∧
    k0.stopped = false ∧ k0.freeze = none ∧
    -- the first row of MDRAIN; a CHALO that finds a face of its number
    (match exec (.mdrain m0 0 4 false 0 .rne .bf16 3 0 false false) leased with | .next _ => true | _ => false) = true ∧
    (let s := haloing.modBank 0 (fun k => { k with halo := ⟨0, [], [⟨0, 1, 0, 0x2000, 64, 0, 0⟩]⟩ })
     (match exec (.chalo m0 1 2 3 0 0) s with | .next t => t.me.ops.length == 1 | _ => false) = true ∧
     s.me.halo.got.all (fun h => h.num == s.me.halo.count) = true ∧ (s.layoutOf 0).isSome = true ∧ s.me.blocked = none) := by
  and_intros <;> decide +kernel

theorem witness_OnlyTrapsRaiseTheView : (encode (.trap m0 42)).isSome = true ∧ (on .s k0).me.sv = false ∧
    (match exec (.trap m0 42) (on .s k0) with | .next t => t.me.sv | _ => false) = true := by
  and_intros <;> decide +kernel

theorem witness_MemoriesStayCanonical : sAdd.memWf = true ∧ (match step sAdd with | .next _ => true | _ => false) = true := by
  and_intros <;> decide +kernel

/-! Single steps and single operations, each on the manual's own example or on a value worked out by hand from the rule named. -/

/-- The value that a word leaves pending for its destination. -/
def result (s : State) (i : Instr) : Option W64 :=
  match exec i s with
  | .next t => (t.me.pend.getLast?).map (fun p => p.val)
  | _ => none
/-- s1 and s2 of two values. -/
def xy (x y : W64) : State := on .s (withS k0 [(1, x), (2, y)])

/-- R100: sums wrap; the most negative number. -/
theorem test_add_wraps : result (xy 0xFFFFFFFFFFFFFFFF 2) (.add m0 3 1 2) = some 1 := by decide +kernel
theorem test_sub_wraps : result (xy 0 1) (.sub m0 3 1 2) = some 0xFFFFFFFFFFFFFFFF := by decide +kernel
theorem test_mulh_signed : result (xy 0xFFFFFFFFFFFFFFFF 5) (.mulh m0 3 1 2) = some 0xFFFFFFFFFFFFFFFF := by decide +kernel
theorem test_mulhn_unsigned : result (xy 0xFFFFFFFFFFFFFFFF 5) (.mulhn m0 3 1 2) = some 4 := by decide +kernel
theorem test_div_by_zero : result (xy 7 0) (.div m0 3 1 2) = some 0xFFFFFFFFFFFFFFFF := by decide +kernel
theorem test_div_overflow : result (xy 0x8000000000000000 0xFFFFFFFFFFFFFFFF) (.div m0 3 1 2) = some 0x8000000000000000 := by decide +kernel
theorem test_rem_takes_the_sign_of_x : result (xy 0xFFFFFFFFFFFFFFF9 2) (.rem m0 3 1 2) = some 0xFFFFFFFFFFFFFFFF := by decide +kernel
theorem test_rem_by_zero : result (xy 7 0) (.rem m0 3 1 2) = some 7 := by decide +kernel
theorem test_shl_takes_six_bits : result (xy 1 65) (.shl m0 3 1 2) = some 2 := by decide +kernel
theorem test_sha_copies_the_sign : result (xy 0x8000000000000000 63) (.sha m0 3 1 2) = some 0xFFFFFFFFFFFFFFFF := by decide +kernel
theorem test_rotl_by_zero : result (xy 0x8000000000000001 64) (.rotl m0 3 1 2) = some 0x8000000000000001 := by decide +kernel
theorem test_clz_of_zero : result (xy 0 0) (.clz m0 3 1) = some 64 := by decide +kernel
theorem test_slt_signed : result (xy 0xFFFFFFFFFFFFFFFF 0) (.slt m0 3 1 2) = some 1 := by decide +kernel
theorem test_sltn_unsigned : result (xy 0xFFFFFFFFFFFFFFFF 0) (.sltn m0 3 1 2) = some 0 := by decide +kernel

/-- R102: the manual's LI and LIH. -/
theorem test_li : result (xy 0 0) (.li m0 8 0x89ABCDE) = some 0xFFFFFFFFF89ABCDE := by decide +kernel
theorem test_lih : result (xy 0xFFFFFFFFF89ABCDE 0) (.lih m0 8 1 0x1234567) = some 0x00123456789ABCDE := by decide +kernel
/-- R101: EXTR of bits 7 to 4 with its sign; INSR keeps the other bits of its destination. -/
theorem test_extr_signed : result (xy 0x85 0) (.extr m0 3 1 4 3 true) = some 0xFFFFFFFFFFFFFFF8 := by decide +kernel
theorem test_insr : result (xy 0x1F 0xFFFF) (.insr m0 2 1 4 3) = some 0xFFFF := by decide +kernel

/-- R103: bytes are little-endian, and .sx copies the top bit of the size. -/
def bytesAt (a n : Nat) (v : Nat) (s : State) : State := s.modCore 0 (fun c => { c with sp := c.sp.write a n v false })
theorem test_ld_sign : result (bytesAt 0x100 4 0x8001FF02 (xy 0x100 0)) (.ld m0 ⟨3, 1, 2, true, 1, 2⟩) = some 0xFFFFFFFFFFFF8001 := by
  decide +kernel
theorem test_st_bytes : (match exec (.st m0 2 1 2 0) (xy 0x100 0x11223344AABBCCDD) with
    | .next t => some (t.peek (.scratchpad 0) 0x100, t.peek (.scratchpad 0) 0x103, t.peek (.scratchpad 0) 0x104)
    | _ => none) = some (0xDD, 0xAA, 0) := by decide +kernel
/-- R104: .min compares signed numbers of its size; the old value is the result. -/
theorem test_amo_min : (match exec (.amo m0 3 1 2 0 4 0 0 2) (bytesAt 0x100 4 1 (xy 0x100 0xFFFFFFFF)) with
    | .next t => some (t.me.pend.map (fun p => p.val), t.peek (.scratchpad 0) 0x100, t.peek (.scratchpad 0) 0x103)
    | _ => none) = some ([1], 0xFF, 0xFF) := by decide +kernel

/-- R130: a branch taken backwards is pending for two words. -/
theorem test_blt_taken : (match exec (.blt m0 1 2 false false (-5)) (on .s { withS k0 [(1, 0xFFFFFFFFFFFFFFFF), (2, 0)] with pc := 0x100 }) with
    | .next t => some (t.me.pc, t.me.targets.map (fun x => x.addr))
    | _ => none) = some (0x108, [0xD8]) := by decide +kernel

/-- R156: TRAP 42 enters the handler at TVEC with its code and its own address, in the supervisor view. -/
theorem test_trap : (match exec (.trap m0 42) (on .s { k0.setCw cwTVEC 0x400 with pc := 0x100 }) with
    | .next t => some (t.me.pc, t.me.cw cwTCAUSE, t.me.cw cwTVAL, t.me.sv, t.me.ts)
    | _ => none) = some (0x400, 0x14, 42, true, true) := by decide +kernel

/-! Numbers. -/

/-- R45: the manual's conversions of -464 to E4M3. -/
theorem test_e4m3_overflow : ([.rne, .rtz, .rup, .rdn, .rna] : List RMode).map (fun m => EType.rnd .e4m3 m (Val.ofInt (-464))) =
    [0xFE, 0xFE, 0xFE, 0x7F, 0x7F] := by decide +kernel
/-- R47: the manual's stochastic rounding of 0x3F804C00 and 0xBF804C00. -/
theorem test_sr : ([(0x3F804C00, 0xB3), (0x3F804C00, 0xB4), (0xBF804C00, 0xB3), (0xBF804C00, 0xB4)] : List (Nat × Nat)).map
    (fun x => EType.round .bf16 .sr (8, x.2) (fp32 x.1)) = [0x3F80, 0x3F81, 0xBF80, 0xBF81] := by decide +kernel
/-- R55: the manual's three products, 1024, 2^-32 and -1024, at the three widths. -/
theorem test_group_sum : ([40, 56, 80] : List Nat).map (fun w => groupSum [Val.ofInt 1024, .fin false 1 (-32) false, Val.ofInt (-1024)] w) =
    [0, 0x2F800000, 0x2F800000] := by decide +kernel
/-- R40: the sum of opposites is +0, and -0 under RDN. -/
theorem test_zero_sum : (addF 0x3F800000 0xBF800000, (EType.fmt .fp32).round .rdn noSr (Val.add .rdn (fp32 0x3F800000) (fp32 0xBF800000))) =
    (0, 0x80000000) := by decide +kernel

/-! Vectors. -/

/-- What a V word writes into its queue. -/
def filled (k : Bank) (i : Instr) : Option Nat :=
  match exec i (on .ve k) with
  | .next t => (t.me.ops.getLast?).bind (fun o => (o.effs.head?).bind (fun e => match e with | .fill _ _ x => some (x.toNat % 2 ^ 64) | _ => none))
  | _ => none
/-- v1 and v2 with their first 64 bits given. -/
def vxy (x y : Nat) : Bank := { k0 with queues := [(1, ⟨2, [⟨1, some (BitVec.ofNat 2048 x)⟩], .none, .none, 0, 0⟩),
  (2, ⟨2, [⟨2, some (BitVec.ofNat 2048 y)⟩], .none, .none, 0, 0⟩)] }
/-- R189: 1.5 + 2.5 and 1 + 1 in FP32. -/
theorem test_vadd : filled (vxy 0x3F8000003FC00000 0x3F80000040200000) (.vadd m0 ⟨9, 1, 2, 0, .fp32, true, true, false, .rne, 0, 0⟩) =
    some 0x4000000040800000 := by decide +kernel
/-- R201: a sum of bytes wraps in its lane. -/
theorem test_viadd_wraps : filled (vxy 0x01FF 0x0101) (.viadd m0 ⟨9, 1, 2, 0, .i8, true, true, false, .rne, 0, 0⟩) = some 0x0200 := by
  decide +kernel
/-- R204: VMOVI puts its constant into every 32-bit lane. -/
theorem test_vmovi : filled k0 (.vmovi m0 9 0x12345678) = some 0x1234567812345678 := by decide +kernel

/-- R8, R17, R71: words with a reserved bit, an unassigned opcode, a reserved value or a mark no flag has are refused. -/
theorem test_refused_words : ([(.s, 0x0000003000000001), (.s, 0x00007F0000000000), (.s, 0x0500000000000000), (.c, 0x00007F0000000000),
    (.m, 0x0000FF0000000000), (.v, 0x0000FF0000000000)] : List (Space × W64)).all (fun x => (reads x.1 x.2).isNone) = true := by decide +kernel
/-- R70: one pattern in the four spaces. -/
theorem test_one_pattern : (match reads .s 0x0000060000000000 with | some (.div ..) => true | _ => false) = true ∧
    (match reads .c 0x0000060000000000 with | some (.csink ..) => true | _ => false) = true ∧
    (match reads .m 0x0000060000000000 with | some (.mma ..) => true | _ => false) = true := by and_intros <;> decide +kernel
/-- R273, R390: an MMA whose format entry holds an uncorrectable error freezes its job with 0x16, source 3 and the entry's number. -/
theorem test_mma_errored_entry : (match exec (.mma m0 0 1 false 5 0 0 3 0 true false)
      (leased.modBank leased.focus.bank (fun k => { k with fmtErr := [0] })) with
    | .next t => t.me.freeze.map (fun f => (f.point, f.cause, f.value))
    | _ => none) = some (some .m, 0x16, 3) := by decide +kernel

end Sys2Proof.Tests
end

section
/-! PROOFS. A word that decodes is the encoding of its instruction (R8, R14, R71, R72). The decoder reads fields with `bits` and the
encoder puts them back with `put`: a field put back is the operand under the field's mask, and the masks of an instruction's fields,
with its reserved bits, cover all 40 bits. -/

namespace Sys2Proof

/-! Fields of an operand. -/

/-- The bits of the operand that the field of n bits from bit lo takes. -/
def fieldMask (lo n : Nat) : BitVec 40 := put lo (BitVec.allOnes n)

theorem put_bits (o : BitVec 40) (lo n : Nat) : put lo (bits o lo n) = o &&& fieldMask lo n := by
  ext i hi
  by_cases h : i < lo
  · simp [fieldMask, put, h]
  · have hlo : lo + (i - lo) = i := by omega
    simp [fieldMask, put, bits, h, hlo, Bool.and_comm, BitVec.getLsbD_eq_getElem hi]

theorem putB_getLsbD (o : BitVec 40) (lo : Nat) : putB lo (o.getLsbD lo) = o &&& fieldMask lo 1 := by
  rw [← put_bits, putB]
  congr 1
  ext i hi
  simp [bits, Nat.lt_one_iff.1 hi]

/-- The operand is rebuilt from the bits under M when the bits under K are known and the two masks cover it. -/
theorem rebuild {o M K V : BitVec 40} (hK : o &&& K = V) (hM : M ||| K = BitVec.allOnes 40) : o &&& M ||| V = o := by
  rw [← hK, ← BitVec.and_or_distrib_left, hM, BitVec.and_allOnes]

/-- The operand is rebuilt from the bits under M when all others are reserved (R72). -/
theorem rebuild_clear {o M R : BitVec 40} (hR : o &&& R = 0#40) (hM : M ||| R = BitVec.allOnes 40) : o &&& M = o := by
  simpa using rebuild hR hM

theorem eq_zero_of_clear {o : BitVec 40} (h : o &&& BitVec.allOnes 40 = 0#40) : o = 0#40 := by
  rwa [BitVec.and_allOnes] at h

/-- The known bits of a word whose reserved bits are 0 and whose selector field holds k. -/
theorem known_of_selector {o R : BitVec 40} {lo n k : Nat} (hR : o &&& R = 0#40) (hk : (bits o lo n).toNat = k) :
    o &&& (R ||| fieldMask lo n) = put lo (BitVec.ofNat n k) := by
  rw [BitVec.and_or_distrib_left, hR, ← put_bits, ← hk, BitVec.ofNat_toNat, BitVec.setWidth_eq, BitVec.zero_or]

/-- A word whose operand is its selector field alone. -/
theorem known_alone {o R : BitVec 40} {lo n k : Nat} (hR : o &&& R = 0#40) (hk : (bits o lo n).toNat = k)
    (hM : R ||| fieldMask lo n = BitVec.allOnes 40) : put lo (BitVec.ofNat n k) = o := by
  rw [← known_of_selector hR hk, hM, BitVec.and_allOnes]

/-- A selector of one bit that is not 0 is 1. -/
theorem selector_one {o : BitVec 40} {lo : Nat} (h : (bits o lo 1).toNat ≠ 0) : (bits o lo 1).toNat = 1 := by
  have := (bits o lo 1).isLt
  omega

/-! Codes and operand fields: what is read is written back. -/

theorem EType.code_of_ofCode {c : BitVec 4} {t : EType} (h : EType.ofCode c = some t) : t.code = c := by
  revert c t; decide

theorem RMode.code_of_ofCode {c : BitVec 3} {r : RMode} (h : RMode.ofCode c = some r) : r.code = c := by
  revert c r; decide

theorem Engine.code_of_ofCode {c : BitVec 6} {e : Engine} (h : Engine.ofCode c = some e) : e.code = c := by
  revert c e; decide

theorem MoOp.toOperand_ofOperand (o : BitVec 40) : (MoOp.ofOperand o).toOperand = o := by
  simp only [MoOp.toOperand, MoOp.ofOperand, put_bits, putB_getLsbD, ← BitVec.and_or_distrib_left]
  exact rebuild_clear (BitVec.and_zero) (by decide)

theorem VMemOp.toOperand_ofOperand (o : BitVec 40) : (VMemOp.ofOperand o).toOperand = o := by
  simp only [VMemOp.toOperand, VMemOp.ofOperand, put_bits, putB_getLsbD, ← BitVec.and_or_distrib_left]
  exact rebuild_clear (BitVec.and_zero) (by decide)

theorem VOp.toOperand_of_ofOperand {o : BitVec 40} {f : VOp} (h : VOp.ofOperand o = some f) : f.toOperand = o := by
  unfold VOp.ofOperand at h
  split at h
  case h_1 ty rm hty hrm =>
    obtain rfl := Option.some.inj h
    simp only [VOp.toOperand, EType.code_of_ofCode hty, RMode.code_of_ofCode hrm, put_bits, putB_getLsbD, ← BitVec.and_or_distrib_left]
    exact rebuild_clear (BitVec.and_zero) (by decide)
  case h_2 => cases h

theorem VGatOp.toOperand_of_ofOperand {o : BitVec 40} {f : VGatOp} (h : VGatOp.ofOperand o = some f) : f.toOperand = o := by
  unfold VGatOp.ofOperand at h
  split at h
  case h_1 ty hty =>
    obtain rfl := Option.some.inj h
    simp only [VGatOp.toOperand, EType.code_of_ofCode hty, put_bits, putB_getLsbD, ← BitVec.and_or_distrib_left]
    exact rebuild_clear (BitVec.and_zero) (by decide)
  case h_2 => cases h

/-! What a row of an opcode map answers. -/

/-- What the decoder answers for the operand o under an opcode is an error, or an instruction whose word is that one. -/
def Recodes (sp : Space) (m : Marks) (opc : Nat) (o : BitVec 40) (r : Except DecodeError Instr) : Prop :=
  ∀ i, r = .ok i → encode i = some (sp, word m (BitVec.ofNat 8 opc) o)

theorem Recodes.of_error {sp : Space} {m : Marks} {opc : Nat} {o : BitVec 40} {e : DecodeError} : Recodes sp m opc o (.error e) :=
  fun _ h => nomatch h

theorem Recodes.of_ok {sp : Space} {m : Marks} {opc : Nat} {o q : BitVec 40} {i : Instr}
    (hi : encode i = some (sp, word m (BitVec.ofNat 8 opc) q)) (hq : q = o) : Recodes sp m opc o (.ok i) := by
  rintro _ ⟨⟩
  rw [hi, hq]

theorem Recodes.of_clear {sp : Space} {m : Marks} {opc : Nat} {o R : BitVec 40} {r : Except DecodeError Instr}
    (h : o &&& R = 0#40 → Recodes sp m opc o r) : Recodes sp m opc o (clear o R r) := by
  unfold clear
  split
  · exact h ‹_›
  · exact .of_error

theorem Recodes.of_orReserved {α : Type} {sp : Space} {m : Marks} {opc : Nat} {o : BitVec 40} {x : Option α}
    {k : α → Except DecodeError Instr} (h : ∀ v, x = some v → Recodes sp m opc o (k v)) : Recodes sp m opc o (orReserved x k) := by
  cases x with
  | none => exact .of_error
  | some v => exact h v rfl

/-- A word with no operand. -/
theorem Recodes.of_bare {sp : Space} {m : Marks} {opc : Nat} {o : BitVec 40} {i : Instr}
    (hi : encode i = some (sp, word m (BitVec.ofNat 8 opc) 0#40)) : Recodes sp m opc o (clear o 0xFFFFFFFFFF (.ok i)) :=
  .of_clear fun hr => .of_ok hi (eq_zero_of_clear hr).symm

/-- A word with the operand of R78. -/
theorem Recodes.of_vop {m : Marks} {opc : Nat} {o : BitVec 40} {c : VOp → Instr}
    (hi : ∀ f : VOp, encode (c f) = some (.v, word m (BitVec.ofNat 8 opc) f.toOperand)) :
    Recodes .v m opc o (orReserved (VOp.ofOperand o) fun f => .ok (c f)) :=
  .of_orReserved fun f hf => .of_ok (hi f) (VOp.toOperand_of_ofOperand hf)

/-! The rows (R77, R79, R80, R81). -/

theorem decodeS0_recodes (m : Marks) (o : BitVec 40) (k : Nat) : Recodes .s m (0x00 + k) o (decodeS0 m o k) := by
  unfold decodeS0
  split
  case h_1 => exact .of_bare rfl
  case h_17 => exact .of_error
  all_goals
    refine .of_clear fun hr => .of_ok rfl ?_
    simp only [put_bits, ← BitVec.and_or_distrib_left]
    exact rebuild_clear hr (by decide)

theorem decodeS1_recodes (m : Marks) (o : BitVec 40) (k : Nat) : Recodes .s m (0x10 + k) o (decodeS1 m o k) := by
  unfold decodeS1
  split
  case h_17 => exact .of_error
  all_goals
    refine .of_clear fun hr => .of_ok rfl ?_
    simp only [put_bits, ← BitVec.and_or_distrib_left]
    exact rebuild_clear hr (by decide)

theorem decodeS2_recodes (m : Marks) (o : BitVec 40) (k : Nat) : Recodes .s m (0x20 + k) o (decodeS2 m o k) := by
  unfold decodeS2
  split
  case h_15 => exact .of_error
  case h_1 | h_2 | h_3 | h_4 | h_8 | h_9 | h_11 | h_12 =>
    refine .of_ok rfl ?_
    simp only [put_bits, ← BitVec.and_or_distrib_left]
    exact rebuild_clear BitVec.and_zero (by decide)
  all_goals
    refine .of_clear fun hr => .of_ok rfl ?_
    simp only [put_bits, putB_getLsbD, ← BitVec.and_or_distrib_left]
    exact rebuild_clear hr (by decide)

theorem decodeS3_recodes (m : Marks) (o : BitVec 40) (k : Nat) : Recodes .s m (0x30 + k) o (decodeS3 m o k) := by
  unfold decodeS3
  split
  case h_16 => exact .of_error
  case h_1 | h_2 => exact .of_ok rfl (MoOp.toOperand_ofOperand o)
  case h_12 => exact .of_bare rfl
  case h_8 =>
    split
    case h_1 hk | h_2 hk => exact .of_clear fun hr => .of_ok rfl (known_alone hr hk rfl)
    case h_3 => exact .of_error
  case h_14 =>
    split
    case h_1 hk =>
      refine .of_clear fun hr => .of_ok rfl ?_
      simp only [put_bits, ← BitVec.and_or_distrib_left]
      exact rebuild_clear (known_of_selector hr hk) (by decide)
    case h_2 hk =>
      refine .of_clear fun hr => .of_ok rfl ?_
      simp only [put_bits, ← BitVec.and_or_distrib_left]
      exact rebuild (known_of_selector hr hk) (by decide)
    case h_3 => exact .of_error
  all_goals
    refine .of_clear fun hr => .of_ok rfl ?_
    simp only [put_bits, ← BitVec.and_or_distrib_left]
    exact rebuild_clear hr (by decide)

theorem decodeS4_recodes (m : Marks) (o : BitVec 40) (k : Nat) : Recodes .s m (0x40 + k) o (decodeS4 m o k) := by
  unfold decodeS4
  split
  case h_16 => exact .of_error
  case h_1 | h_2 | h_3 | h_4 | h_5 | h_6 | h_10 =>
    refine .of_ok rfl ?_
    simp only [put_bits, putB_getLsbD, ← BitVec.and_or_distrib_left]
    exact rebuild_clear BitVec.and_zero (by decide)
  all_goals
    refine .of_clear fun hr => .of_ok rfl ?_
    simp only [put_bits, putB_getLsbD, ← BitVec.and_or_distrib_left]
    exact rebuild_clear hr (by decide)

theorem decodeS5_recodes (m : Marks) (o : BitVec 40) (k : Nat) : Recodes .s m (0x50 + k) o (decodeS5 m o k) := by
  unfold decodeS5
  split
  case h_13 => exact .of_error
  case h_1 | h_6 =>
    refine .of_clear fun hr => .of_orReserved fun e he => .of_ok rfl ?_
    simp only [Engine.code_of_ofCode he, put_bits, ← BitVec.and_or_distrib_left]
    exact rebuild_clear hr (by decide)
  case h_7 => exact .of_bare rfl
  all_goals
    refine .of_clear fun hr => .of_ok rfl ?_
    simp only [put_bits, putB_getLsbD, ← BitVec.and_or_distrib_left]
    exact rebuild_clear hr (by decide)

theorem decodeS6_recodes (m : Marks) (o : BitVec 40) (k : Nat) : Recodes .s m (0x60 + k) o (decodeS6 m o k) := by
  unfold decodeS6
  split
  case h_9 => exact .of_error
  case h_2 => exact .of_bare rfl
  all_goals
    refine .of_clear fun hr => .of_ok rfl ?_
    simp only [put_bits, ← BitVec.and_or_distrib_left]
    exact rebuild_clear hr (by decide)

theorem decodeS7_recodes (m : Marks) (o : BitVec 40) (k : Nat) : Recodes .s m (0x70 + k) o (decodeS7 m o k) := by
  unfold decodeS7
  split
  case h_9 => exact .of_error
  case h_2 =>
    split
    case h_1 hk =>
      refine .of_clear fun hr => .of_ok rfl ?_
      simp only [put_bits]
      exact rebuild_clear (known_of_selector hr hk) (by decide)
    case h_2 hk =>
      refine .of_clear fun hr => .of_ok rfl ?_
      simp only [put_bits, ← BitVec.and_or_distrib_left]
      exact rebuild (known_of_selector hr hk) (by decide)
    case h_3 => exact .of_error
  all_goals
    refine .of_clear fun hr => .of_ok rfl ?_
    simp only [put_bits, ← BitVec.and_or_distrib_left]
    exact rebuild_clear hr (by decide)

theorem decodeV0_recodes (m : Marks) (o : BitVec 40) (k : Nat) : Recodes .v m (0x00 + k) o (decodeV0 m o k) := by
  unfold decodeV0
  split
  case h_1 => exact .of_bare rfl
  case h_14 => exact .of_error
  all_goals exact .of_vop fun _ => rfl

theorem decodeV1_recodes (m : Marks) (o : BitVec 40) (k : Nat) : Recodes .v m (0x10 + k) o (decodeV1 m o k) := by
  unfold decodeV1
  split
  case h_10 => exact .of_error
  all_goals exact .of_vop fun _ => rfl

theorem decodeV2_recodes (m : Marks) (o : BitVec 40) (k : Nat) : Recodes .v m (0x20 + k) o (decodeV2 m o k) := by
  unfold decodeV2
  split
  case h_8 => exact .of_error
  all_goals exact .of_vop fun _ => rfl

theorem decodeV3_recodes (m : Marks) (o : BitVec 40) (k : Nat) : Recodes .v m (0x30 + k) o (decodeV3 m o k) := by
  unfold decodeV3
  split
  case h_16 => exact .of_error
  all_goals exact .of_vop fun _ => rfl

theorem decodeV4_recodes (m : Marks) (o : BitVec 40) (k : Nat) : Recodes .v m (0x40 + k) o (decodeV4 m o k) := by
  unfold decodeV4
  split
  case h_11 => exact .of_error
  case h_6 =>
    refine .of_clear fun hr => .of_ok rfl ?_
    simp only [put_bits, ← BitVec.and_or_distrib_left]
    exact rebuild_clear hr (by decide)
  all_goals exact .of_vop fun _ => rfl

theorem decodeV5_recodes (m : Marks) (o : BitVec 40) (k : Nat) : Recodes .v m (0x50 + k) o (decodeV5 m o k) := by
  unfold decodeV5
  split
  case h_7 => exact .of_error
  case h_1 | h_2 => exact .of_ok rfl (VMemOp.toOperand_ofOperand o)
  case h_3 | h_4 => exact .of_orReserved fun _ hf => .of_ok rfl (VGatOp.toOperand_of_ofOperand hf)
  all_goals
    refine .of_clear fun hr => .of_ok rfl ?_
    simp only [put_bits, ← BitVec.and_or_distrib_left]
    exact rebuild_clear hr (by decide)

theorem decodeV6_recodes (m : Marks) (o : BitVec 40) (k : Nat) : Recodes .v m (0x60 + k) o (decodeV6 m o k) := by
  unfold decodeV6
  split
  case h_9 => exact .of_error
  case h_2 =>
    split
    case h_4 => exact .of_error
    all_goals exact .of_vop fun _ => rfl
  all_goals exact .of_vop fun _ => rfl

theorem decodeV7_recodes (m : Marks) (o : BitVec 40) (k : Nat) : Recodes .v m (0x70 + k) o (decodeV7 m o k) := by
  unfold decodeV7
  split
  case h_3 => exact .of_bare rfl
  case h_4 => exact .of_error
  all_goals
    refine .of_clear fun hr => .of_ok rfl ?_
    simp only [put_bits, ← BitVec.and_or_distrib_left]
    exact rebuild_clear hr (by decide)

theorem decodeC0_recodes (m : Marks) (o : BitVec 40) (k : Nat) : Recodes .c m (0x00 + k) o (decodeC0 m o k) := by
  unfold decodeC0
  split
  case h_1 => exact .of_bare rfl
  case h_15 => exact .of_error
  case h_2 | h_3 | h_9 =>
    split
    case h_1 hk =>
      refine .of_clear fun hr => .of_ok rfl ?_
      simp only [put_bits, putB_getLsbD, ← BitVec.and_or_distrib_left]
      exact rebuild_clear (known_of_selector hr hk) (by decide)
    case h_2 hk =>
      refine .of_clear fun hr => .of_ok rfl ?_
      simp only [put_bits, putB_getLsbD, ← BitVec.and_or_distrib_left]
      exact rebuild (known_of_selector hr (selector_one hk)) (by decide)
  all_goals
    refine .of_clear fun hr => .of_ok rfl ?_
    simp only [put_bits, putB_getLsbD, ← BitVec.and_or_distrib_left]
    exact rebuild_clear hr (by decide)

theorem decodeC1_recodes (m : Marks) (o : BitVec 40) (k : Nat) : Recodes .c m (0x10 + k) o (decodeC1 m o k) := by
  unfold decodeC1
  split
  case h_8 => exact .of_error
  case h_1 | h_3 =>
    split
    case h_1 hk =>
      refine .of_clear fun hr => .of_ok rfl ?_
      simp only [put_bits, ← BitVec.and_or_distrib_left]
      exact rebuild_clear (known_of_selector hr hk) (by decide)
    case h_2 hk | h_3 hk =>
      refine .of_clear fun hr => .of_ok rfl ?_
      simp only [put_bits, ← BitVec.and_or_distrib_left]
      exact rebuild (known_of_selector hr hk) (by decide)
    case h_4 => exact .of_error
  case h_4 =>
    split
    case h_1 hk =>
      refine .of_clear fun hr => .of_ok rfl ?_
      simp only [put_bits, ← BitVec.and_or_distrib_left]
      exact rebuild_clear (known_of_selector hr hk) (by decide)
    case h_2 hk =>
      refine .of_clear fun hr => .of_ok rfl ?_
      simp only [put_bits]
      exact rebuild (known_of_selector hr hk) (by decide)
    case h_3 => exact .of_error
  case h_6 | h_7 =>
    refine .of_clear fun hr => .of_orReserved fun rm hrm => .of_ok rfl ?_
    simp only [RMode.code_of_ofCode hrm, put_bits, putB_getLsbD, ← BitVec.and_or_distrib_left]
    exact rebuild_clear hr (by decide)
  all_goals
    refine .of_clear fun hr => .of_ok rfl ?_
    simp only [put_bits, putB_getLsbD, ← BitVec.and_or_distrib_left]
    exact rebuild_clear hr (by decide)

theorem decodeC2_recodes (m : Marks) (o : BitVec 40) (k : Nat) : Recodes .c m (0x20 + k) o (decodeC2 m o k) := by
  unfold decodeC2
  split
  case h_3 => exact .of_error
  all_goals
    refine .of_clear fun hr => .of_ok rfl ?_
    simp only [put_bits, putB_getLsbD, ← BitVec.and_or_distrib_left]
    exact rebuild_clear hr (by decide)

theorem decodeC3_recodes (m : Marks) (o : BitVec 40) (k : Nat) : Recodes .c m (0x30 + k) o (decodeC3 m o k) := by
  unfold decodeC3
  split
  case h_3 => exact .of_bare rfl
  case h_4 => exact .of_error
  all_goals
    refine .of_clear fun hr => .of_ok rfl ?_
    simp only [put_bits, ← BitVec.and_or_distrib_left]
    exact rebuild_clear hr (by decide)

theorem decodeM0_recodes (m : Marks) (o : BitVec 40) (k : Nat) : Recodes .m m (0x00 + k) o (decodeM0 m o k) := by
  unfold decodeM0
  split
  case h_1 | h_2 | h_3 => exact .of_bare rfl
  case h_11 => exact .of_error
  case h_9 =>
    refine .of_clear fun hr => .of_orReserved fun rm hrm => .of_orReserved fun ot hot => .of_ok rfl ?_
    simp only [RMode.code_of_ofCode hrm, EType.code_of_ofCode hot, put_bits, putB_getLsbD, ← BitVec.and_or_distrib_left]
    exact rebuild_clear hr (by decide)
  all_goals
    refine .of_clear fun hr => .of_ok rfl ?_
    simp only [put_bits, putB_getLsbD, ← BitVec.and_or_distrib_left]
    exact rebuild_clear hr (by decide)

theorem decodeM1_recodes (m : Marks) (o : BitVec 40) (k : Nat) : Recodes .m m (0x10 + k) o (decodeM1 m o k) := by
  unfold decodeM1
  split
  case h_3 => exact .of_bare rfl
  case h_4 => exact .of_error
  all_goals
    refine .of_clear fun hr => .of_ok rfl ?_
    simp only [put_bits, ← BitVec.and_or_distrib_left]
    exact rebuild_clear hr (by decide)

/-! Spaces. -/

/-- A row's opcodes, from the row and the place in it. -/
theorem Recodes.of_row {sp : Space} {m : Marks} {c r : Nat} {o : BitVec 40} {x : Except DecodeError Instr} (hc : c / 16 = r)
    (h : Recodes sp m (16 * r + c % 16) o x) : Recodes sp m c o x := by
  rwa [← hc, Nat.div_add_mod] at h

theorem decodeS_recodes (m : Marks) (o : BitVec 40) (c : Nat) : Recodes .s m c o (decodeS m o c) := by
  unfold decodeS
  split
  case h_1 hc => exact .of_row hc (decodeS0_recodes m o _)
  case h_2 hc => exact .of_row hc (decodeS1_recodes m o _)
  case h_3 hc => exact .of_row hc (decodeS2_recodes m o _)
  case h_4 hc => exact .of_row hc (decodeS3_recodes m o _)
  case h_5 hc => exact .of_row hc (decodeS4_recodes m o _)
  case h_6 hc => exact .of_row hc (decodeS5_recodes m o _)
  case h_7 hc => exact .of_row hc (decodeS6_recodes m o _)
  case h_8 hc => exact .of_row hc (decodeS7_recodes m o _)
  case h_9 => exact .of_error

theorem decodeV_recodes (m : Marks) (o : BitVec 40) (c : Nat) : Recodes .v m c o (decodeV m o c) := by
  unfold decodeV
  split
  case h_1 hc => exact .of_row hc (decodeV0_recodes m o _)
  case h_2 hc => exact .of_row hc (decodeV1_recodes m o _)
  case h_3 hc => exact .of_row hc (decodeV2_recodes m o _)
  case h_4 hc => exact .of_row hc (decodeV3_recodes m o _)
  case h_5 hc => exact .of_row hc (decodeV4_recodes m o _)
  case h_6 hc => exact .of_row hc (decodeV5_recodes m o _)
  case h_7 hc => exact .of_row hc (decodeV6_recodes m o _)
  case h_8 hc => exact .of_row hc (decodeV7_recodes m o _)
  case h_9 => exact .of_error

theorem decodeC_recodes (m : Marks) (o : BitVec 40) (c : Nat) : Recodes .c m c o (decodeC m o c) := by
  unfold decodeC
  split
  case h_1 hc => exact .of_row hc (decodeC0_recodes m o _)
  case h_2 hc => exact .of_row hc (decodeC1_recodes m o _)
  case h_3 hc => exact .of_row hc (decodeC2_recodes m o _)
  case h_4 hc => exact .of_row hc (decodeC3_recodes m o _)
  case h_5 => exact .of_error

theorem decodeM_recodes (m : Marks) (o : BitVec 40) (c : Nat) : Recodes .m m c o (decodeM m o c) := by
  unfold decodeM
  split
  case h_1 hc => exact .of_row hc (decodeM0_recodes m o _)
  case h_2 hc => exact .of_row hc (decodeM1_recodes m o _)
  case h_3 => exact .of_error

/-- A word is its marks, its opcode and its operand (R14). -/
theorem word_parts (w : W64) : word (marksOf w) (opcodeOf w) (operandOf w) = w := by
  have h1 : w.extractLsb' 56 8 ++ w.extractLsb' 48 8 = w.extractLsb' 48 16 := BitVec.extractLsb'_append_extractLsb'_eq_extractLsb' rfl
  have h2 : w.extractLsb' 48 16 ++ w.extractLsb' 40 8 = w.extractLsb' 40 24 := BitVec.extractLsb'_append_extractLsb'_eq_extractLsb' rfl
  have h3 : w.extractLsb' 40 24 ++ w.extractLsb' 0 40 = w.extractLsb' 0 64 := BitVec.extractLsb'_append_extractLsb'_eq_extractLsb' rfl
  unfold word marksOf opcodeOf operandOf
  rw [h1, h2, h3, BitVec.extractLsb'_eq_self]

theorem encode_of_decodeFields {sp : Space} {w : W64} {i : Instr} (h : decodeFields sp w = .ok i) : encode i = some (sp, w) := by
  have hr : Recodes sp (marksOf w) (opcodeOf w).toNat (operandOf w) (decodeFields sp w) := by
    cases sp
    · exact decodeS_recodes _ _ _
    · exact decodeV_recodes _ _ _
    · exact decodeC_recodes _ _ _
    · exact decodeM_recodes _ _ _
  simpa [word_parts] using hr i h

theorem decode_eq_ok_iff {sp : Space} {w : W64} {i : Instr} :
    decode sp w = .ok i ↔ decodeFields sp w = .ok i ∧ (marksOf w).ok = true ∧ i.wellFormed = true := by
  unfold decode
  cases decodeFields sp w with
  | error e => simp
  | ok j =>
    by_cases hm : (marksOf w).ok = true
    · by_cases hj : j.wellFormed = true
      · simp [hm, hj]
        rintro rfl; exact hj
      · simp [hm, hj]
        rintro rfl; simpa using hj
    · simp [hm]

/-- Settles O4: what a row of the opcode map answers is an instruction whose word has the row's opcode and the operand read. -/
theorem decodedWordIsTheEncoding : Obligations.DecodedWordIsTheEncoding := by
  intro sp w i h
  obtain ⟨hf, -, hw⟩ := decode_eq_ok_iff.1 h
  exact ⟨hw, encode_of_decodeFields hf⟩

end Sys2Proof
end

section
/-! PROOFS. What reset leaves (R7, R351, R436). -/

namespace Sys2Proof.Machine

@[simp] theorem State.reset_bank (b : Nat) : State.reset.bank b = Bank.reset := rfl
@[simp] theorem State.reset_die (d : Nat) : State.reset.die d = Die.reset := rfl
@[simp] theorem State.reset_hub (p : Nat) : State.reset.hub p = Hub.reset := rfl

theorem State.reset_memAt (u : Store) : State.reset.memAt u = Mem.empty := by
  cases u <;> rfl

/-- Settles O60: every unit reads as its reset value, and every memory is empty. -/
theorem resetLeaves : Obligations.ResetLeaves := by
  refine ⟨by decide, fun b => ?_, fun d => ?_, fun p => ?_, rfl, rfl, fun u a => ?_⟩
  · rw [State.reset_bank]
    exact ⟨rfl, rfl, rfl, fun _ => rfl, fun _ => rfl, fun _ => rfl, fun _ => rfl⟩
  · rw [State.reset_die]
    decide
  · rw [State.reset_hub]
    rfl
  · rw [State.peek, State.reset_memAt]
    rfl

end Sys2Proof.Machine
end

section
/-! PROOFS. Facts about sparse maps, and about fields of words: a field written is read back, and the bits outside it stay (R6). -/

namespace Sys2Proof

theorem SMap.find?_map_range {α : Type} (g : Nat → α) (n p : Nat) (h : p < n) :
    SMap.find? ((List.range n).map (fun q => (q, g q))) p = some (g p) := by
  have key : ∀ (l : List Nat), p ∈ l → SMap.find? (l.map (fun q => (q, g q))) p = some (g p) := by
    intro l
    induction l with
    | nil => simp
    | cons a t ih =>
      intro hp
      by_cases ha : a = p
      · simp [SMap.find?, ha]
      · simpa [SMap.find?, ha] using ih (by simpa [Ne.symm ha] using hp)
  exact key _ (List.mem_range.2 h)

/-- A map keeps the keys that a filter keeps. -/
theorem SMap.get_filter {α : Type} (m : SMap α) (d : α) (p : Nat → Bool) (k : Nat) :
    SMap.get (m.filter (fun x => p x.1)) d k = if p k then m.get d k else d := by
  unfold SMap.get
  induction m with
  | nil => simp [SMap.find?]
  | cons a t ih =>
    obtain ⟨j, v⟩ := a
    by_cases hj : j = k
    · subst hj
      by_cases hp : p j = true
      · simp [SMap.find?, hp]
      · simpa [SMap.find?, hp] using ih
    · by_cases hp : p j = true
      · simpa [SMap.find?, hp, hj] using ih
      · simpa [SMap.find?, hp, hj] using ih

end Sys2Proof

namespace Sys2Proof.Machine

theorem fld_eq_div {n : Nat} (x : BitVec n) (lo w : Nat) : fld x lo w = x.toNat / 2 ^ lo % 2 ^ w := by
  rw [fld, Nat.shiftRight_eq_div_pow]

theorem testBit_fld {n : Nat} (x : BitVec n) (lo w i : Nat) : (fld x lo w).testBit i = (decide (i < w) && x.getLsbD (lo + i)) := by
  rw [fld, Nat.testBit_mod_two_pow, Nat.testBit_shiftRight, BitVec.testBit_toNat]

theorem getLsbD_putFld {n : Nat} (x : BitVec n) (lo w v i : Nat) (hi : i < n) :
    (putFld x lo w v).getLsbD i = if lo ≤ i ∧ i < lo + w then v.testBit (i - lo) else x.getLsbD i := by
  simp only [putFld, BitVec.getLsbD_or, BitVec.getLsbD_and, BitVec.getLsbD_not, BitVec.getLsbD_ofNat, Nat.testBit_shiftLeft,
    Nat.testBit_two_pow_sub_one, Nat.testBit_mod_two_pow, hi]
  by_cases hlo : lo ≤ i
  · by_cases hw : i < lo + w
    · have : i - lo < w := by omega
      simp [hlo, hw, this]
    · have : ¬ i - lo < w := by omega
      simp [hlo, hw, this]
  · simp [hlo]

/-- A field of one bit holds what was written. -/
theorem getLsbD_putFld_bit {n : Nat} (x : BitVec n) (lo v : Nat) (h : lo < n) : (putFld x lo 1 v).getLsbD lo = v.testBit 0 := by
  rw [getLsbD_putFld x lo 1 v lo h, if_pos (by omega), Nat.sub_self]

/-- A field holds the low bits of what was written. -/
theorem fld_putFld_same {n : Nat} (x : BitVec n) (lo w v : Nat) (h : lo + w ≤ n) : fld (putFld x lo w v) lo w = v % 2 ^ w := by
  apply Nat.eq_of_testBit_eq
  intro i
  rw [testBit_fld, Nat.testBit_mod_two_pow]
  by_cases hi : i < w
  · rw [getLsbD_putFld x lo w v _ (by omega), if_pos (by omega), Nat.add_sub_cancel_left]
  · simp [hi]

end Sys2Proof.Machine
end

section
/-! PROOFS. The registers of a die that other agents move (R345, R348, R412, R436, R437, R446). -/

namespace Sys2Proof.Machine

@[simp] theorem Die.reg_setReg_same (x : Die) (k : Nat) (v : W64) : (x.setReg k v).reg k = v := SMap.get_set_same ..
@[simp] theorem Hub.reg_setReg_same (h : Hub) (k : Nat) (v : W64) : (h.setReg k v).reg k = v := SMap.get_set_same ..

theorem Die.setReg_sets_bit (x : Die) (k lo : Nat) (w : W64) (h : lo < 64) :
    ((x.setReg k (putFld w lo 1 1)).reg k).getLsbD lo = true := by
  rw [Die.reg_setReg_same, getLsbD_putFld_bit w lo 1 h]
  rfl

theorem Die.setReg_clears_bit (x : Die) (k lo : Nat) (w : W64) (h : lo < 64) :
    ((x.setReg k (putFld w lo 1 0)).reg k).getLsbD lo = false := by
  rw [Die.reg_setReg_same, getLsbD_putFld_bit w lo 0 h]
  rfl

/-- Nothing but die d changes. -/
def State.onlyDie (s : State) (d : Nat) (t : State) : Prop :=
  t = { s with dies := t.dies } ∧ ∀ y, y ≠ d → t.die y = s.die y

theorem State.onlyDie_modDie (s : State) (d : Nat) (f : Die → Die) : s.onlyDie d (s.modDie d f) :=
  ⟨rfl, fun y h => State.modDie_die_ne s d y f h⟩

/-! The ring table (R348). -/

theorem Die.jsEntry_lt (x : Die) (p : Nat) : x.jsEntry p < 2 ^ 32 := Nat.mod_lt _ (by decide)

/-- A table made from the shadow entries has the shadow table's owners. -/
theorem Die.jsOwner_of_shadow {x y : Die} (h : y.jsActive = (List.range 256).map (fun p => (p, BitVec.ofNat 64 (x.jsEntry p))))
    {p l : Nat} (hp : p < 256) : y.jsOwner p l = x.jsShadow p l := by
  have he : x.jsEntry p < 2 ^ 64 := Nat.lt_trans (x.jsEntry_lt p) (by decide)
  have h256 : (256 : Nat) ^ l = 2 ^ (8 * l) := by rw [Nat.pow_mul]
  have hfld := fld_eq_div (BitVec.ofNat 64 (x.jsEntry p)) (8 * l) 8
  rw [BitVec.toNat_ofNat, Nat.mod_eq_of_lt he, ← h256] at hfld
  rw [Die.jsOwner, h, SMap.find?_map_range (fun p => BitVec.ofNat 64 (x.jsEntry p)) 256 p hp]
  exact hfld

/-- JSCTL_SWAP (R348): refused with ERR, or pending. -/
theorem exec_jsctlSwap (s : State) (d : Nat) : ∃ t, exec (.jsctlSwap d) s = .next t ∧ s.onlyDie d t ∧
    (((s.die d).reg 0x10000).getLsbD 1 = true ∨ (s.die d).jsShadowOk = false →
      ((t.die d).reg 0x10000).getLsbD 2 = true ∧ (t.die d).jsActive = (s.die d).jsActive) ∧
    (((s.die d).reg 0x10000).getLsbD 1 = false → (s.die d).jsShadowOk = true → ((t.die d).reg 0x10000).getLsbD 1 = true) := by
  refine ⟨_, rfl, s.onlyDie_modDie d _, ?_⟩
  rw [State.modDie_die_same]
  generalize s.die d = x
  refine ⟨fun h => ?_, fun hw hok => ?_⟩
  · have hc : ((x.reg 0x10000).getLsbD 1 || !x.jsShadowOk) = true := by
      rwa [Bool.or_eq_true, Bool.not_eq_true']
    rw [if_pos hc]
    exact ⟨Die.setReg_sets_bit x _ 2 _ (by decide), rfl⟩
  · have hn : ¬ ((x.reg 0x10000).getLsbD 1 || !x.jsShadowOk) = true := by
      rw [hw, hok]
      decide
    rw [if_neg hn]
    exact Die.setReg_sets_bit x _ 1 _ (by decide)

/-- JSTAB_INSTALL (R348): a swap that is pending is made at its boundary, and nothing happens before. -/
theorem exec_jstabInstall (s : State) (d : Nat) : ∃ t, exec (.jstabInstall d) s = .next t ∧ s.onlyDie d t ∧
    (((s.die d).reg 0x10000).getLsbD 1 = true → (s.cycle - (s.die d).born) % 256 = 0 → (s.die d).swapAt < s.cycle →
      ((t.die d).reg 0x10000).getLsbD 1 = false ∧ ∀ p l, p < 256 → l < 4 → (t.die d).jsOwner p l = (s.die d).jsShadow p l) ∧
    (((s.die d).reg 0x10000).getLsbD 1 = false ∨ (s.cycle - (s.die d).born) % 256 ≠ 0 ∨ s.cycle ≤ (s.die d).swapAt →
      t.die d = s.die d) := by
  refine ⟨_, rfl, s.onlyDie_modDie d _, ?_⟩
  rw [State.modDie_die_same]
  generalize s.die d = x
  refine ⟨fun hw hc hs => ?_, fun h => ?_⟩
  · have hn : ¬ (!(x.reg 0x10000).getLsbD 1 || (s.cycle - x.born) % 256 != 0 || decide (s.cycle ≤ x.swapAt)) = true := by
      rw [hw, hc, decide_eq_false (Nat.not_le.2 hs)]
      decide
    rw [if_neg hn]
    exact ⟨Die.setReg_clears_bit x _ 1 _ (by decide), fun p l hp _ => Die.jsOwner_of_shadow rfl hp⟩
  · have hc : (!(x.reg 0x10000).getLsbD 1 || (s.cycle - x.born) % 256 != 0 || decide (s.cycle ≤ x.swapAt)) = true := by
      rwa [Bool.or_eq_true, Bool.or_eq_true, Bool.not_eq_true', bne_iff_ne, decide_eq_true_eq, or_assoc]
    rw [if_pos hc]

/-! Replicas (R345). -/

theorem exec_replicaDropDone (s : State) (d : Nat) (hbusy : ((s.die d).reg 0x10010).getLsbD 4 = true) :
    ∃ t, exec (.replicaDropDone d) s = .next t ∧ s.onlyDie d t ∧
      (t.die d).replicas = [] ∧ ((t.die d).reg 0x10010).getLsbD 4 = false := by
  refine ⟨_, rfl, s.onlyDie_modDie d _, ?_⟩
  have hn : ¬ (!((s.die d).reg 0x10010).getLsbD 4) = true := by simp [hbusy]
  rw [State.modDie_die_same, if_neg hn]
  exact ⟨rfl, Die.setReg_clears_bit (s.die d) _ 4 _ (by decide)⟩

/-! Re-shard tables (R412). -/

/-- The entry number of RSIDX after a write of it. -/
theorem rsEntry_putFld (ix : W64) (e : Nat) : (putFld ix 2 14 e).toNat / 4 % 2 ^ 14 = e % 2 ^ 14 := by
  have h := fld_putFld_same ix 2 14 e (by decide)
  rw [fld_eq_div] at h
  exact h

/-- RSDATA_ACCESS (R412): a write of a table that is not in use sets the addressed entry, a read sets none, and AINC moves on. -/
theorem exec_rsdataAccess (s : State) (d : Nat) (wr : Bool) (v : W64) :
    ∃ t, exec (.rsdataAccess d wr v) s = .next t ∧ s.onlyDie d t ∧
      (wr = true → v.toNat / 2 ^ 24 % 2 ^ 40 = 0 → (s.die d).rsBusy (((s.die d).reg 0x30000).toNat % 4) = false →
        (t.die d).rsTable.find? (((s.die d).reg 0x30000).toNat % 4 * 16384 + ((s.die d).reg 0x30000).toNat / 4 % 2 ^ 14) = some v) ∧
      (wr = false → (t.die d).rsTable = (s.die d).rsTable) ∧
      (((s.die d).reg 0x30000).getLsbD 16 = true →
        ((t.die d).reg 0x30000).toNat / 4 % 2 ^ 14 = (((s.die d).reg 0x30000).toNat / 4 % 2 ^ 14 + 1) % 2 ^ 14) := by
  refine ⟨_, rfl, s.onlyDie_modDie d _, ?_⟩
  rw [State.modDie_die_same]
  generalize s.die d = x
  simp only [fld_eq_div, Nat.reducePow, Nat.div_one]
  refine ⟨fun hwr hv hb => ?_, fun hwr => ?_, fun hinc => ?_⟩
  · have hc : (wr && v.toNat / 16777216 % 1099511627776 == 0 && !x.rsBusy ((x.reg 0x30000).toNat % 4)) = true := by
      simp [hwr, hv, hb]
    rw [if_pos hc]
    split <;> exact SMap.find?_set_same ..
  · have hn : ¬ (wr && v.toNat / 16777216 % 1099511627776 == 0 && !x.rsBusy ((x.reg 0x30000).toNat % 4)) = true := by
      simp [hwr]
    rw [if_neg hn]
    split <;> rfl
  · rw [if_pos hinc, Die.reg_setReg_same]
    exact rsEntry_putFld ..

/-! The fabric block (R437, R446). -/

theorem exec_ftSyncLost (s : State) (d : Nat) : ∃ t, exec (.ftSyncLost d) s = .next t ∧ s.onlyDie d t ∧
    ((t.die d).reg 0x100008).getLsbD 6 = false ∧ ((t.die d).reg 0x100008).getLsbD 7 = true := by
  refine ⟨_, rfl, s.onlyDie_modDie d _, ?_⟩
  rw [State.modDie_die_same]
  refine ⟨?_, Die.setReg_sets_bit _ _ 7 _ (by decide)⟩
  rw [Die.reg_setReg_same, getLsbD_putFld _ 7 1 1 6 (by decide), if_neg (by decide), getLsbD_putFld_bit _ 6 0 (by decide)]
  rfl

theorem exec_ftSyncAchieved (s : State) (d : Nat) :
    ∃ t, exec (.ftSyncAchieved d) s = .next t ∧ s.onlyDie d t ∧ ((t.die d).reg 0x100008).getLsbD 6 = true := by
  refine ⟨_, rfl, s.onlyDie_modDie d _, ?_⟩
  rw [State.modDie_die_same]
  exact Die.setReg_sets_bit _ _ 6 _ (by decide)

/-- What a window makes of a level between its floor and 7. -/
theorem throttle_level {floor level : Nat} (up down : Prop) [Decidable up] [Decidable down] (hf : floor ≤ level) (h7 : level ≤ 7) :
    let new := max floor (min 7 (level + (if up then 1 else 0) - (if down then 1 else 0)))
    floor ≤ new ∧ new ≤ 7 ∧ (up ∧ ¬ down → new = min 7 (level + 1)) ∧ (down ∧ ¬ up → new = max floor (level - 1)) ∧
      ((up ↔ down) → new = level) := by
  by_cases hu : up
  all_goals
    by_cases hd : down
    all_goals
      simp [hu, hd]
      omega

/-- THROTTLE_WINDOW (R446): the counts start again, and the level moves by the comparisons that hold. -/
theorem exec_throttleWindow (s : State) (d : Nat) : ∃ t, exec (.throttleWindow d) s = .next t ∧ s.onlyDie d t ∧
    (t.die d).winDefl = 0 ∧ (t.die d).winPos = 0 ∧
    (t.die d).level =
      let th := ((s.die d).reg 0x100010).toNat
      max (th / 256 % 8) (min 7 ((s.die d).level + (if th % 16 * (s.die d).winPos ≤ 16 * (s.die d).winDefl then 1 else 0) -
        (if 16 * (s.die d).winDefl < th / 16 % 16 * (s.die d).winPos then 1 else 0))) := by
  refine ⟨_, rfl, s.onlyDie_modDie d _, ?_⟩
  rw [State.modDie_die_same]
  refine ⟨rfl, rfl, ?_⟩
  simp only [fld_eq_div, decide_eq_true_eq, Nat.reducePow, Nat.div_one]

theorem dieRegistersMove : Parts.DieRegistersMove := by
  intro s d
  refine ⟨exec_jsctlSwap s d, exec_jstabInstall s d, exec_replicaDropDone s d, exec_rsdataAccess s d, exec_ftSyncLost s d,
    exec_ftSyncAchieved s d, ?_⟩
  obtain ⟨t, ht, hd, hdefl, hpos, hlevel⟩ := exec_throttleWindow s d
  refine ⟨t, ht, hd, hdefl, hpos, fun hf h7 => ?_⟩
  rw [hlevel]
  exact throttle_level _ _ hf h7

end Sys2Proof.Machine
end

section
/-! PROOFS. Writes of control registers (R7, R8, R397, R423, R426), the power controller (R427 to R429) and bring-up (R426). -/

namespace Sys2Proof.Machine

/-! Writes of control registers. -/

/-- A write where no function has a register is discarded (R423). -/
theorem exec_controlRegisterWrite_none (s : State) (d : Nat) (v : W64) {off : Nat} (h : ctlFunction off = none) :
    exec (.controlRegisterWrite d off v) s = .next s := by
  change execControlRegisterWrite d off v s = _
  simp [execControlRegisterWrite, h]

/-- A write to a function that is not usable, or with a reserved bit set, is discarded (R8, R426). -/
theorem exec_controlRegisterWrite_refused (s : State) (d : Nat) (v : W64) {off f : Nat} (h : ctlFunction off = some f)
    (hr : (s.die d).isReady f = false ∨ v &&& ~~~(BitVec.ofNat 64 (ctlFields off)) ≠ 0) :
    exec (.controlRegisterWrite d off v) s = .next s := by
  have hc : (!(s.die d).isReady f || v &&& ~~~(BitVec.ofNat 64 (ctlFields off)) != 0) = true := by
    rwa [Bool.or_eq_true, Bool.not_eq_true', bne_iff_ne]
  change execControlRegisterWrite d off v s = _
  simp only [execControlRegisterWrite, h]
  rw [if_pos hc]

/-- A word has no bit outside its low n bits when its value is below 2^n. -/
theorem and_not_ones_eq_zero_iff {v : W64} {n : Nat} : v &&& ~~~(BitVec.ofNat 64 (ones n)) = 0 ↔ v.toNat < 2 ^ n := by
  have hbit : ∀ i, i < 64 → (v &&& ~~~(BitVec.ofNat 64 (ones n))).getLsbD i = (v.toNat.testBit i && !decide (i < n)) := by
    intro i hi
    rw [BitVec.getLsbD_and, BitVec.getLsbD_not, BitVec.getLsbD_ofNat, ones, Nat.testBit_two_pow_sub_one, BitVec.testBit_toNat]
    simp [hi]
  constructor
  · intro h
    refine Nat.lt_pow_two_of_testBit _ fun i hi => ?_
    by_cases h64 : i < 64
    · have := hbit i h64
      rw [h] at this
      simpa [Nat.not_lt.2 hi] using this.symm
    · exact BitVec.testBit_toNat v ▸ BitVec.getLsbD_of_ge v i (Nat.le_of_not_lt h64)
  · intro h
    refine BitVec.eq_of_getLsbD_eq fun i hi => ?_
    rw [hbit i hi]
    change _ = (0#64).getLsbD i
    rw [BitVec.getLsbD_zero]
    by_cases hn : i < n
    · simp [hn]
    · have := Nat.testBit_lt_two_pow (Nat.lt_of_lt_of_le h (Nat.pow_le_pow_right (by decide) (Nat.le_of_not_lt hn)))
      simp [this]

section
variable {s : State} {d off : Nat} {v : W64}

theorem controlRegisterWrite_not_refused {f : Nat} (hr : (s.die d).isReady f = true) (hv : v &&& ~~~(BitVec.ofNat 64 (ctlFields off)) = 0) :
    ¬ (!(s.die d).isReady f || v &&& ~~~(BitVec.ofNat 64 (ctlFields off)) != 0) = true := by
  simp [hr, hv]

/-- A write that the die-memory block takes. -/
theorem exec_controlRegisterWrite_mem (h : ctlFunction off = some 0) (hr : (s.die d).isReady 0 = true)
    (hv : v &&& ~~~(BitVec.ofNat 64 (ctlFields off)) = 0) :
    exec (.controlRegisterWrite d off v) s = .next (s.writeMemReg d off v) := by
  change execControlRegisterWrite d off v s = _
  simp only [execControlRegisterWrite, h]
  rw [if_neg (controlRegisterWrite_not_refused hr hv)]

/-- A write that the Zenith block takes. -/
theorem exec_controlRegisterWrite_zenith (h : ctlFunction off = some 1) (hr : (s.die d).isReady 1 = true)
    (hv : v &&& ~~~(BitVec.ofNat 64 (ctlFields off)) = 0) :
    exec (.controlRegisterWrite d off v) s = .next (s.writeZenith (pkgOf d) off v) := by
  change execControlRegisterWrite d off v s = _
  simp only [execControlRegisterWrite, h]
  rw [if_neg (controlRegisterWrite_not_refused hr hv)]

/-- A write that the fabric block takes. -/
theorem exec_controlRegisterWrite_fabric (h : ctlFunction off = some 5) (hr : (s.die d).isReady 5 = true)
    (hv : v &&& ~~~(BitVec.ofNat 64 (ctlFields off)) = 0) :
    exec (.controlRegisterWrite d off v) s = .next (s.writeFabric d off v) := by
  change execControlRegisterWrite d off v s = _
  simp only [execControlRegisterWrite, h]
  rw [if_neg (controlRegisterWrite_not_refused hr hv)]

end

/-- A write of the throttle register (R436, R446) raises the level to the new floor. -/
theorem exec_write_throttle (s : State) (d : Nat) (v : W64) (hr : (s.die d).isReady 5 = true) (hv : v.toNat < 2048) :
    ∃ t, exec (.controlRegisterWrite d 0x100010 v) s = .next t ∧ (t.die d).reg 0x100010 = v ∧
      (t.die d).level = max (s.die d).level (v.toNat / 256 % 8) ∧ t = { s with dies := t.dies } := by
  have hw : s.writeFabric d 0x100010 v =
      s.setDie d { (s.die d).setReg 0x100010 v with level := max (s.die d).level (fld v 8 3) } := rfl
  refine ⟨_, exec_controlRegisterWrite_fabric rfl hr (and_not_ones_eq_zero_iff.2 hv), ?_, ?_, rfl⟩
  · rw [hw, State.setDie_die_same]
    exact Die.reg_setReg_same ..
  · rw [hw, State.setDie_die_same]
    exact congrArg (max _) (fld_eq_div v 8 3)

/-- A write of SCRUB (R350, R351). -/
theorem exec_write_scrub (s : State) (d : Nat) (v : W64) (hr : (s.die d).isReady 0 = true) (hv : v.toNat < 65536) :
    exec (.controlRegisterWrite d 0x10030 v) s = .next (s.setDie d ((s.die d).setReg 0x10030 v)) :=
  exec_controlRegisterWrite_mem rfl hr (and_not_ones_eq_zero_iff.2 hv)

/-- A write of ZKILL (R396, R397) comes before anything else, and none is made of a word with a reserved bit set. -/
theorem exec_write_zkill (s : State) (d : Nat) (v : W64) (hr : (s.die d).isReady 1 = true) :
    exec (.controlRegisterWrite d 0x20028 v) s = .next (if v.toNat < 2 ^ 32 then
      { s with agenda := .event (.zkill (pkgOf d) (v.setWidth 32)) :: s.agenda } else s) := by
  by_cases hv : v.toNat < 2 ^ 32
  · rw [if_pos hv, exec_controlRegisterWrite_zenith (off := 0x20028) rfl hr (and_not_ones_eq_zero_iff.2 hv)]
    rfl
  · rw [if_neg hv]
    exact exec_controlRegisterWrite_refused s d v rfl (.inr fun h => hv (and_not_ones_eq_zero_iff.1 h))

/-! The power controller (R427 to R429). -/

theorem powerNeed_le {cap old watts : Nat} (h : old ≤ 12) : powerNeed cap old watts ≤ 12 := by
  unfold powerNeed
  repeat' split
  all_goals omega

theorem thermalNeed_le {old celsius : Nat} (h : old ≤ 12) : thermalNeed old celsius ≤ 12 := by
  unfold thermalNeed
  repeat' split
  all_goals omega

/-- A move toward a requirement is of at most one step, and no further than it (R427). -/
theorem stepToward_near {step need : Nat} (hs : step ≤ 12) (hn : need ≤ 12) :
    stepToward step need ≤ step + 1 ∧ step ≤ stepToward step need + 1 ∧ stepToward step need ≤ 12 := by
  unfold stepToward
  repeat' split
  all_goals omega

/-- The clock step after a millisecond of the controller. -/
def Hub.stepAfter (h : Hub) (watts celsius : Nat) : Nat :=
  stepToward (fld (h.reg 0x50008) 0 4) (max (powerNeed (fld (h.reg 0x50000) 0 16) h.power watts) (thermalNeed h.thermal celsius))

/-- The clock step moves by at most one in a millisecond, and stays within the steps of PCLK (R427). -/
theorem Hub.stepAfter_near {h : Hub} (w c : Nat) (hs : fld (h.reg 0x50008) 0 4 ≤ 12) (hp : h.power ≤ 12) (ht : h.thermal ≤ 12) :
    h.stepAfter w c ≤ fld (h.reg 0x50008) 0 4 + 1 ∧ fld (h.reg 0x50008) 0 4 ≤ h.stepAfter w c + 1 ∧ h.stepAfter w c ≤ 12 :=
  stepToward_near hs (Nat.max_le.2 ⟨powerNeed_le hp, thermalNeed_le ht⟩)

/-- POWER_MANAGEMENT_TICK (R427 to R429): the clock step of PCLK, and a shutdown at 115 degrees. -/
theorem exec_powerManagementTick (s : State) (pkg w c : Nat) : ∃ t, exec (.powerManagementTick pkg w c) s = .next t ∧
    ((s.hub pkg).stepAfter w c ≤ 12 → ((t.hub pkg).reg 0x50008).toNat % 16 = (s.hub pkg).stepAfter w c) ∧
    t.agenda = (if 115 ≤ c then [.event (.thermalShutdown pkg)] else []) ++ s.agenda := by
  refine ⟨_, rfl, fun h12 => ?_, ?_⟩
  · have hhub : ∀ (u : State) (a : List Turn), (if 115 ≤ c then { u with agenda := a } else u).hub pkg = u.hub pkg := by
      intro u a
      split <;> rfl
    rw [hhub, State.modHub_hub_same]
    refine (congrArg (fun x : W64 => x.toNat % 16) (Hub.reg_setReg_same (s.hub pkg) 0x50008 _)).trans ?_
    change (BitVec.ofNat 64 ((s.hub pkg).stepAfter w c + _)).toNat % 16 = _
    rw [BitVec.toNat_ofNat]
    split <;> omega
  · split <;> rfl

/-! Shutdown and bring-up. -/

/-- BRING_UP (R426): the die is at reset but for its HBM, and its functions are usable from the next cycle. -/
theorem exec_bringUp (s : State) (d : Nat) : ∃ t, exec (.bringUp d) s = .next t ∧ (t.die d).up = true ∧
    (∀ f, f < 7 → (t.die d).isReady f = false ∧ (t.die d).startCycle.isReady f = true) ∧
    (t.die d).hbm = (s.die d).hbm ∧ (t.die d).regs = [] ∧ (∀ b, bankDie b = d → t.bank b = Bank.reset) ∧
    (∀ b, bankDie b ≠ d → t.bank b = s.bank b) ∧ (∀ y, y ≠ d → t.die y = s.die y) := by
  have hdie : ∀ (u : State) y, (if localDie d = 0 then u.setHub (pkgOf d) Hub.reset else u).die y = u.die y := by
    intro u y
    split <;> rfl
  have hbank : ∀ (u : State) b, (if localDie d = 0 then u.setHub (pkgOf d) Hub.reset else u).bank b = u.bank b := by
    intro u b
    split <;> rfl
  have hready : ∀ f, f < 7 → (0#8).getLsbD f = false ∧ (0#8 ||| BitVec.ofNat 8 127).getLsbD f = true := by decide
  have hfilter : ∀ b, SMap.get (s.banks.filter (fun x => bankDie x.1 != d)) Bank.reset b =
      if (bankDie b != d) = true then s.bank b else Bank.reset := SMap.get_filter s.banks Bank.reset (fun b => bankDie b != d)
  refine ⟨_, rfl, ?_⟩
  simp only [hdie, hbank, State.setDie_die_same, State.setDie_bank]
  refine ⟨trivial, hready, trivial, rfl, fun b hb => ?_, fun b hb => ?_, fun y hy => State.setDie_die_ne _ _ _ _ hy⟩
  · exact (hfilter b).trans (if_neg (by simp [hb]))
  · exact (hfilter b).trans (if_pos (by simp [hb]))

theorem controlSpaceAndPower : Parts.ControlSpaceAndPower := by
  intro s d pkg off v
  refine ⟨exec_controlRegisterWrite_none s d v, fun f => exec_controlRegisterWrite_refused s d v, exec_write_throttle s d v,
    exec_write_scrub s d v, exec_write_zkill s d v, fun w c => ?_, ⟨_, rfl, ?_, rfl⟩, exec_bringUp s d⟩
  · obtain ⟨t, ht, hstep, hagenda⟩ := exec_powerManagementTick s pkg w c
    refine ⟨t, ht, fun ho hp hth => ?_, hagenda⟩
    have hold : fld ((s.hub pkg).reg 0x50008) 0 4 = ((s.hub pkg).reg 0x50008).toNat % 16 := by
      have h := fld_eq_div ((s.hub pkg).reg 0x50008) 0 4
      rw [Nat.pow_zero, Nat.div_one] at h
      exact h
    obtain ⟨hup, hdown, h12⟩ := Hub.stepAfter_near w c (hold ▸ ho) hp hth
    rw [hold] at hup hdown
    rw [hstep h12]
    exact ⟨hup, hdown, h12⟩
  · rw [State.modHub_hub_same]

/-- Settles O52: each agent's event by the lemma that says what it does, and each write by the block that takes it. -/
theorem controlSpace : Obligations.ControlSpace := ⟨dieRegistersMove, controlSpaceAndPower⟩

end Sys2Proof.Machine
end

section
/-! PROOFS. The word of a well-formed instruction decodes to it (R70, R77, R79 to R81). A field that `put` places is read by `bits`
where it was placed and reads 0 elsewhere; so an operand of fields that do not overlap gives each of them back, and sets no bit that
none of them takes. -/

namespace Sys2Proof

/-! Fields of an operand: what is written is read back. -/

@[simp] theorem putB_eq (lo : Nat) (b : Bool) : putB lo b = put lo (BitVec.ofBool b) := rfl

@[simp] theorem bits_or (a b : BitVec 40) (lo n : Nat) : bits (a ||| b) lo n = bits a lo n ||| bits b lo n := by
  ext i hi
  simp [bits]

@[simp] theorem bits_put_same {n : Nat} (lo : Nat) (x : BitVec n) (h : lo + n ≤ 40) : bits (put lo x) lo n = x := by
  ext i hi
  have h40 : lo + i < 40 := by omega
  simp [bits, put, h40, BitVec.getLsbD_eq_getElem hi]

@[simp] theorem getElem_put_apart {n : Nat} (lo j : Nat) (x : BitVec n) (hj : j < 40) (h : j < lo ∨ lo + n ≤ j) :
    (put lo x)[j] = false := by
  rcases h with h | h
  · simp [put, h]
  · simp [put, BitVec.getLsbD_of_ge x (j - lo) (by omega)]

@[simp] theorem bits_put_apart {n : Nat} (lo lo' n' : Nat) (x : BitVec n) (h : lo' + n' ≤ lo ∨ lo + n ≤ lo') :
    bits (put lo x) lo' n' = 0#n' := by
  ext i hi
  by_cases h40 : lo' + i < 40
  · simp [bits, BitVec.getLsbD_eq_getElem h40, getElem_put_apart lo (lo' + i) x h40 (by omega)]
  · simp [bits, BitVec.getLsbD_of_ge (put lo x) (lo' + i) (by omega)]

@[simp] theorem getElem_put_ofBool (lo : Nat) (b : Bool) (h : lo < 40) : (put lo (BitVec.ofBool b))[lo] = b := by
  simp [put]

/-- A field sets no bit that a mask R names outside it. -/
@[simp] theorem put_and_eq_zero {n lo : Nat} {R : BitVec 40} (x : BitVec n) (hR : R.extractLsb' lo n = 0#n) : put lo x &&& R = 0#40 := by
  ext i hi
  by_cases hlo : i < lo
  · simp [put, hlo]
  by_cases hn : i - lo < n
  · have hbit : R.getLsbD (lo + (i - lo)) = false := by simpa [hn] using congrArg (BitVec.getLsbD · (i - lo)) hR
    rw [Nat.add_sub_cancel' (by omega), BitVec.getLsbD_eq_getElem hi] at hbit
    simp [hbit]
  · simp [put, BitVec.getLsbD_of_ge x (i - lo) (by omega)]

/-- The first k bits of the field at bit 0. -/
theorem bits_low_toNat (o : BitVec 40) {k n : Nat} (h : k ≤ n) : (bits o 0 k).toNat = (bits o 0 n).toNat % 2 ^ k := by
  simp [bits, Nat.mod_mod_of_dvd _ (Nat.pow_dvd_pow 2 h)]

/-! Codes and operand fields: what is written is read back. -/

@[simp] theorem EType.ofCode_code (t : EType) : EType.ofCode t.code = some t := by cases t <;> rfl
@[simp] theorem RMode.ofCode_code (r : RMode) : RMode.ofCode r.code = some r := by cases r <;> rfl
@[simp] theorem Engine.ofCode_code (e : Engine) : Engine.ofCode e.code = some e := by cases e <;> rfl

@[simp] theorem orReserved_some {α : Type} (v : α) (k : α → Except DecodeError Instr) : orReserved (some v) k = k v := rfl

@[simp] theorem MoOp.ofOperand_toOperand (f : MoOp) : MoOp.ofOperand f.toOperand = f := by
  simp [MoOp.ofOperand, MoOp.toOperand]

@[simp] theorem VMemOp.ofOperand_toOperand (f : VMemOp) : VMemOp.ofOperand f.toOperand = f := by
  simp [VMemOp.ofOperand, VMemOp.toOperand]

@[simp] theorem VOp.ofOperand_toOperand (f : VOp) : VOp.ofOperand f.toOperand = some f := by
  simp [VOp.ofOperand, VOp.toOperand]

@[simp] theorem VGatOp.ofOperand_toOperand (f : VGatOp) : VGatOp.ofOperand f.toOperand = some f := by
  simp [VGatOp.ofOperand, VGatOp.toOperand]

/-- The two bits of the sub field that tell the forms of VSMX apart (R213). -/
theorem VOp.form_toOperand (f : VOp) : (bits f.toOperand 0 2).toNat = f.sub.toNat % 4 := by
  have hsub : bits f.toOperand 0 8 = f.sub := by simp [VOp.toOperand]
  exact (bits_low_toNat f.toOperand (by decide : 2 ≤ 8)).trans (congrArg (fun x : BitVec 8 => x.toNat % 4) hsub)

theorem VSpec.sub_of_fits {p : VSpec} {f : VOp} (h : p.fits f = true) : p.sub f.sub = true := by
  simp only [VSpec.fits, Bool.and_eq_true] at h
  exact h.1.2

/-! The parts of a word (R14). -/

theorem operandOf_word (m : Marks) (c : BitVec 8) (o : BitVec 40) : operandOf (word m c o) = o :=
  BitVec.extractLsb'_append_eq_right (a := m.wait ++ m.signal ++ c)

theorem opcodeOf_word (m : Marks) (c : BitVec 8) (o : BitVec 40) : opcodeOf (word m c o) = c :=
  (BitVec.extractLsb'_append_eq_of_le (xhi := m.wait ++ m.signal ++ c) (xlo := o) (by decide)).trans
    (BitVec.extractLsb'_append_eq_right (a := m.wait ++ m.signal))

theorem marksOf_word (m : Marks) (c : BitVec 8) (o : BitVec 40) : marksOf (word m c o) = m := by
  have hmarks : ∀ k, (word m c o).extractLsb' (48 + k) 8 = (m.wait ++ m.signal).extractLsb' k 8 := by
    intro k
    have ho := BitVec.extractLsb'_append_eq_of_le (xhi := m.wait ++ m.signal ++ c) (xlo := o) (start := 48 + k) (len := 8) (by omega)
    have hc := BitVec.extractLsb'_append_eq_of_le (xhi := m.wait ++ m.signal) (xlo := c) (start := 8 + k) (len := 8) (by omega)
    rw [show 48 + k - 40 = 8 + k by omega, hc, Nat.add_sub_cancel_left] at ho
    exact ho
  have hwait : (word m c o).extractLsb' 56 8 = m.wait := (hmarks 8).trans BitVec.extractLsb'_append_eq_left
  have hsignal : (word m c o).extractLsb' 48 8 = m.signal := (hmarks 0).trans BitVec.extractLsb'_append_eq_right
  exact congr (congrArg Marks.mk hwait) hsignal

/-- What a space's opcode map answers for the parts of a word. -/
def decodeParts (sp : Space) (m : Marks) (o : BitVec 40) (c : Nat) : Except DecodeError Instr :=
  match sp with
  | .s => decodeS m o c
  | .v => decodeV m o c
  | .c => decodeC m o c
  | .m => decodeM m o c

theorem decodeFields_eq (sp : Space) (w : W64) : decodeFields sp w = decodeParts sp (marksOf w) (operandOf w) (opcodeOf w).toNat := by
  cases sp <;> rfl

/-! Words that are read back. -/

/-- The word of an instruction, when it has one, gives back its marks and the instruction. -/
def ReadsBack (i : Instr) : Prop :=
  ∀ sp w, encode i = some (sp, w) → i.marks = some (marksOf w) ∧ decodeFields sp w = .ok i

theorem ReadsBack.of_word {i : Instr} {sp : Space} {m : Marks} {c : BitVec 8} {o : BitVec 40} (he : encode i = some (sp, word m c o))
    (hm : i.marks = some m) (hd : decodeParts sp m o c.toNat = .ok i) : ReadsBack i := by
  intro sp' w h
  obtain ⟨rfl, rfl⟩ := Prod.mk.inj (Option.some.inj (he.symm.trans h))
  rw [decodeFields_eq, marksOf_word, operandOf_word, opcodeOf_word]
  exact ⟨hm, hd⟩

/-- A word with no reserved bit. -/
theorem ReadsBack.of_ok {i j : Instr} {sp : Space} {m : Marks} {c : BitVec 8} {o : BitVec 40} (he : encode i = some (sp, word m c o))
    (hm : i.marks = some m) (hd : decodeParts sp m o c.toNat = .ok j) (hj : j = i) : ReadsBack i :=
  .of_word he hm (hj ▸ hd)

@[simp] theorem clear_of_and_eq_zero {o R : BitVec 40} {r : Except DecodeError Instr} (hR : o &&& R = 0#40) : clear o R r = r :=
  if_pos hR

/-- A word whose operand sets none of its reserved bits R. -/
theorem ReadsBack.of_clear {i : Instr} {sp : Space} {m : Marks} {c : BitVec 8} {o R : BitVec 40} {r : Except DecodeError Instr}
    (he : encode i = some (sp, word m c o)) (hm : i.marks = some m) (hd : decodeParts sp m o c.toNat = clear o R r)
    (hR : o &&& R = 0#40) (hr : r = .ok i) : ReadsBack i :=
  .of_word he hm ((hd.trans (clear_of_and_eq_zero hR)).trans hr)

/-- A word with the operand of R78. -/
theorem ReadsBack.of_vop {i : Instr} {m : Marks} {c : BitVec 8} {f : VOp} {k : VOp → Instr}
    (he : encode i = some (.v, word m c f.toOperand)) (hm : i.marks = some m)
    (hd : decodeParts .v m f.toOperand c.toNat = orReserved (VOp.ofOperand f.toOperand) fun g => .ok (k g)) (hi : k f = i) :
    ReadsBack i :=
  .of_ok he hm (by rw [hd, VOp.ofOperand_toOperand, orReserved_some]) hi

/-- A word of VSMX, whose form the low bits of sub name (R213). -/
theorem ReadsBack.of_vsmx {i : Instr} {m : Marks} {f : VOp} {p : VSpec} {k : Nat} (hf : p.fits f = true)
    (he : encode i = some (.v, word m 0x61 f.toOperand)) (hm : i.marks = some m) (hp : p.sub f.sub = true → f.sub.toNat = k)
    (hd : (bits f.toOperand 0 2).toNat = k % 4 → decodeV6 m f.toOperand 1 = .ok i) : ReadsBack i :=
  .of_word he hm (hd (by rw [VOp.form_toOperand, hp (VSpec.sub_of_fits hf)]))

/-- An event has no word. -/
theorem ReadsBack.of_event {i : Instr} (he : encode i = none) : ReadsBack i := by
  intro sp w h
  rw [he] at h
  cases h

/-- Every instruction whose fields hold values that their descriptions allow is read back. The cases stand by what the decoder asks
of the word: nothing but its opcode, an operand that is one record, fields that take every bit, fields beside reserved bits, fields
that hold codes, and forms of one opcode that a selector field tells apart. -/
theorem readsBack_of_fieldsOk (i : Instr) (hf : i.fieldsOk = true) : ReadsBack i := by
  cases i
  case nop | fence | ifence | rendez | tret | vnop | vend | cnop | cend | mnop | mlease | mrel | mend => exact .of_word rfl rfl rfl
  case ld | lds => exact .of_ok rfl rfl rfl (by rw [MoOp.ofOperand_toOperand])
  case vld | vst => exact .of_ok rfl rfl rfl (by rw [VMemOp.ofOperand_toOperand])
  case vgath | vscat => exact .of_word rfl rfl (by simp [decodeParts, decodeV, decodeV5])
  case vadd | vsub | vmul | vfma | vfms | vfnma | vmin | vmax | vabs | vneg | vcmp | vsel | vexp2 | vlog2 | vrcp | vrsq | vsqrt | vsin |
      vcos | vtanh | vsigm | vcvt | vqmx | vdqmx | vqgi | vscl | vpack | vunpk | viadd | visub | vimul | vimad | vand | vor | vxor | vshl |
      vshr | vsha | vimin | vimax | vicmp | viota | vpopc | vred | vscan | vperm | vslide | vbcst | vmov | vzip | vuzp | vtrn | vrope |
      vdwc | vkst | vzcmp | vzexp | vmaskp | vwelf => exact .of_vop rfl rfl rfl rfl
  case addi | andi | ori | xori | slti | sltni | lih | muli | beq | bne | blt | bge | bltn | bgen | jl =>
    exact .of_ok rfl rfl rfl (by simp)
  case add | sub | mul | mulh | mulhn | div | divn | rem | remn | and | or | xor | andn | shl | shr | sha | rotl | min | max | minn | maxn |
      clz | ctz | popc | seq | sne | slt | sltn | sle | slen | sel | shli | shri | shai | li | extr | insr | st | chk | pref | amo | cas |
      phase | pub | acq | cwb | iinv | bps | bpc | j | jr | jlr | loop | lbrk | setp | waitf | sigf | rdf | rdq | endJob | launch | yield |
      mbox | mbrd | trap | getc | setc | setb | clrb | evt | park | fpost | fthr | rgrp | rshrd | laysel | rasave | raload |
      vmovi | vqcfg | vdrop | vloop | vlbrk | ccopy | cfill | cbind | csink | cunb | czc | cgath | cscat | cuse | cpref | ckv | ckgath |
      chalo | cmsg | cloop | clbrk | mfmt | mbld | mbsel | mma | mzero | mscale | mloop | mlbrk | push | start | cnbr | cnbu | mdrain =>
    refine .of_clear rfl rfl rfl ?reserved ?fields
    case reserved => simp [BitVec.and_or_distrib_right]
    case fields => simp
  case vsmxStep m f => exact .of_vsmx (k := 0) hf rfl rfl (fun h => congrArg BitVec.toNat (eq_of_beq h)) (fun h => by simp [decodeV6, h])
  case vsmxNorm m f => exact .of_vsmx (k := 1) hf rfl rfl eq_of_beq (fun h => by simp [decodeV6, h])
  case vsmxScale m f => exact .of_vsmx (k := 2) hf rfl rfl eq_of_beq (fun h => by simp [decodeV6, h])
  case fenceJob | cinv | cinvDiscard =>
    exact .of_word rfl rfl (by simp [decodeParts, decodeS, decodeS3, BitVec.and_or_distrib_right])
  case ftime | ftimeUntil => exact .of_word rfl rfl (by simp [decodeParts, decodeS, decodeS7, BitVec.and_or_distrib_right])
  case cmap | cmapSt | cstep | cstepOdo | cpeerTx | cpeerRx =>
    exact .of_word rfl rfl (by simp [decodeParts, decodeC, decodeC0, BitVec.and_or_distrib_right])
  case cseqLd | cseqSt | cseqRope | ckrelPage | ckrelWin | ckrelTrunc | ckcfgLd | ckcfgClr =>
    exact .of_word rfl rfl (by simp [decodeParts, decodeC, decodeC1, BitVec.and_or_distrib_right])
  all_goals exact .of_event rfl

theorem decode_of_encode {i : Instr} {sp : Space} {w : W64} (hi : i.wellFormed = true) (he : encode i = some (sp, w)) :
    decode sp w = .ok i := by
  obtain ⟨hmarks, hfields⟩ := Bool.and_eq_true_iff.1 hi
  obtain ⟨hm, hd⟩ := readsBack_of_fieldsOk i hfields sp w he
  rw [hm] at hmarks
  exact decode_eq_ok_iff.2 ⟨hd, hmarks, hi⟩

/-- Settles O2: the word of a well-formed instruction is read back in the space it is encoded in, here S. -/
theorem scalarWordsRoundTrip : Obligations.ScalarWordsRoundTrip := fun _ _ => decode_of_encode

/-- Settles O3: as in S, so in the V, C and M spaces. -/
theorem engineWordsRoundTrip : Obligations.EngineWordsRoundTrip :=
  ⟨fun _ _ => decode_of_encode, fun _ _ => decode_of_encode, fun _ _ => decode_of_encode⟩

/-- Settles O1: the ten words are the encodings of their well-formed instructions; the last two set a reserved bit (R72) and name an
opcode that is not assigned (R82). -/
theorem writtenWordsDecode : Obligations.WrittenWordsDecode := by
  refine ⟨?_, ?_, ?_, ?_, ?_, ?_, ?_, ?_, ?_, ?_, rfl, rfl⟩
  all_goals exact decode_of_encode rfl rfl

end Sys2Proof
end
